-- ==== Sys2Proof/Word.lean ====
section
/-! DEFINITION. Word.lean: the byte and word types of the NS-1's registers, descriptors and memories (R12). -/
namespace Sys2Proof

/-- One byte of a memory or of a descriptor. -/
abbrev Byte := BitVec 8

/-- One register, 32 bits (R691). -/
abbrev Word := BitVec 32

/-- Two to the `n`. -/
abbrev two (n : Nat) : Nat := 2 ^ n

end Sys2Proof
end

