-- ==== Sys2Proof/Syntax.lean ====
section
/-! DEFINITION. Syntax.lean: the commands the NS-1 takes, one constructor per row of spec/opcode_table.json, and their operands.
`dt` is how many nanoseconds of the counting clock (R32) have passed since the command before it; a command without `dt` names
an instant of the part's own (a boundary, a slot start, a timeout), and the counter moves on to that instant.
`p` is the party whose access it is (R694 to R696). Host and partner data arrive as operands: `none` is a read that ended in an error. -/
namespace Sys2Proof

/-- A party that accesses registers: a PCIe function or the signal box firmware (R695, R696). -/
inductive Party where
  | fn (f : Fin 64)
  | sb
deriving DecidableEq, Repr

/-- What the part's sensors measured over the tick that ends: rail groups in mW, junction temperatures in 1/256 °C (R514). -/
structure Sensors where
  railMw : List Nat
  tempCd : Int
  tempSd : Int
deriving DecidableEq, Repr

/-- A frame on a serial audio port (R215 to R217): how long before its last bit its frame-start edge lay (ns), rising BCLK edges in
its two slots, the shortest BCLK phase (ns), and for each of the four data lines its level at every rising BCLK edge from the frame-start
edge to the one that captures the last bit, first edge first. -/
structure PortFrame where
  age : Nat
  edgesL : Nat
  edgesR : Nat
  minPhase : Nat
  lines : List (List Bool)
deriving DecidableEq, Repr

/-- A received IEC 60958 frame (R233): how long before its end its first preamble began, the preambles (0 B, 1 M, 2 W, 3 none),
whether a biphase violation lay outside a preamble, and per subframe the 24-bit word, V, U, C and P. -/
structure IecFrame where
  age : Nat
  preA : Fin 4
  preB : Fin 4
  violation : Bool
  wordA : Nat
  wordB : Nat
  vA : Bool
  uA : Bool
  cA : Bool
  pA : Bool
  vB : Bool
  uB : Bool
  cB : Bool
  pB : Bool
deriving DecidableEq, Repr

/-- The fields of a 32-byte instruction (R261) beyond its opcode. -/
structure Ins where
  flags : Nat
  sub : Nat
  cycles : Nat
  a : Nat
  b : Nat
  c : Nat
  d : Nat
  e : Nat
  f : Nat
deriving DecidableEq, Repr

/-- What R303 to R313 give a tile instruction without saying where it lies: the tensor's zero point z, the group scale bytes, column by
column, and the position of the run that its first row processes (R276). -/
structure TileX where
  z : Nat
  scales : List Byte
  first : Nat := 0
deriving DecidableEq, Repr

/-- What R349 to R355 give an attention instruction without an operand field: the row (in deckle-table order), its first query, the
head, the SEQ_SPLIT part this core computes, the scratch offset of the row's own keys and values (LOCAL), and the output format (0 fp32,
1 bf16). -/
structure AttnX where
  row : Nat
  first : Nat
  head : Nat
  part : Nat
  kv : Nat
  fmt : Nat
deriving DecidableEq, Repr

/-- What a row's stage produced when its core's stream ended (R96, R274): result bytes, keyword detections (s_w, keyword, score),
and end of utterance (R101). -/
structure RowEnd where
  result : List Byte
  wake : List (Nat × Nat × Int)
  eou : Bool
deriving DecidableEq, Repr

/-- A remote row read request (R386). -/
structure ReadReq where
  src : Fin 32
  tenancy : Fin 64
  table : Fin 16
  key : Nat
  row : Nat
  view : Nat
  tag : Nat
  gen : Nat
deriving DecidableEq, Repr

/-- A fence for a table interval (R396). -/
structure FenceMsg where
  tenancy : Fin 64
  table : Fin 16
  key : Nat
  interval : Nat
  reads : Nat
  updates : Nat
deriving DecidableEq, Repr

/-- An owner's APPLIED notice (R396). -/
structure AppliedMsg where
  tenancy : Fin 64
  table : Fin 16
  key : Nat
  interval : Nat
  rows : Nat
deriving DecidableEq, Repr

/-- A Buarcon Link packet (R465): its header fields and payload. -/
structure Packet where
  dst : Fin 32
  src : Fin 32
  route : Fin 4
  gen : Fin 4
  counted : Bool
  kind : Nat
  tenancy : Fin 64
  seq : Nat
  arg : Nat
  payload : List Byte
deriving DecidableEq, Repr

/-- What a HELLO says of its sender (R472). -/
structure HelloMsg where
  node : Fin 32
  consist : Nat
  dx : Nat
  dy : Nat
  port : Fin 8
  period : Nat
  tick : Nat
  everLocked : Bool
  stepping : Nat
deriving DecidableEq, Repr

/-- A change of one port of the route map (R477): the state it takes, 3 IN_SERVICE, 4 SIDING, 0 absent. -/
structure MapChange where
  node : Fin 32
  port : Fin 8
  state : Nat
deriving DecidableEq, Repr

/-- A route map change notice (R477): the chip that changes, its serial number there, the effective tick, the changes. -/
structure MapNotice where
  origin : Fin 32
  serial : Nat
  tick : Nat
  changes : List MapChange
deriving DecidableEq, Repr

/-- One generation of a DRAIN report (R478). -/
structure DrainGen where
  gen : Fin 4
  inj : Nat
  final : Bool
  ej : Nat
deriving DecidableEq, Repr

/-- A DRAIN report (R478). -/
structure DrainMsg where
  src : Fin 32
  gens : List DrainGen
deriving DecidableEq, Repr

/-- What link ECC makes of a read of LPDDR5X (R539): no error, one it corrects, one it cannot correct whose retry succeeds, one whose retry
fails. -/
inductive LinkEcc where
  | good | corrected | retried | failed
deriving DecidableEq, Repr

/-- A word or block the patrol reads (R553): what its check bits show (0 good, 1 correctable, 2 uncorrectable), the bit corrected,
whether a pass ends with it, and, of an LPDDR5X block, what link ECC makes of the read. -/
structure PatrolWord where
  store : Fin 16
  unit : Fin 64
  addr : Nat
  check : Fin 3
  bit : Nat
  passEnd : Bool
  link : LinkEcc := .good
deriving DecidableEq, Repr

/-- The straps at T0 (R668). -/
structure Straps where
  sbBus : Bool
  smbAddr : Fin 8
  recovery : Bool
  test : Fin 4
deriving DecidableEq, Repr

/-- The firmware images in flash (R610), component by component: version, the flag to commit (R648), SHA-384 digest. -/
structure FwImage where
  version : Nat
  commit : Bool
  digest : List Byte
deriving DecidableEq, Repr

/-- The images of the three components, and the boot ROM's own digest (R610, R611). -/
structure FwImages where
  rom : List Byte
  sb : FwImage
  sd : FwImage
  cd : FwImage
deriving DecidableEq, Repr


/-- An access to BAR0 or BAR4 (R128, R693): its offset, its length in bytes, its byte enables and its data; `read` makes it a read, which
carries neither. -/
structure BusWrite where
  bar4 : Bool
  addr : Nat
  len : Nat
  be : Nat
  value : Nat
  read : Bool := false
deriving DecidableEq, Repr

/-- An access to a doorbell page of BAR2 (R128, R134, R160): a write of a value with its byte enables, or a read. -/
inductive DbAccess where
  | write (value be : Nat)
  | read
deriving DecidableEq, Repr

/-- What the host sets in a function's configuration space beside Bus Master Enable (R126): Relaxed Ordering, the payload (128 << n) and
read request (128 << n) sizes, 10-bit tags, AER and ECRC, D3hot, ASPM L1, MSI-X Enable and Function Mask. Read request size, tags, AER, ECRC
and ASPM show on PCIe alone. -/
structure FnCfg where
  ro : Bool := true
  payload : Fin 3 := 0
  readReq : Fin 6 := 2
  tags10 : Bool := false
  aer : Bool := false
  ecrc : Bool := false
  d3hot : Bool := false
  aspmL1 : Bool := false
  msix : Bool := false
  msixMask : Bool := false
deriving DecidableEq, Repr

/-- A write of a function's configuration space: Bus Master Enable and what the host sets with it (R126, R153). -/
structure CfgWrite where
  en : Bool
  cfg : FnCfg
deriving DecidableEq, Repr

/-- A TILE_BF16 instruction, and the position of the run that its first row processes (R276). -/
structure TileBf where
  ins : Ins
  first : Nat
deriving DecidableEq, Repr

/-- A flit of the couch link received with a bad CRC: the nanoseconds since the command before, its direction (`up`: to the stream die), and its
number (R282). -/
structure BadFlit where
  dt : Nat
  up : Bool
  flit : Nat
deriving DecidableEq, Repr

/-- A remote row read request, and what link ECC makes of the read of the row's block `block` (R386, R539). -/
structure RowRead where
  req : ReadReq
  link : LinkEcc
  block : Nat
deriving DecidableEq, Repr

/-- The commands (spec/opcode_table.json). -/
inductive Instr where
  /-- PPS_EDGE (R35): An edge on PPS_IN is captured, its phase error computed, judged for acceptance and fed to the discipline loop. -/
  | ppsEdge (dt : Nat) (fall : Bool) (width : Nat)
  /-- TOD_ARM (R42): A write of HT_TOD_ARM.ARM copies the staged seconds into a pending arm and records its source. -/
  | todArm (dt : Nat) (p : Party)
  /-- PPS_MISSING (R39): No edge is accepted within 1.5 s of the last in ACQUIRE or LOCKED after lock, so the unit enters HOLDOVER with a frozen rate. -/
  | ppsMissing
  /-- HOLDOVER_SECOND (R40): Each completed second of holdover the unit evaluates the bound B(t) and reports it. -/
  | holdoverSecond
  /-- REF_LOST (R70): REF_IN is lost; the counter runs on the internal oscillator and the unit enters FREERUN unless UNSET. -/
  | refLost (dt : Nat)
  /-- REF_RETURN (R70): REF_IN returns within tolerance and the counting clock switches back to it without a step. -/
  | refReturn (dt : Nat)
  /-- TICK_BOUNDARY (R62): At each tick boundary the tick number advances and the ordered boundary actions are taken as one change. -/
  | tickBoundary (m : Sensors)
  /-- SLOT_START (R268): At the start of each slot the stream die selects rows for the runs placed there and dispatches them. -/
  | slotStart
  /-- PLACEMENT_END (R56): A fixed-mode run still executing at the end of its placement is suspended at the next tile-instruction boundary and counted. -/
  | placementEnd
  /-- HT_CNT_LO_READ (R64): A read of HT_CNT_LO returns the counter and latches the house-time registers from one instant. -/
  | htCntLoRead (dt : Nat) (p : Party)
  /-- TT_TICK_LO_READ (R64): A read of TT_TICK_LO latches TT_TICK_HI and TT_TICK_INDEX. -/
  | ttTickLoRead (dt : Nat) (p : Party)
  /-- HT_PPS_CAP_LO_READ (R64): A read of HT_PPS_CAP_LO latches HT_PPS_CAP_HI. -/
  | htPpsCapLoRead (dt : Nat) (p : Party)
  /-- TT_PERIOD_WRITE (R71): A write of TT_PERIOD takes effect at once while stopped and is refused while RUNNING. -/
  | ttPeriodWrite (dt : Nat) (p : Party) (value : Nat)
  /-- TT_IMG_LOAD (R61): TT_IMG_CMD.LOAD starts fetch and validation of a timetable image, abandoning any pending one. -/
  | ttImgLoad (dt : Nat) (p : Party)
  /-- TT_IMG_ABANDON (R75): TT_IMG_CMD.ABANDON abandons the pending image and counts it. -/
  | ttImgAbandon (dt : Nat) (p : Party)
  /-- TT_IMG_VALIDATED (R60): Fetch and validation of a timetable image end, leaving it pending or refused with the first failing code. -/
  | ttImgValidated (dt : Nat) (img : Option (List Byte))
  /-- ADMIT (R87): An ADMIT command checks a parameter record and reserves the slot's resources. -/
  | admitStream (dt : Nat) (ring : Fin 512) (desc : List Byte) (record : Option (List Byte))
  /-- START (R84): A START command schedules the stream to run from a chunk boundary. -/
  | start (dt : Nat) (ring : Fin 512) (desc : List Byte)
  /-- STOP (R104): A STOP command schedules the stream to drain from its stop tick. -/
  | stop (dt : Nat) (ring : Fin 512) (desc : List Byte)
  /-- PROMOTE (R97): A PROMOTE command requests promotion of a LISTEN stream to TRANSCRIBE. -/
  | promote (dt : Nat) (ring : Fin 512) (desc : List Byte)
  /-- DEMOTE (R101): A DEMOTE command returns a TRANSCRIBE stream to LISTEN at its tick. -/
  | demote (dt : Nat) (ring : Fin 512) (desc : List Byte)
  /-- EXPORT (R107): An EXPORT command parks the stream at a chunk boundary for an image to be written. -/
  | exportStream (dt : Nat) (ring : Fin 512) (desc : List Byte)
  /-- IMPORT (R112): An IMPORT command is accepted into a FREE slot, which becomes PARKED while the image loads. -/
  | importStream (dt : Nat) (ring : Fin 512) (desc : List Byte)
  /-- RESUME (R108): A RESUME command returns a PARKED stream to service at a chunk boundary. -/
  | resume (dt : Nat) (ring : Fin 512) (desc : List Byte)
  /-- RESTART (R103): A RESTART command returns a FAULTED slot to ADMITTED with its committed state. -/
  | restart (dt : Nat) (ring : Fin 512) (desc : List Byte)
  /-- RELEASE (R105): A RELEASE command frees the slot and its resources at its tick. -/
  | release (dt : Nat) (ring : Fin 512) (desc : List Byte)
  /-- EXPORT_IMAGE_WRITE (R107): After the last pre-export commit the migration engine writes the stream image, header last, and completes the EXPORT. -/
  | exportImageWrite (dt : Nat) (slot : Fin 8192)
  /-- IMPORT_LOADED (R112): Fetch and loading of an IMPORT image ends, setting the epoch or refusing the import and freeing the slot. -/
  | importLoaded (dt : Nat) (slot : Fin 8192) (img : Option (List Byte))
  /-- STR_IMG_WINDOW_WRITE (R109): A write of STR_IMG_BASE or STR_IMG_SIZE is taken or ignored with RANGE_REFUSED. -/
  | strImgWindowWrite (dt : Nat) (p : Party) (t : Fin 64) (off : Nat) (value : Nat)
  /-- STR_VIEW_STATE_READ (R125): A read of STR_VIEW_STATE latches the slot view registers. -/
  | strViewStateRead (dt : Nat) (p : Party) (t : Fin 64)
  /-- DOORBELL_WRITE (R134): A doorbell write offers a new host index, which is checked, stamped and accepted or rejected. -/
  | doorbellWrite (dt : Nat) (f : Fin 64) (ring : Fin 512) (off : Nat) (a : DbAccess)
  /-- SUBMIT_AUDIO (R141): A fetched AUDIO descriptor and its buffer are checked and its frames placed on the stream's grid. -/
  | submitAudio (dt : Nat) (ring : Fin 512) (desc : List Byte) (audio : Option (List Byte))
  /-- SUBMIT_NOP (R141): A NOP SUBMIT descriptor is consumed with no effect. -/
  | submitNop (dt : Nat) (ring : Fin 512)
  /-- DESCRIPTOR_FETCH_ERROR (R163): A descriptor read ends in error and the ring enters ERROR. -/
  | descriptorFetchError (dt : Nat) (ring : Fin 512)
  /-- THRESHOLD_HOLDOFF (R155): RING_HOLDOFF expires after the first unreported descriptor and THRESHOLD is set. -/
  | thresholdHoldoff (ring : Fin 512)
  /-- FUNCTION_LEVEL_RESET (R157): A function-level reset discards the function's stores, disables its rings and requests teardown of its slots. -/
  | functionLevelReset (dt : Nat) (f : Fin 64)
  /-- HOT_RESET (R158): A hot reset resets every function and takes the link down. -/
  | hotReset (dt : Nat)
  /-- BUS_MASTER_ENABLE_CHANGE (R153): A change of a function's Bus Master Enable holds or releases its upstream stores. -/
  | busMasterEnableChange (dt : Nat) (f : Fin 64) (w : CfgWrite)
  /-- VF_ENABLE_CHANGE (R165): Clearing VF Enable or reducing NumVFs function-level-resets each affected VF. -/
  | vfEnableChange (dt : Nat) (en : Bool) (num : Fin 64)
  /-- UPSTREAM_STORE_ISSUE (R152): A pending store is granted an upstream write-out buffer and committed to the PCIe transmit queue. -/
  | upstreamStoreIssue (dt : Nat)
  /-- SAMPLE_PRODUCTION (R181): A port-fed stream's internal sample is produced from its source frames by the resampler. -/
  | sampleProduction (slot : Fin 8192)
  /-- BEAM_BIND (R190): FE_BEAM_CMD.BIND starts fetching a beam weight block for a slot. -/
  | beamBind (dt : Nat) (p : Party) (t : Fin 64)
  /-- BEAM_BLOCK_FETCHED (R190): The weight block copy ends and is checked, awaiting its tick or refused. -/
  | beamBlockFetched (dt : Nat) (t : Fin 64) (blk : Option (List Byte))
  /-- REEL_AREA_WRITE (R195): A write of FE_REEL_BASE or FE_REEL_SIZE is taken only while every slot is FREE. -/
  | reelAreaWrite (dt : Nat) (p : Party) (off : Nat) (value : Nat)
  /-- FE_VIEW_CLK_READ (R213): A read of FE_VIEW_CLK latches the clock and reel view registers. -/
  | feViewClkRead (dt : Nat) (p : Party) (t : Fin 64)
  /-- FRAME_BUFFER (R217): A serial port judges a received frame at the edge capturing its last bit and buffers or drops it whole. -/
  | frameBuffer (dt : Nat) (port : Fin 8) (fr : PortFrame)
  /-- IEC_FRAME_RECEIVE (R233): An IEC port decodes a frame of two subframes and buffers or drops it. -/
  | iecFrameReceive (dt : Nat) (port : Fin 2) (fr : IecFrame)
  /-- IEC_SIGNAL_LOSS (R234): No transition for two declared frame periods makes the IEC receiver lose lock. -/
  | iecSignalLoss (dt : Nat) (port : Fin 2)
  /-- IXP_CSQ_HOST_IDX_WRITE (R238): A host index write returns channel-status descriptors or is ignored if out of range. -/
  | ixpCsqHostIdxWrite (dt : Nat) (p : Party) (port : Fin 2) (value : Nat)
  /-- PORT_START (R230): A START command bit queues a start for an audio or IEC port at its stamp. -/
  | portStart (dt : Nat) (p : Party) (port : Fin 10)
  /-- PORT_STOP (R231): A STOP command bit queues a stop for an audio or IEC port at its stamp. -/
  | portStop (dt : Nat) (p : Party) (port : Fin 10)
  /-- PORT_FLUSH (R228): FLUSH discards every pending port command and counts them superseded. -/
  | portFlush (dt : Nat) (p : Party) (port : Fin 10)
  /-- PORT_COMMAND_EFFECT (R241): A pending port command reaches its effective frame and acts on the state it finds. -/
  | portCommandEffect (dt : Nat) (port : Fin 10)
  /-- ZC_TIMEOUT (R230): A channel finds no zero crossing within TIMEOUT frames and ramps. -/
  | zcTimeout (dt : Nat) (port : Fin 10) (channel : Fin 8)
  /-- OUTPUT_FRAME (R232): An output line transmits one frame of its chosen source. -/
  | outputFrame (dt : Nat) (port : Fin 10) (line : Fin 4)
  /-- SWITCHED (R240): A timing-mode switch completes at the first frame after it, beginning a new block. -/
  | switched (dt : Nat) (port : Fin 8)
  /-- APT_STAMP_LO_READ (R248): A read of APT_STAMP_LO latches the newest block's stamp and number. -/
  | aptStampLoRead (dt : Nat) (p : Party) (port : Fin 8)
  /-- IXP_STAMP_LO_READ (R248): A read of IXP_STAMP_LO latches the stamp and IEC block count. -/
  | ixpStampLoRead (dt : Nat) (p : Party) (port : Fin 2)
  /-- IXP_CS_A_READ (R248): A read of IXP_CS_A[0] latches the channel status of one block. -/
  | ixpCsARead (dt : Nat) (p : Party) (port : Fin 2)
  /-- TILE_W4 (R306): A W4A8 tile instruction accumulates one output block through product tables. -/
  | tileW4 (core : Fin 64) (ins : Ins) (x : TileX)
  /-- TILE_W8 (R307): A W8A8 tile instruction accumulates one output block. -/
  | tileW8 (core : Fin 64) (ins : Ins) (x : TileX)
  /-- TILE_BF16 (R308): A bf16 tile instruction accumulates one output block in fp32. -/
  | tileBf16 (core : Fin 64) (x : TileBf)
  /-- ATTN (R352): An attention instruction processes one block of 128 view indices for its queries. -/
  | attn (core : Fin 64) (ins : Ins) (x : AttnX)
  /-- VEC_ADD (R320): The vector unit adds elements. -/
  | vecAdd (core : Fin 64) (ins : Ins)
  /-- VEC_MUL (R320): The vector unit multiplies elements. -/
  | vecMul (core : Fin 64) (ins : Ins)
  /-- VEC_FMA (R320): The vector unit forms fused multiply-adds. -/
  | vecFma (core : Fin 64) (ins : Ins)
  /-- VEC_DIV (R320): The vector unit divides elements. -/
  | vecDiv (core : Fin 64) (ins : Ins)
  /-- VEC_SQRT (R320): The vector unit takes square roots. -/
  | vecSqrt (core : Fin 64) (ins : Ins)
  /-- VEC_RCP (R320): The vector unit takes reciprocals. -/
  | vecRcp (core : Fin 64) (ins : Ins)
  /-- VEC_RSQRT (R320): The vector unit takes reciprocal square roots. -/
  | vecRsqrt (core : Fin 64) (ins : Ins)
  /-- VEC_EXP (R320): The vector unit takes exponentials. -/
  | vecExp (core : Fin 64) (ins : Ins)
  /-- VEC_LN (R320): The vector unit takes natural logarithms. -/
  | vecLn (core : Fin 64) (ins : Ins)
  /-- VEC_MAX (R318): The vector unit takes elementwise maxima. -/
  | vecMax (core : Fin 64) (ins : Ins)
  /-- VEC_MIN (R318): The vector unit takes elementwise minima. -/
  | vecMin (core : Fin 64) (ins : Ins)
  /-- VEC_QUANT (R311): The vector unit converts fp32 values to A8 codes. -/
  | vecQuant (core : Fin 64) (ins : Ins)
  /-- VEC_CVT (R314): The vector unit converts between formats. -/
  | vecCvt (core : Fin 64) (ins : Ins)
  /-- VEC_MOVE (R262): The vector unit moves elements. -/
  | vecMove (core : Fin 64) (ins : Ins)
  /-- CELL_LSTM (R254): The recurrent cell unit evaluates LSTM cells. -/
  | cellLstm (core : Fin 64) (ins : Ins)
  /-- CELL_GRU (R254): The recurrent cell unit evaluates GRU cells. -/
  | cellGru (core : Fin 64) (ins : Ins)
  /-- CELL_TABLE (R253): The recurrent cell unit evaluates a table lookup. -/
  | cellTable (core : Fin 64) (ins : Ins)
  /-- APPEND_KV (R345): An APPEND_KV instruction writes its layer's part of each new cache position of a row. -/
  | appendKv (core : Fin 64) (ins : Ins) (row : Nat)
  /-- GATHER (R382): A GATHER instruction sends a gather list to the gather engine, which issues its row reads. -/
  | gather (dt : Nat) (core : Fin 64) (ins : Ins)
  /-- UPDATE (R399): An UPDATE instruction hands an update list to the gather engine, which sends its entries to their owners. -/
  | update (dt : Nat) (core : Fin 64) (ins : Ins)
  /-- SEND (R480): A SEND instruction codes elements through the calender into TENSOR_DATA packets, or copies them locally. -/
  | send (dt : Nat) (core : Fin 64) (ins : Ins)
  /-- WAIT (R483): A WAIT instruction waits for a mailbox to reach its target. -/
  | waitMbx (core : Fin 64) (ins : Ins)
  /-- SOLVE (R440): A SOLVE instruction sends a solve request to the solver engine. -/
  | solve (dt : Nat) (core : Fin 64) (ins : Ins)
  /-- BARRIER (R262): A BARRIER holds each core until every core of the mask reaches it. -/
  | barrier (core : Fin 64) (ins : Ins)
  /-- END (R262): END ends a core's instruction stream for the stage. -/
  | endStream (dt : Nat) (core : Fin 64) (ins : Ins) (rows : List RowEnd)
  /-- RESULT_MESSAGE (R274): A row's result bytes arrive at the stream die's result store. -/
  | resultMessage (dt : Nat) (slot : Fin 8192)
  /-- COMMIT (R274): A row's COMMIT message is tested by the token rule and commits its state, issuing results and completion. -/
  | commit (dt : Nat) (slot : Fin 8192)
  /-- FEAT_MESSAGE (R607): A chunk's feature frames arrive in its home core's feature area. -/
  | featMessage (dt : Nat) (slot : Fin 8192)
  /-- FELT_REF_UPDATE (R578): A reference change crosses the couch link and is applied to the other die's counter. -/
  | feltRefUpdate (dt : Nat)
  /-- COUCH_FLIT_CRC_ERROR (R282): A couch flit with a bad CRC is replayed. -/
  | couchFlitCrcError (x : BadFlit)
  /-- PROG_LOAD (R263): CORE_PROG_CMD.LOAD starts fetching and checking a program image. -/
  | progLoad (dt : Nat) (p : Party) (t : Fin 64)
  /-- PROG_UNLOAD (R265): CORE_PROG_CMD.UNLOAD removes an image or is refused IN_USE. -/
  | progUnload (dt : Nat) (p : Party) (t : Fin 64)
  /-- PROG_RELOAD (R265): CORE_PROG_CMD.RELOAD stops dispatch of a program for rewriting. -/
  | progReload (dt : Nat) (p : Party) (t : Fin 64)
  /-- PROG_LOAD_DONE (R263): A load's fetch, checks and section writes end, or it is refused. -/
  | progLoadDone (dt : Nat) (t : Fin 64) (img : Option (List Byte))
  /-- PROG_RELOAD_QUIET (R265): No run of a reloading program is executing or suspended and its sections are rewritten. -/
  | progReloadQuiet (dt : Nat) (t : Fin 64)
  /-- CORE_FAULT_READ (R298): A read of CORE_FAULT latches the fault's program and time. -/
  | coreFaultRead (dt : Nat) (p : Party) (core : Fin 64)
  /-- CORE_SIDED (R286): When no run names a SIDING core it enters SIDED and stops its units. -/
  | coreSided (dt : Nat) (core : Fin 64)
  /-- PFX_CAPTURE (R343): A CAPTURE prefix command awaits its boundary. -/
  | pfxCapture (dt : Nat) (p : Party) (t : Fin 64)
  /-- PFX_ATTACH (R343): An ATTACH prefix command awaits its boundary. -/
  | pfxAttach (dt : Nat) (p : Party) (t : Fin 64)
  /-- PFX_DROP (R343): A DROP prefix command awaits its boundary. -/
  | pfxDrop (dt : Nat) (p : Party) (t : Fin 64)
  /-- FELT_VIEW_DEC_READ (R373): A read of FELT_VIEW_DEC latches the cache view registers. -/
  | feltViewDecRead (dt : Nat) (p : Party) (t : Fin 64)
  /-- GX_DEFINE (R380): GX_CMD DEFINE fetches and checks a table descriptor. -/
  | gxDefine (dt : Nat) (p : Party) (t : Fin 64)
  /-- GX_DELETE (R380): GX_CMD DELETE makes a DISABLED table UNDEFINED. -/
  | gxDelete (dt : Nat) (p : Party) (t : Fin 64)
  /-- GX_ENABLE (R380): GX_CMD ENABLE schedules a table to become ENABLED. -/
  | gxEnable (dt : Nat) (p : Party) (t : Fin 64)
  /-- GX_DISABLE (R380): GX_CMD DISABLE schedules a table to become DISABLED. -/
  | gxDisable (dt : Nat) (p : Party) (t : Fin 64)
  /-- GX_LOAD (R380): GX_CMD LOAD copies host bytes into table storage. -/
  | gxLoad (dt : Nat) (p : Party) (t : Fin 64)
  /-- GX_SAVE (R380): GX_CMD SAVE copies table storage to host memory. -/
  | gxSave (dt : Nat) (p : Party) (t : Fin 64)
  /-- GX_CMD_DONE (R381): A table command's fetch or transfer ends, completing or refusing it. -/
  | gxCmdDone (dt : Nat) (t : Fin 64) (data : Option (List Byte))
  /-- READ_REQ (R386): A remote row read request is served with the row or refused. -/
  | readReq (dt : Nat) (q : RowRead)
  /-- READ_REPLY (R388): A row reply part arrives, completing the read and freeing its tag or being discarded as late. -/
  | readReply (dt : Nat) (src : Fin 32) (t : Fin 64) (arg : Nat) (data : List Byte)
  /-- REFUSE (R387): A refusal reply counts the index ABSENT. -/
  | refuse (dt : Nat) (src : Fin 32) (t : Fin 64) (arg : Nat) (mismatch : Bool)
  /-- GATHER_READ_TIMEOUT (R389): A row read gets no reply within GX_TIMEOUT_NS, is counted ABSENT and frees its tag. -/
  | gatherReadTimeout (tag : Fin 2048)
  /-- UPDATE_PACKET (R388): An update entry part arrives at its owner. -/
  | updatePacket (dt : Nat) (src : Fin 32) (t : Fin 64) (payload : List Byte)
  /-- FENCE (R396): A member's fence for an interval arrives. -/
  | fence (dt : Nat) (src : Fin 32) (f : FenceMsg)
  /-- APPLIED (R398): An owner's APPLIED notice arrives, keeping or discarding prefetched copies. -/
  | applied (dt : Nat) (src : Fin 32) (f : AppliedMsg)
  /-- UPDATE_CUT (R394): The update cut ends a table interval and fences are sent. -/
  | updateCut
  /-- INTERVAL_APPLY (R400): Once fences and reads are settled the owner applies the interval's updates in order. -/
  | intervalApply (dt : Nat) (t : Fin 64) (table : Fin 16)
  /-- FENCE_LIMIT_EXPIRY (R405): A fence missing at GX_FENCE_LIMIT_NS makes the owner apply what it holds. -/
  | fenceLimitExpiry (t : Fin 64) (table : Fin 16)
  /-- GX_TAG_QUOTA_WRITE (R414): A tag quota write is taken or ignored if the sum exceeds 2,048. -/
  | gxTagQuotaWrite (dt : Nat) (p : Party) (t : Fin 64) (value : Nat)
  /-- GX_PF_QUOTA_WRITE (R414): A prefetch quota write is taken or ignored if the sum exceeds 128. -/
  | gxPfQuotaWrite (dt : Nat) (p : Party) (t : Fin 64) (value : Nat)
  /-- GX_WIN_WRITE (R415): A table window write is taken only while every table is UNDEFINED. -/
  | gxWinWrite (dt : Nat) (p : Party) (t : Fin 64) (off : Nat) (value : Nat)
  /-- SOL_LOAD (R427): SOL_CMD.LOAD starts fetching a schedule into a handle. -/
  | solLoad (dt : Nat) (p : Party) (t : Fin 64)
  /-- SOL_UNLOAD (R428): SOL_CMD.UNLOAD frees a handle or is refused. -/
  | solUnload (dt : Nat) (p : Party) (t : Fin 64)
  /-- SOL_PARAM (R430): SOL_CMD.PARAM fetches a parameter block into the idle bank. -/
  | solParam (dt : Nat) (p : Party) (t : Fin 64)
  /-- SOL_LOAD_DONE (R427): A schedule load ends, loaded or refused. -/
  | solLoadDone (dt : Nat) (t : Fin 64) (img : Option (List Byte))
  /-- SOL_PARAM_CHECKED (R430): A parameter block check ends, awaiting its tick or refused. -/
  | solParamChecked (dt : Nat) (t : Fin 64) (blk : Option (List Byte))
  /-- SOL_SUBMIT (R440): SOL_REQ_CMD.SUBMIT makes a host solve request arrive. -/
  | solSubmit (dt : Nat) (p : Party) (t : Fin 64)
  /-- SOLVE_REQUEST_READ (R440): A request's read ends and it is queued or refused. -/
  | solveRequestRead (dt : Nat) (t : Fin 64) (req : Option (List Byte))
  /-- SOLVE_START (R441): The solver engine starts the best admissible request when its worst case fits. -/
  | solveStart (dt : Nat) (meas : Option (List Byte))
  /-- SOLVE_DEADLINE_EXPIRY (R441): A request not started by its DEADLINE ends SOLVE_DEADLINE. -/
  | solveDeadlineExpiry (t : Fin 64) (req : Nat)
  /-- SOLVE_PHASE_END (R436): Setup or an iteration ends and the solve's status is tested. -/
  | solvePhaseEnd
  /-- SOL_STORE_QUOTA_WRITE (R457): A store quota write is taken or ignored if the sum exceeds 240. -/
  | solStoreQuotaWrite (dt : Nat) (p : Party) (t : Fin 64) (value : Nat)
  /-- FLIT_RECEIVE (R461): A Buarcon flit arrives, is checked and its body and credits taken. -/
  | flitReceive (dt : Nat) (port : Fin 8) (flit : List Byte)
  /-- LOSS_OF_SIGNAL (R495): A port loses signal and goes DARK. -/
  | lossOfSignal (dt : Nat) (port : Fin 8)
  /-- PORT_TRAINED (R489): A port's lanes finish training and it resets credits and reports ready. -/
  | portTrained (dt : Nat) (port : Fin 8) (lanes : Fin 16)
  /-- HELLO (R472): A HELLO is tested and the port enters service or stays in CHECK. -/
  | hello (dt : Nat) (port : Fin 8) (h : HelloMsg)
  /-- SIDE_REQ (R488): A partner's SIDE_REQ puts the port in SIDING and is answered. -/
  | sideReq (dt : Nat) (port : Fin 8)
  /-- SIDE_ACK (R488): A SIDE_ACK confirms the partner is SIDING. -/
  | sideAck (dt : Nat) (port : Fin 8)
  /-- WIDTH (R490): A WIDTH exchange agrees the flit at which the port changes width. -/
  | width (dt : Nat) (port : Fin 8) (lanes : Fin 16)
  /-- RATE (R499): A RATE exchange retrains the port's lane rate. -/
  | rate (dt : Nat) (port : Fin 8) (code : Fin 8)
  /-- DRAINED (R488): When DRAINED has crossed both ways the port enters SIDED. -/
  | drained (dt : Nat) (port : Fin 8)
  /-- MAP_NOTICE (R477): A route map change notice is taken and flooded. -/
  | mapNotice (dt : Nat) (port : Fin 8) (n : MapNotice)
  /-- DRAIN (R478): A DRAIN report is taken and generations judged drained. -/
  | drain (dt : Nat) (port : Fin 8) (d : DrainMsg)
  /-- DRAIN_REPORT_TIMER (R478): Every 10 µs with an older live generation a DRAIN report is sent. -/
  | drainReportTimer
  /-- SEQ_GAP_EXPIRY (R467): A missing sequence number is skipped after BL_GAP_NS. -/
  | seqGapExpiry (src : Fin 32) (vc : Fin 4)
  /-- TENSOR_DATA (R483): A TENSOR_DATA packet is decoded and written, advancing its mailbox on LAST. -/
  | tensorData (dt : Nat) (pk : Packet)
  /-- WAIT_LIMIT_EXPIRY (R483): A WAIT reaches its cycle limit and ends. -/
  | waitLimitExpiry (core : Fin 64)
  /-- XFER_START (R485): BL_XFER_CMD.START begins a state transfer. -/
  | xferStart (dt : Nat) (p : Party) (t : Fin 64)
  /-- XFER_DATA (R485): Transfer data arrives and is written to the receive window. -/
  | xferData (dt : Nat) (pk : Packet) (err : Bool)
  /-- XFER_ACK (R485): The acknowledgement arrives and the transfer completes. -/
  | xferAck (dt : Nat) (src : Fin 32) (t : Fin 64) (code : Nat)
  /-- XFER_ACK_TIMEOUT (R486): No XFER_ACK within 1 s fails the transfer DARK. -/
  | xferAckTimeout (t : Fin 64)
  /-- BL_NODE_WRITE (R671): A BL_NODE write sets the node and lets DARK ports train. -/
  | blNodeWrite (dt : Nat) (p : Party) (value : Nat)
  /-- BL_CONSIST_ID_WRITE (R501): A BL_CONSIST_ID write is taken only while every port is DARK or SIDED. -/
  | blConsistIdWrite (dt : Nat) (p : Party) (value : Nat)
  /-- MODE_REQUEST (R504): A PWR_MODE_REQ write requests a power mode, replaces or cancels a pending one, or is refused. -/
  | modeRequest (dt : Nat) (p : Party) (value : Nat)
  /-- STANDBY_READY (R509): When runs and stores are done the part enters retention and sets STANDBY_READY. -/
  | standbyReady (dt : Nat)
  /-- GOVERNOR_SOLVE_END (R518): The governor's solve ends and allowances and forecasts are written. -/
  | governorSolveEnd (dt : Nat)
  /-- ALLOWANCE_EXHAUSTED (R519): A core's cycle count reaches its allowance and it stops until the following tick. -/
  | allowanceExhausted (dt : Nat) (core : Fin 64)
  /-- LIMITER (R521): The energy integral reaches its limit and every main-lane core stops for the tick. -/
  | limiter (dt : Nat)
  /-- VOLTAGE_STEP_RETURN (R519): A LOW core returns to nominal in the last 100,000 ns of a tick. -/
  | voltageStepReturn (core : Fin 64)
  /-- CE_WRITEBACK (R540): A corrected word is written back unless a write reaches it first. -/
  | ceWriteback (dt : Nat) (store : Fin 16) (unit : Fin 64) (addr : Nat)
  /-- PATROL_READ (R553): The patrol reads a word or block, correcting or marking poison. -/
  | patrolRead (dt : Nat) (r : PatrolWord)
  /-- MEM_LOG_RD_WRITE (R559): A MEM_LOG_RD write frees read records or is ignored beyond MEM_LOG_WR. -/
  | memLogRdWrite (dt : Nat) (p : Party) (value : Nat)
  /-- MEM_LOG_VIEW_READ (R559): A read of MEM_LOG_VIEW[0] latches the rest of the record. -/
  | memLogViewRead (dt : Nat) (p : Party)
  /-- MEM_INJECT_ARM (R572): ARM schedules an injected error on the next whole write. -/
  | memInjectArm (dt : Nat) (p : Party)
  /-- LEDGER_AUDIT_DONE (R581): The audit result is known and each imbalance is recorded and acted on. -/
  | ledgerAuditDone (dt : Nat)
  /-- LED_LAST_BOOK_READ (R597): A read of LED_LAST_BOOK latches the failure record. -/
  | ledLastBookRead (dt : Nat) (p : Party)
  /-- DBG_CHALLENGE (R614): DBG_CMD.CHALLENGE forms a new challenge record with a fresh nonce. -/
  | dbgChallenge (dt : Nat) (p : Party)
  /-- DBG_RESPOND (R615): DBG_CMD.RESPOND checks the signature and schedules an opening or records a failure. -/
  | dbgRespond (dt : Nat) (p : Party)
  /-- DBG_CLOSE (R616): DBG_CMD.CLOSE closes every scope group. -/
  | dbgClose (dt : Nat) (p : Party)
  /-- NONCE_EXPIRY (R614): A nonce expires 60 s after its challenge. -/
  | nonceExpiry
  /-- DBG_WIN_READ (R612): A window read copies 64 bytes into DATA. -/
  | dbgWinRead (dt : Nat) (p : Party)
  /-- DBG_WIN_WRITE (R612): A window write stores DATA whole. -/
  | dbgWinWrite (dt : Nat) (p : Party)
  /-- DBG_HALT_WRITE (R617): A DBG_HALT write halts or releases cores at the next tile-instruction boundary. -/
  | dbgHaltWrite (dt : Nat) (p : Party) (hi : Bool) (value : Nat)
  /-- DBG_TRACE_VIEW_READ (R617): A read of DBG_TRACE_VIEW[0] latches the trace record. -/
  | dbgTraceViewRead (dt : Nat) (p : Party)
  /-- ISO_RES_RESERVE_WRITE (R605): A reservation write is taken or ignored if the sum exceeds 256. -/
  | isoResReserveWrite (dt : Nat) (p : Party) (t : Fin 64) (value : Nat)
  /-- GET_UNIT (R639): GET_UNIT returns a unit's generation and state at once. -/
  | getUnit (dt : Nat) (body : List Byte)
  /-- SIDE (R644): SIDE queues setting a unit's signal box request. -/
  | side (dt : Nat) (body : List Byte)
  /-- RETURN (R644): RETURN queues clearing a unit's signal box request. -/
  | returnUnit (dt : Nat) (body : List Byte)
  /-- TEARDOWN (R646): TEARDOWN queues a forced teardown of a slot. -/
  | teardown (dt : Nat) (body : List Byte)
  /-- SET_CAP (R643): SET_CAP queues a new power cap. -/
  | setCap (dt : Nat) (body : List Byte)
  /-- SET_MODE (R639): SET_MODE queues a power mode request. -/
  | setMode (dt : Nat) (body : List Byte)
  /-- SET_LOCK (R639): SET_LOCK queues a change of HOST_LOCK. -/
  | setLock (dt : Nat) (body : List Byte)
  /-- SET_POWER_PARAM (R639): SET_POWER_PARAM queues a write of a power parameter. -/
  | setPowerParam (dt : Nat) (body : List Byte)
  /-- KEY_REVOKE (R639): KEY_REVOKE queues revocation of an operator key slot. -/
  | keyRevoke (dt : Nat) (body : List Byte)
  /-- KEY_PROGRAM (R639): KEY_PROGRAM programs an empty operator key slot. -/
  | keyProgram (dt : Nat) (body : List Byte) (key : List Byte)
  /-- GET_SNAPSHOT (R638): GET_SNAPSHOT returns a kept epoch snapshot. -/
  | getSnapshot (dt : Nat) (body : List Byte)
  /-- GET_RESULT (R638): GET_RESULT returns a command's kept outcome and time. -/
  | getResult (dt : Nat) (body : List Byte)
  /-- SET_ENDPOINT_ID (R630): The bus owner assigns the signal box's MCTP Endpoint ID. -/
  | setEndpointId (dt : Nat) (eid : Byte)
  /-- GET_VERSION (R631): The SPDM responder answers GET_VERSION. -/
  | getVersion (dt : Nat)
  /-- GET_CAPABILITIES (R631): The SPDM responder answers GET_CAPABILITIES. -/
  | getCapabilities (dt : Nat)
  /-- NEGOTIATE_ALGORITHMS (R631): The SPDM responder answers NEGOTIATE_ALGORITHMS. -/
  | negotiateAlgorithms (dt : Nat) (asym : Nat) (hash : Nat)
  /-- GET_DIGESTS (R631): The SPDM responder answers GET_DIGESTS. -/
  | getDigests (dt : Nat)
  /-- GET_CERTIFICATE (R631): The SPDM responder answers GET_CERTIFICATE. -/
  | getCertificate (dt : Nat) (slot : Nat) (off : Nat) (len : Nat)
  /-- CHALLENGE (R631): The SPDM responder answers CHALLENGE. -/
  | challenge (dt : Nat) (nonce : List Byte)
  /-- GET_MEASUREMENTS (R631): The SPDM responder returns signed measurements. -/
  | getMeasurements (dt : Nat) (index : Nat) (nonce : List Byte)
  /-- GET_PDR (R642): The signal box returns PDR records. -/
  | getPdr (dt : Nat) (handle : Nat)
  /-- GET_SENSOR_READING (R642): The signal box returns a numeric sensor reading. -/
  | getSensorReading (dt : Nat) (sensor : Nat)
  /-- GET_STATE_SENSOR_READINGS (R642): The signal box returns state sensor readings. -/
  | getStateSensorReadings (dt : Nat) (sensor : Nat)
  /-- REQUEST_UPDATE (R647): A PLDM RequestUpdate starts a firmware update. -/
  | requestUpdate (dt : Nat) (maxTransfer : Nat) (components : Nat)
  /-- PASS_COMPONENT_TABLE (R647): A PLDM PassComponentTable names the components. -/
  | passComponentTable (dt : Nat) (id : Nat) (version : Nat)
  /-- UPDATE_COMPONENT (R647): A PLDM UpdateComponent starts one component's transfer. -/
  | updateComponent (dt : Nat) (id : Nat) (version : Nat) (size : Nat)
  /-- REQUEST_FIRMWARE_DATA (R647): Firmware data requested from the agent arrives and is staged in the inactive bank. -/
  | requestFirmwareData (dt : Nat) (off : Nat) (data : List Byte)
  /-- ACTIVATE_FIRMWARE (R648): ActivateFirmware activates staged components and closes debug scopes. -/
  | activateFirmware (dt : Nat)
  /-- SB_RESTART (R649): The signal box firmware runs again after a restart. -/
  | sbRestart (dt : Nat)
  /-- SB_EPOCH_LO_READ (R660): A read of SB_EPOCH_LO latches SB_EPOCH_HI. -/
  | sbEpochLoRead (dt : Nat) (p : Party)
  /-- SB_LAST_CMD_READ (R660): A read of SB_LAST_CMD latches the last command's unit and generations. -/
  | sbLastCmdRead (dt : Nat) (p : Party)
  /-- POWER_ON (R665): PWR_GOOD and SYS_RESET_N both high start a cold boot at T0. -/
  | powerOn (st : Straps) (fw : FwImages)
  /-- PWR_GOOD_FALL (R680): PWR_GOOD falls and the part resets as at power-on. -/
  | pwrGoodFall (dt : Nat)
  /-- SYS_RESET (R665): SYS_RESET_N held low resets the whole part. -/
  | sysReset (dt : Nat) (width : Nat) (st : Straps)
  /-- PERST_ASSERT (R158): PERST_N asserted resets every function and takes the link down. -/
  | perstAssert (dt : Nat)
  /-- PERST_DEASSERT (R670): PERST_N deasserted lets the endpoint leave reset and train. -/
  | perstDeassert (dt : Nat)
  /-- RAIL_UNDERVOLTAGE (R733): A monitored rail below 90% for 1 µs acts as PWR_GOOD falling. -/
  | railUndervoltage (dt : Nat) (ns : Nat)
  /-- THERMAL_TRIP (R749): A junction reaching 125 °C stops cores, enters FATAL and drives THERM_TRIP_N. -/
  | thermalTrip (dt : Nat)
  /-- BOOT_ROM_DONE (R669): The boot ROM verifies the signal box firmware and starts it, or stays in recovery. -/
  | bootRomDone (dt : Nat) (ok : Bool)
  /-- SB_FIRMWARE_DONE (R670): The signal box firmware verifies both die images and releases the PCIe endpoint. -/
  | sbFirmwareDone (dt : Nat) (ok : Bool)
  /-- SD_READY (R669): The stream die is up and register pages answer. -/
  | sdReady (dt : Nat)
  /-- DRAM_TRAINING_DONE (R669): The 16 LPDDR5X channels finish training and the scrub begins. -/
  | dramTrainingDone (dt : Nat) (failed : Fin 65536)
  /-- SCRUB_DONE (R545): The boot scrub ends and SCRUB_DONE is set. -/
  | scrubDone (dt : Nat)
  /-- CD_READY (R669): The compute die is up with its SRAM zeroed. -/
  | cdReady (dt : Nat)
  /-- REGISTER_WRITE (R697): A write to a register with no row of its own is checked against reach, shape and qualifiers and applied or ignored. -/
  | registerWrite (dt : Nat) (p : Party) (w : BusWrite)
  /-- INT_STAT_CLEAR (R22): A W1C write clears INT_STAT bits written as 1. -/
  | intStatClear (dt : Nat) (p : Party) (addr : Nat) (value : Nat)
  /-- INT_FORCE (R723): An INT_FORCE write sets INT_STAT bits as if their events occurred. -/
  | intForce (dt : Nat) (p : Party) (addr : Nat) (value : Nat)
  /-- SHADOW_HOLD (R702): Setting or clearing HOLD holds or releases the owner's pending ticked writes. -/
  | shadowHold (dt : Nat) (p : Party) (addr : Nat) (hold : Bool)
  /-- SHADOW_APPLY (R703): APPLY releases the owner's pending writes at the next boundary. -/
  | shadowApply (dt : Nat) (p : Party) (addr : Nat)
  /-- SHADOW_ABANDON (R704): ABANDON discards the owner's pending writes at once. -/
  | shadowAbandon (dt : Nat) (p : Party) (addr : Nat)
  /-- XFER_SEND_COMPLETE (R486): The source's reads of a state transfer end, either with every XFER_DATA sent and the page awaiting XFER_ACK, or with a source read error that fails the transfer with FETCH. -/
  | xferSendComplete (dt : Nat) (t : Fin 64) (data : Option (List Byte))
  /-- CD_BRING_UP_FAILED (R672): Compute-die bring-up fails because the couch link does not train or the bound is exceeded, and the part enters FATAL with PKG_BOOT_ERR COUCH or CD_INIT. -/
  | cdBringUpFailed (dt : Nat) (couch : Bool)
  /-- DYNAMIC_ADDRESS_ASSIGNMENT (R676): On I3C the bus owner assigns the signal box a dynamic address, reported in SB_EID.I3C_ADDR. -/
  | dynamicAddressAssignment (dt : Nat) (addr : Fin 128)
  /-- EVENT_RECEIVER_REGISTRATION (R640): The bus owner registers the PLDM event receiver to which the signal box sends command outcomes and platform events. -/
  | eventReceiverRegistration (dt : Nat) (eid : Byte)
deriving DecidableEq, Repr

end Sys2Proof
end

