-- ==== Sys2Proof/Machine/Maps.lean ====
section
/-! DEFINITION. Machine/Maps.lean: sparse tables keyed by a number, and byte memories in canonical form. -/
namespace Sys2Proof.Machine

/-- A sparse table: what is listed, keyed by number; what is not listed has the table's default. -/
abbrev Map (α : Type) := List (Nat × α)

/-- The entry at `k`. -/
def Map.find {α : Type} : Map α → Nat → Option α
  | [], _ => none
  | (a, v) :: m, k => if a = k then some v else Map.find m k

/-- The entry at `k`, or the default `d`. -/
def Map.get {α : Type} (m : Map α) (k : Nat) (d : α) : α := (m.find k).getD d

/-- Write `v` at `k`, keeping keys in rising order. -/
def Map.put {α : Type} (k : Nat) (v : α) : Map α → Map α
  | [] => [(k, v)]
  | (a, b) :: m =>
    if k < a then (k, v) :: (a, b) :: m
    else if k = a then (k, v) :: m
    else (a, b) :: Map.put k v m

/-- Remove the entry at `k`. -/
def Map.del {α : Type} (k : Nat) : Map α → Map α
  | [] => []
  | (a, b) :: m => if a = k then m else (a, b) :: Map.del k m

/-- Change the entry at `k` (the default where none is listed). -/
def Map.upd {α : Type} (m : Map α) (k : Nat) (d : α) (f : α → α) : Map α := m.put k (f (m.get k d))

/-- The keys in rising order, none listed twice. -/
def Map.sorted {α : Type} : Map α → Bool
  | [] => true
  | [_] => true
  | (a, _) :: (b, w) :: m => a < b && Map.sorted ((b, w) :: m)

/-- A byte memory. An address that is not listed reads 0: the memories are zeroed before use (R545, R561). -/
abbrev Memory := List Host.Cell

/-- The canonical form: addresses strictly rising, no entry equal to what an unlisted address reads. -/
def Memory.wf (m : Memory) : Bool := Map.sorted m && m.all (fun c => c.2 != 0)

/-- The byte at `a`. -/
def Memory.rd (m : Memory) (a : Nat) : Byte := Map.get m a 0

/-- Store one byte. Storing 0 removes the entry. -/
def Memory.wr (a : Nat) (b : Byte) (m : Memory) : Memory := if b = 0 then Map.del a m else Map.put a b m

/-- `n` bytes from `a`. -/
def Memory.rdBytes (m : Memory) (a : Nat) : Nat → List Byte
  | 0 => []
  | n + 1 => m.rd a :: Memory.rdBytes m (a + 1) n

/-- Store bytes from `a`. -/
def Memory.wrBytes (m : Memory) (a : Nat) : List Byte → Memory
  | [] => m
  | b :: l => Memory.wrBytes (m.wr a b) (a + 1) l

/-- Zero `n` bytes from `a`. -/
def Memory.zero (m : Memory) (a n : Nat) : Memory := m.filter (fun c => !(a ≤ c.1 && c.1 < a + n))

/-- Replace `n` bytes from `d` by the `n` bytes from `a`. -/
def Memory.copy (m : Memory) (a d n : Nat) : Memory := (m.zero d n).wrBytes d (m.rdBytes a n)

end Sys2Proof.Machine
end

