-- ==== Sys2Proof/Machine/Bits.lean ====
section
/-! DEFINITION. Machine/Bits.lean: byte order, signed fields, rounding and the checksums of 00_scope.md (R12, R15, R16). -/
namespace Sys2Proof.Machine

/-- Byte `i` of a record; a byte beyond its end is 0. -/
def byteAt (l : List Byte) (i : Nat) : Nat := (l.getD i 0).toNat

/-- The little-endian value of `n` bytes at `off` (R12). -/
def le (l : List Byte) (off : Nat) : Nat → Nat
  | 0 => 0
  | n + 1 => byteAt l off + 256 * le l (off + 1) n

/-- The `n` little-endian bytes of `v` (R12). -/
def toLe : Nat → Nat → List Byte
  | 0, _ => []
  | n + 1, v => BitVec.ofNat 8 v :: toLe n (v / 256)

/-- Bits `[lo + w − 1 : lo]` of `v`. -/
def bits (v lo w : Nat) : Nat := v / two lo % two w

/-- Bit `i` of `v`. -/
def bit (v i : Nat) : Bool := v / two i % 2 == 1

/-- 1 for true, 0 for false. -/
def b2n (b : Bool) : Nat := if b then 1 else 0

/-- The value of a `w`-bit two's complement field (R13). -/
def toS (w v : Nat) : Int := if 2 * (v % two w) < two w then (v % two w : Int) else (v % two w : Int) - (two w : Int)

/-- The `w`-bit two's complement field holding `x`. -/
def ofS (w : Nat) (x : Int) : Nat := (x % (two w : Int)).toNat

/-- `a ÷ b` rounded to the nearest integer, a tie to the even one (R16). -/
def rneDiv (a : Int) (b : Nat) : Int :=
  let q := a / (b : Int)
  let r := 2 * (a % (b : Int))
  if r < (b : Int) then q else if (b : Int) < r then q + 1 else if q % 2 = 0 then q else q + 1

/-- v ÷ 2ⁿ rounded by R16 (rshift of R253). -/
def rshift (v : Int) (n : Nat) : Int := rneDiv v (two n)

/-- Saturation to a signed `w`-bit value. -/
def satS (w : Nat) (x : Int) : Int := max (-(two (w - 1) : Int)) (min ((two (w - 1) : Int) - 1) x)

/-- Limit `x` to `lo … hi`. -/
def clampI (lo hi x : Int) : Int := max lo (min hi x)

/-- ceil(a ÷ b). -/
def ceilDiv (a b : Nat) : Nat := (a + b - 1) / b

/-- Round up to a multiple of `b`. -/
def roundUp (a b : Nat) : Nat := ceilDiv a b * b

/-- The little-endian record of a list of (size, value) fields, in order. -/
def record : List (Nat × Nat) → List Byte
  | [] => []
  | (n, v) :: l => toLe n v ++ record l

/-- `n` zero bytes. -/
def zeros (n : Nat) : List Byte := List.replicate n 0

/-- `l` cut or zero-filled to `n` bytes. -/
def fit (n : Nat) (l : List Byte) : List Byte := (l ++ zeros (n - l.length)).take n

/-- Bytes `off … off + n − 1`; bytes beyond the end are 0. -/
def slice (l : List Byte) (off n : Nat) : List Byte := fit n (l.drop off)

/-- `l` with the bytes at `off` replaced by `d`. -/
def patch (l : List Byte) (off : Nat) (d : List Byte) : List Byte := l.take off ++ d ++ l.drop (off + d.length)

/-- The numbers 0 … n − 1 whose bit is set in `m`. -/
def maskList (m n : Nat) : List Nat := (List.range n).filter (fun i => bit m i)

/-- The mask of a list of numbers. -/
def maskOf (l : List Nat) : Nat := l.foldl (fun a i => if bit a i then a else a + two i) 0

/-- A CRC over bytes, `f` one byte of it; the match makes each byte's value a numeral before the next is read. -/
def crcFold (f : Nat → Byte → Nat) : List Byte → Nat → Nat
  | [], c => c
  | b :: l, c =>
    match f c b with
    | 0 => crcFold f l 0
    | n + 1 => crcFold f l (n + 1)

/-- One bit of the reflected CRC-32 of R15. -/
def crc32Bit (c : Nat) : Nat := if c % 2 = 1 then (c / 2) ^^^ 0xEDB88320 else c / 2

/-- One byte of the reflected CRC-32 of R15. -/
def crc32Byte (c : Nat) (b : Byte) : Nat :=
  crc32Bit (crc32Bit (crc32Bit (crc32Bit (crc32Bit (crc32Bit (crc32Bit (crc32Bit (c ^^^ b.toNat))))))))

/-- CRC-32 (IEEE 802.3) of R15. -/
def crc32 (l : List Byte) : Nat := crcFold crc32Byte l 0xFFFFFFFF ^^^ 0xFFFFFFFF

/-- CRC-32 of a record with its 4-byte CRC field at `off` taken as zero (R59, R110, R260). -/
def crcOk (l : List Byte) (off : Nat) : Bool := crc32 (patch l off (zeros 4)) == le l off 4

/-- One bit of the CRC-64 (ECMA) of R15, not reflected. -/
def crc64Bit (c : Nat) : Nat :=
  if c / two 63 % 2 = 1 then ((c * 2) % two 64) ^^^ 0x42F0E1EBA9EA3693 else (c * 2) % two 64

/-- One byte of the CRC-64 of R15. -/
def crc64Byte (c : Nat) (b : Byte) : Nat :=
  crc64Bit (crc64Bit (crc64Bit (crc64Bit (crc64Bit (crc64Bit (crc64Bit (crc64Bit (c ^^^ (b.toNat * two 56)))))))))

/-- CRC-64 (ECMA-182) of R15. -/
def crc64 (l : List Byte) : Nat := crcFold crc64Byte l 0

end Sys2Proof.Machine
end

