-- ==== Sys2Proof/Machine/Float.lean ====
section
/-! DEFINITION. Machine/Float.lean: IEEE 754 binary values computed exactly and rounded once to nearest, ties to even (R14, R16,
R314, R318, R422). -/
namespace Sys2Proof.Machine

/-- A binary interchange format: exponent bits and fraction bits (R14). -/
structure Fmt where
  eb : Nat
  mb : Nat
deriving DecidableEq, Repr

def fp32 : Fmt := ⟨8, 23⟩
def bf16 : Fmt := ⟨8, 7⟩
def fp16 : Fmt := ⟨5, 10⟩
def fp64 : Fmt := ⟨11, 52⟩

/-- A floating-point value: NaN, a signed infinity, or (−1)ˢ × m × 2ᵉ with m = 0 for the signed zeros. -/
inductive Fv where
  | nan
  | inf (neg : Bool)
  | fin (neg : Bool) (m : Nat) (e : Int)
deriving DecidableEq, Repr

/-- Largest exponent field. -/
def Fmt.maxE (f : Fmt) : Nat := two f.eb - 1

/-- Exponent of the unit in the last place of a subnormal. -/
def Fmt.minQ (f : Fmt) : Int := 2 - (two (f.eb - 1) : Int) - (f.mb : Int)

/-- The value of a bit pattern. -/
def Fmt.dec (f : Fmt) (x : Nat) : Fv :=
  let s := bit x (f.eb + f.mb)
  let e := bits x f.mb f.eb
  let m := bits x 0 f.mb
  if e = f.maxE then (if m = 0 then .inf s else .nan)
  else if e = 0 then .fin s m f.minQ
  else .fin s (m + two f.mb) (f.minQ + (e : Int) - 1)

/-- The canonical quiet NaN (R314). -/
def Fmt.qnan (f : Fmt) : Nat := f.maxE * two f.mb + two (f.mb - 1)

/-- A signed infinity. -/
def Fmt.infBits (f : Fmt) (neg : Bool) : Nat := b2n neg * two (f.eb + f.mb) + f.maxE * two f.mb

/-- m ÷ 2ⁿ rounded to nearest, ties to even; n may be negative. -/
def shiftRne (m : Nat) (n : Int) : Nat :=
  if n ≤ 0 then m * two (-n).toNat else (rneDiv (m : Int) (two n.toNat)).toNat

/-- Number of significant bits of `m`. -/
def bitLen (m : Nat) : Nat := if m = 0 then 0 else Nat.log2 m + 1

/-- The bit pattern nearest a value (R16); beyond the largest finite value it is an infinity (R314). -/
def Fmt.enc (f : Fmt) : Fv → Nat
  | .nan => f.qnan
  | .inf s => f.infBits s
  | .fin s m e =>
    let q := max (e + (bitLen m : Int) - (f.mb : Int) - 1) f.minQ
    let r := shiftRne m (q - e)
    let x := if r < two f.mb then r else ((q - f.minQ).toNat + 1) * two f.mb + (r - two f.mb)
    if f.maxE * two f.mb ≤ x then f.infBits s else b2n s * two (f.eb + f.mb) + x

/-- (−1)ˢ × m as an integer. -/
def signed (s : Bool) (m : Nat) : Int := if s then -(m : Int) else (m : Int)

/-- An integer multiple of 2ᵉ as a value; a zero takes the given sign. -/
def Fv.ofInt (zneg : Bool) (v : Int) (e : Int) : Fv := if v = 0 then .fin zneg 0 e else .fin (v < 0) v.natAbs e

/-- The sign of a value. -/
def Fv.neg? : Fv → Bool
  | .nan => false
  | .inf s => s
  | .fin s _ _ => s

/-- The value is a zero. -/
def Fv.isZero : Fv → Bool
  | .fin _ m _ => m == 0
  | .nan | .inf _ => false

/-- The value is finite. -/
def Fv.isFinite : Fv → Bool
  | .fin _ _ _ => true
  | .nan | .inf _ => false

/-- Negation. -/
def Fv.negate : Fv → Fv
  | .nan => .nan
  | .inf s => .inf (!s)
  | .fin s m e => .fin (!s) m e

/-- Magnitude. -/
def Fv.abs : Fv → Fv
  | .nan => .nan
  | .inf _ => .inf false
  | .fin _ m e => .fin false m e

/-- The exact product. -/
def Fv.mul : Fv → Fv → Fv
  | .nan, _ | _, .nan => .nan
  | .inf s, y => if y.isZero then .nan else .inf (s != y.neg?)
  | x, .inf s => if x.isZero then .nan else .inf (s != x.neg?)
  | .fin s m e, .fin t n g => .fin (s != t) (m * n) (e + g)

/-- The exact sum; an exact zero is +0 unless both are −0 (R318). -/
def Fv.add : Fv → Fv → Fv
  | .nan, _ | _, .nan => .nan
  | .inf s, .inf t => if s = t then .inf s else .nan
  | .inf s, _ => .inf s
  | _, .inf t => .inf t
  | .fin s m e, .fin t n g =>
    let q := min e g
    Fv.ofInt (s && t) (signed s (m * two (e - q).toNat) + signed t (n * two (g - q).toNat)) q

/-- The difference. -/
def Fv.sub (x y : Fv) : Fv := x.add y.negate

/-- The quotient with enough bits for one rounding to a format of at most `p` fraction bits. -/
def Fv.div (p : Nat) : Fv → Fv → Fv
  | .nan, _ | _, .nan => .nan
  | .inf _, .inf _ => .nan
  | .inf s, y => .inf (s != y.neg?)
  | .fin s _ _, .inf t => .fin (s != t) 0 0
  | .fin s m e, .fin t n g =>
    if n = 0 then (if m = 0 then .nan else .inf (s != t))
    else
      let k := p + 3 + bitLen n
      let q := m * two k / n
      .fin (s != t) (2 * q + (if m * two k % n = 0 then 0 else 1)) (e - g - (k : Int) - 1)

/-- Bits `n − 1 … 0` of the integer square root of `v`, above `r`. -/
def isqrtGo (v : Nat) : Nat → Nat → Nat
  | 0, r => r
  | n + 1, r => let t := r + two n; isqrtGo v n (if t * t ≤ v then t else r)

/-- floor(√v). -/
def isqrt (v : Nat) : Nat := isqrtGo v (bitLen v / 2 + 1) 0

/-- The square root with enough bits for one rounding to a format of at most `p` fraction bits. -/
def Fv.sqrt (p : Nat) : Fv → Fv
  | .nan => .nan
  | .inf s => if s then .nan else .inf false
  | .fin s m e =>
    if m = 0 then .fin s 0 e
    else if s then .nan
    else
      let k0 := 2 * (p + 3)
      let k := if (e - (k0 : Int)) % 2 = 0 then k0 else k0 + 1
      let v := m * two k
      let r := isqrt v
      .fin false (2 * r + (if r * r = v then 0 else 1)) ((e - (k : Int)) / 2 - 1)

/-- x < y; false when either is NaN. -/
def Fv.lt : Fv → Fv → Bool
  | .nan, _ | _, .nan => false
  | .inf s, .inf t => s && !t
  | .inf s, _ => s
  | _, .inf t => !t
  | .fin s m e, .fin t n g =>
    let q := min e g
    decide (signed s (m * two (e - q).toNat) < signed t (n * two (g - q).toNat))

/-- x ≤ y; false when either is NaN. -/
def Fv.le (x y : Fv) : Bool := x.lt y || (match x, y with
  | .nan, _ | _, .nan => false
  | _, _ => !y.lt x)

/-- The larger value: the non-NaN operand when one is NaN, and −0 below +0 (R318). -/
def Fv.max (x y : Fv) : Fv :=
  match x, y with
  | .nan, y => y
  | x, .nan => x
  | x, y => if x.lt y then y else if y.lt x then x else if x.neg? then y else x

/-- The smaller value, by the same rules. -/
def Fv.min (x y : Fv) : Fv :=
  match x, y with
  | .nan, y => y
  | x, .nan => x
  | x, y => if x.lt y then x else if y.lt x then y else if x.neg? then x else y

/-- The value rounded to an integer by R16; 0 for a value that is not finite. -/
def Fv.toInt : Fv → Int
  | .nan | .inf _ => 0
  | .fin s m e => signed s (shiftRne m (-e))

/-- floor of a finite value. -/
def Fv.floor : Fv → Int
  | .nan | .inf _ => 0
  | .fin s m e => if 0 ≤ e then signed s (m * two e.toNat) else (signed s m) / (two (-e).toNat : Int)

/-- An integer over a power of two, q × 2⁻ᶠ. -/
def Fv.fixed (q : Int) (f : Nat) : Fv := Fv.ofInt false q (-(f : Int))

/-- Correctly rounded operations on the bit patterns of a format (R16, R318, R320, R422). -/
def Fmt.addB (f : Fmt) (x y : Nat) : Nat := f.enc ((f.dec x).add (f.dec y))
def Fmt.subB (f : Fmt) (x y : Nat) : Nat := f.enc ((f.dec x).sub (f.dec y))
def Fmt.mulB (f : Fmt) (x y : Nat) : Nat := f.enc ((f.dec x).mul (f.dec y))
def Fmt.fmaB (f : Fmt) (x y z : Nat) : Nat := f.enc (((f.dec x).mul (f.dec y)).add (f.dec z))
def Fmt.divB (f : Fmt) (x y : Nat) : Nat := f.enc ((f.dec x).div f.mb (f.dec y))
def Fmt.sqrtB (f : Fmt) (x : Nat) : Nat := f.enc ((f.dec x).sqrt f.mb)

/-- Conversion between formats, rounded once (R314). -/
def Fmt.convert (f g : Fmt) (x : Nat) : Nat := g.enc (f.dec x)

/-- A pattern of `f` is NaN or infinite. -/
def Fmt.special (f : Fmt) (x : Nat) : Bool := bits x f.mb f.eb == f.maxE

/-- A pattern of `f` is a NaN. -/
def Fmt.isNan (f : Fmt) (x : Nat) : Bool := f.special x && bits x 0 f.mb != 0

end Sys2Proof.Machine
end

