-- ==== Sys2Proof/Machine/Real.lean ====
section
/-! DEFINITION. Machine/Real.lean: the transcendental functions of R179, R192 and R320, computed in fixed point with 192
fraction bits, far below the last place of any format they are rounded to. -/
namespace Sys2Proof.Machine

/-- 2¹⁹², the unit of the fixed-point values of this file. -/
def qOne : Int := 6277101735386680763835789423207666416102355444464034512896

/-- π, ln 2 and ln 10 times 2¹⁹², rounded down. -/
def qPi : Int := 19720096697726538562396133364228268891463450865190089732560
def qLn2 : Int := 4350955369971217654477563090224794165364344896676135745069
def qLn10 : Int := 14453560883108425870374435737727394665043423914827363902522

/-- The product of two fixed-point values. -/
def qMul (a b : Int) : Int := a * b / qOne

/-- The quotient of two fixed-point values. -/
def qDiv (a b : Int) : Int := a * qOne / b

/-- Terms of the series 1 − x²/2! + x⁴/4! …, from term `t` = ± xᵏ/k!; with k starting at 1 and t = x it is the sine's. -/
def qTrig (x2 : Int) : Nat → Nat → Int → Int
  | 0, _, t => t
  | n + 1, k, t => t + qTrig x2 n (k + 2) (-(qMul t x2) / (((k + 1) * (k + 2) : Nat) : Int))

/-- cos and sin of π × a ÷ b. -/
def cosPi (a : Int) (b : Nat) : Int :=
  let m := a % (2 * (b : Int))
  let r := if (b : Int) < m then m - 2 * (b : Int) else m
  let x := r * qPi / (b : Int)
  qTrig (qMul x x) 40 0 qOne
def sinPi (a : Int) (b : Nat) : Int :=
  let m := a % (2 * (b : Int))
  let r := if (b : Int) < m then m - 2 * (b : Int) else m
  let x := r * qPi / (b : Int)
  qTrig (qMul x x) 40 1 x

/-- Terms of the exponential series from term `t` = xᵏ/k!. -/
def qExpGo (x : Int) : Nat → Nat → Int → Int
  | 0, _, t => t
  | n + 1, k, t => t + qExpGo x n (k + 1) (qMul t x / ((k + 1 : Nat) : Int))

/-- eˣ of a fixed-point value, as a binary value. -/
def qExp (x : Int) : Fv :=
  let k := x / qLn2
  .fin false (qExpGo (x - k * qLn2) 50 0 qOne).toNat (k - 192)

/-- Terms z²ʲ⁺¹ ÷ (2j + 1) of artanh. -/
def qArtanhGo (z2 : Int) : Nat → Nat → Int → Int
  | 0, k, t => t / (k : Int)
  | n + 1, k, t => t / (k : Int) + qArtanhGo z2 n (k + 2) (qMul t z2)

/-- The natural logarithm of m × 2ᵉ, m > 0, in fixed point. -/
def qLn (m : Nat) (e : Int) : Int :=
  let b := bitLen m - 1
  let y := (m : Int) * qOne / (two b : Int)
  let z := qDiv (y - qOne) (y + qOne)
  (e + (b : Int)) * qLn2 + 2 * qArtanhGo (qMul z z) 70 1 z

/-- A binary value in fixed point, cut below 2⁻¹⁹²; 0 for a value that is not finite. -/
def Fv.toQ : Fv → Int
  | .nan | .inf _ => 0
  | .fin s m e => if -192 ≤ e then signed s (m * two (e + 192).toNat) else signed s (m / two (-e - 192).toNat)

/-- A fixed-point value as a binary value. -/
def qFv (x : Int) : Fv := Fv.ofInt false x (-192)

end Sys2Proof.Machine
end

