-- ==== Sys2Proof/Config.lean ====
section
/-! DEFINITION. Config.lean: what the part's fuses fix, and the values the spec leaves open (free values, no body). -/
namespace Sys2Proof.Config

/-- PKG_DEVICE.DEVICE, fused (R724). -/
opaque device : Nat
/-- PKG_ORDER.CODE, fused (R724): true is NS-1-B0-64. -/
opaque order64 : Bool
/-- LPDDR5X capacity in MiB (R538, R724). -/
def dramMib : Nat := if order64 then 61440 else 122880
/-- Random and cryptographic values the part draws; the argument is the draw's number (R614, R631). -/
opaque random : Nat → Nat
/-- The capture uncertainty of a PPS edge, −2 to +2 ns, as 0 to 4; the argument is the draw's number (R737). -/
opaque captureErr : Nat → Fin 5

/-- How far a feature lies from its reference value, in 10⁻⁹, before it is held to ±0.001; the argument is the draw's number (R193). -/
opaque featureDelta : Nat → Int
/-- The LPDDR5X channel that serves an address (R558). -/
opaque dramChannel : Nat → Fin 16
/-- The item that a word of a protected store belongs to (R536): 4 and 8 a slot, 5 the key of a row of the prefetch store, 6 the key of
a packet of the reorder store; the arguments are the store and the word's address. -/
opaque storeItem : Nat → Nat → Nat
/-- The data bit an injected error flips (R572); the argument is the draw's number. -/
opaque flippedBit : Nat → Nat

/-- A byte of the context a suspended run saves (R272); the arguments are the draw's number and the byte's place. -/
opaque contextByte : Nat → Nat → BitVec 8

/-- An output the spec states no value for (R313); the arguments are the draw's number and the element. -/
opaque freeWord : Nat → Nat → BitVec 64
/-- Where within its stated error a vector exponential (0) or logarithm (1) of an fp32 operand lies, in steps of one pattern (R320). -/
opaque vecUlp : Nat → Nat → Fin 5
/-- What the vector unit gives for an operand whose result the spec does not state: operation, formats (source + 4 × destination) and
operand pattern (R314, R320). -/
opaque vecOpen : Nat → Nat → Nat → BitVec 32

/-- A received flit's ACK makes this end resend its replay buffer (R463); the argument is the draw's number. -/
opaque flitReplay : Nat → Bool

/-- A schedule's FACTOR section holds only valid micro-operations that address the handle's store; its encoding is the toolchain's
(R425, R427). -/
opaque factorOk : List (BitVec 8) → Bool
/-- The value a schedule's FACTOR section computes at one of its places from the given values, and the saturations of a phase from the values
it starts from: the order of products, quotients and reductions, and every intermediate's fraction width, are FACTOR's (R423, R425, R434). -/
opaque factorEval : List (BitVec 8) → Nat → List Nat → Nat
opaque factorSat : List (BitVec 8) → List Nat → Nat
/-- The row eliminated at a step of the compiled order, and the fraction width FACTOR gives an intermediate (R423, R425, R437). -/
opaque elimRow : List (BitVec 8) → Nat → Nat
opaque factorFrac : List (BitVec 8) → Nat → Nat

/-- Whether the governor's solve ends OPTIMAL (R518, R520); the argument is the draw's number. -/
opaque governorOptimal : Nat → Bool
/-- Allowances of a plan whose temperature rows bind (R517); the arguments are the draw's number and 60 × (tick − 1) + core − 4. -/
opaque governorPlan : Nat → Nat → Nat

/-- The 64-bit word of a row's result data that a word of the result store holds (R569); the argument is its address. -/
opaque resultWord : Nat → Nat

/-- SHA-384 of a byte string, as a 48-byte number, its first byte in bits [7:0] (R610, R611; FIPS 180-4). -/
opaque sha384 : List (BitVec 8) → BitVec 384
/-- An ECDSA P-384 signature verifies: key, record, signature (R610, R613, R615; FIPS 186-5). -/
opaque ecdsaOk : List (BitVec 8) → List (BitVec 8) → List (BitVec 8) → Bool

/-- A signature or an opaque field that the part's identity key makes (R631); the argument is the draw's number. -/
opaque signature : Nat → List (BitVec 8)
/-- The certificate chain of slot 0 (R631). -/
opaque certChain : List (BitVec 8)
/-- CTExponent of the SPDM CAPABILITIES answer (R631). -/
opaque spdmTimeout : BitVec 8
/-- The measurement of the fuse state (R611): the three anti-rollback counts, the slots' states, the four keys. -/
opaque fuseMeasurement : List Nat → Nat → List (List (BitVec 8)) → List (BitVec 8)
/-- A record of the PDR repository, by record handle; none: no such record (R642). -/
opaque pdr : Nat → Option (List (BitVec 8))
/-- The signature of a firmware image of a component verifies; the image is flagged to commit (R610, R648). -/
opaque imageOk : Nat → List (BitVec 8) → Bool
opaque imageCommits : Nat → List (BitVec 8) → Bool
/-- Signal box firmware just activated verifies as it starts (R648); the argument is the draw's number. -/
opaque bootOk : Nat → Bool

/-- A reset pulse of a length between the two filter limits causes the reset (R665); the argument is the draw's number. -/
opaque pulseResets : Nat → Bool

end Sys2Proof.Config
end

