-- ==== Sys2Proof/Machine/Page.lean ====
section
/-! DEFINITION. Machine/Page.lean: the register pages of BAR0 and the shape of a register field (R691, R707, 18_register_map.md). -/
namespace Sys2Proof.Machine

/-- The kinds of register page (R707). -/
inductive Page where
  | pkgi | ht | tt | pkgb | str | fe | apt | ixp | core | ring | prog | felt | gx | sol | blg | blp | cal
  | pwrg | pwrt | memg | memt | ledg | ledt | isog | isot | dbgg | dbgw | blt | sb
deriving DecidableEq, Repr

/-- Every page kind, in address order (R707). -/
def Page.all : List Page :=
  [.pkgi, .ht, .tt, .pkgb, .str, .fe, .apt, .ixp, .core, .ring, .prog, .felt, .gx, .sol, .blg, .blp, .cal,
   .pwrg, .pwrt, .memg, .memt, .ledg, .ledt, .isog, .isot, .dbgg, .dbgw, .blt, .sb]

/-- BAR0 base of instance 0 (R707). -/
def Page.base : Page → Nat
  | .pkgi => 0x0000000 | .ht => 0x0001000 | .tt => 0x0002000 | .pkgb => 0x0003000
  | .str => 0x0010000 | .fe => 0x0050000 | .apt => 0x0090000 | .ixp => 0x0098000 | .core => 0x00A0000
  | .ring => 0x0100000 | .prog => 0x0300000 | .felt => 0x0340000 | .gx => 0x0380000 | .sol => 0x03C0000
  | .blg => 0x0400000 | .blp => 0x0408000 | .cal => 0x0410000 | .pwrg => 0x0480000 | .pwrt => 0x0490000
  | .memg => 0x0500000 | .memt => 0x0510000 | .ledg => 0x0580000 | .ledt => 0x0590000
  | .isog => 0x0600000 | .isot => 0x0610000 | .dbgg => 0x0680000 | .dbgw => 0x0681000
  | .blt => 0x06C0000 | .sb => 0x0700000

/-- How many instances of the page there are (R707). -/
def Page.count : Page → Nat
  | .str | .fe | .core | .prog | .felt | .gx | .sol | .cal | .pwrt | .memt | .ledt | .isot | .blt => 64
  | .apt | .blp => 8
  | .ixp => 2
  | .ring => 512
  | .pkgi | .ht | .tt | .pkgb | .blg | .pwrg | .memg | .ledg | .isog | .dbgg | .dbgw | .sb => 1

/-- The block type in PAGE_ID (R707). -/
def Page.type : Page → Nat
  | .pkgi => 0x1D | .ht => 0x01 | .tt => 0x02 | .pkgb => 0x1C | .str => 0x03 | .fe => 0x05 | .apt => 0x06
  | .ixp => 0x07 | .core => 0x08 | .ring => 0x04 | .prog => 0x09 | .felt => 0x0A | .gx => 0x0B | .sol => 0x0C
  | .blg => 0x0D | .blp => 0x0E | .cal => 0x0F | .pwrg => 0x11 | .pwrt => 0x12 | .memg => 0x13 | .memt => 0x14
  | .ledg => 0x15 | .ledt => 0x16 | .isog => 0x17 | .isot => 0x18 | .dbgg => 0x19 | .dbgw => 0x1A
  | .blt => 0x10 | .sb => 0x1B

/-- The pages with one instance per tenancy, whose TENANCY register holds the instance number (R709, R723). -/
def Page.perTenancy : Page → Bool
  | .str | .fe | .prog | .felt | .gx | .sol | .cal | .pwrt | .memt | .ledt | .isot | .blt => true
  | .pkgi | .ht | .tt | .pkgb | .apt | .ixp | .core | .ring | .blg | .blp | .pwrg | .memg | .ledg | .isog
  | .dbgg | .dbgw | .sb => false

/-- The pages bound to a tenancy by their own TENANCY register (R130, R242). -/
def Page.bound : Page → Bool
  | .ring | .apt | .ixp => true
  | .pkgi | .ht | .tt | .pkgb | .str | .fe | .core | .prog | .felt | .gx | .sol | .blg | .blp | .cal
  | .pwrg | .pwrt | .memg | .memt | .ledg | .ledt | .isog | .isot | .dbgg | .dbgw | .blt | .sb => false

/-- The access types of R22. -/
inductive Access where
  | ro | rw | rwt | w1c | w1s | rol
deriving DecidableEq, Repr

/-- Who may write a field (the qualifiers of R697): any party that reaches the page, function 0, the signal box. -/
inductive Owner where
  | page | fn0 | sb
deriving DecidableEq, Repr

/-- A field: its page kind, the offset of its register, its lowest bit and its width. -/
structure Fld where
  page : Page
  off : Nat
  lo : Nat
  w : Nat
deriving DecidableEq, Repr

/-- One row of a field table: `n` consecutive registers hold the field; `lim` is the range the table states. -/
structure FieldRow where
  fld : Fld
  acc : Access
  n : Nat := 1
  reset : Nat := 0
  reset0 : Option Nat := none
  lim : Option (Nat × Nat) := none
  own : Owner := .page
deriving DecidableEq, Repr

/-- BAR0 address of the register of `f` in instance `i`, element `j` of a register array (R707). -/
def Fld.addr (f : Fld) (i j : Nat) : Nat := f.page.base + i * 0x1000 + f.off + 4 * j

/-- The key under which the register file holds the field: 32 × the register's address + the field's lowest bit. -/
def Fld.key (f : Fld) (i j : Nat) : Nat := f.addr i j * 32 + f.lo

end Sys2Proof.Machine
end

