-- ==== Sys2Proof/Machine/RegTable.lean ====
section
/-! DEFINITION. Machine/RegTable.lean: every field of every register page, written from the field tables of spec/
(one row per field: its page, offset, bits, access type, reset value, stated range and who may write it). -/
namespace Sys2Proof.Machine

/-! ### PKG_ identity page (18_register_map.md) -/
def PKG_DEVICE : Fld := ⟨.pkgi, 0x100, 0, 32⟩
def PKG_STEPPING_DIGIT : Fld := ⟨.pkgi, 0x104, 0, 4⟩
def PKG_STEPPING_LETTER : Fld := ⟨.pkgi, 0x104, 4, 4⟩
def PKG_ORDER : Fld := ⟨.pkgi, 0x108, 0, 1⟩
def PKG_DRAM_MIB : Fld := ⟨.pkgi, 0x10c, 0, 18⟩
def PKG_SELF_FUNCTION : Fld := ⟨.pkgi, 0x110, 0, 6⟩
def PKG_SELF_SB : Fld := ⟨.pkgi, 0x110, 6, 1⟩

/-! ### HT_ page (01_timetable.md) -/
def HT_PPS_EDGES : Fld := ⟨.ht, 0x28, 0, 32⟩
def HT_PPS_SPURIOUS : Fld := ⟨.ht, 0x2c, 0, 32⟩
def HT_PPS_MISSING : Fld := ⟨.ht, 0x30, 0, 32⟩
def HT_TOD_REFUSED : Fld := ⟨.ht, 0x34, 0, 32⟩
def HT_TOD_CONFIRMS : Fld := ⟨.ht, 0x38, 0, 32⟩
def HT_LOCK_LOSSES : Fld := ⟨.ht, 0x3c, 0, 32⟩
def HT_CTL_PPS_EN : Fld := ⟨.ht, 0x8, 0, 1⟩
def HT_CTL_PPS_FALL : Fld := ⟨.ht, 0x8, 1, 1⟩
def HT_STAT_STATE : Fld := ⟨.ht, 0xc, 0, 3⟩
def HT_STAT_EVER_LOCKED : Fld := ⟨.ht, 0xc, 3, 1⟩
def HT_STAT_TOD_PENDING : Fld := ⟨.ht, 0xc, 4, 1⟩
def HT_STAT_ARM_SOURCE : Fld := ⟨.ht, 0xc, 5, 1⟩
def HT_STAT_SLEWING : Fld := ⟨.ht, 0xc, 6, 1⟩
def HT_STAT_REF_OK : Fld := ⟨.ht, 0xc, 7, 1⟩
def HT_INT_STAT_LOCKED : Fld := ⟨.ht, 0x10, 0, 1⟩
def HT_INT_STAT_LOCK_LOST : Fld := ⟨.ht, 0x10, 1, 1⟩
def HT_INT_STAT_HOLDOVER : Fld := ⟨.ht, 0x10, 2, 1⟩
def HT_INT_STAT_FREERUN : Fld := ⟨.ht, 0x10, 3, 1⟩
def HT_INT_STAT_PPS_SPURIOUS : Fld := ⟨.ht, 0x10, 4, 1⟩
def HT_INT_STAT_TOD_APPLIED : Fld := ⟨.ht, 0x10, 5, 1⟩
def HT_INT_STAT_TOD_REFUSED : Fld := ⟨.ht, 0x10, 6, 1⟩
def HT_INT_STAT_TOD_OVERRIDDEN : Fld := ⟨.ht, 0x10, 7, 1⟩
def HT_INT_STAT_REF_LOST : Fld := ⟨.ht, 0x10, 8, 1⟩
def HT_LOOP_KP_SHIFT : Fld := ⟨.ht, 0x100, 0, 4⟩
def HT_LOOP_KI_SHIFT : Fld := ⟨.ht, 0x100, 4, 4⟩
def HT_LOCK_LOCK_NS : Fld := ⟨.ht, 0x104, 0, 16⟩
def HT_LOCK_LOCK_CNT : Fld := ⟨.ht, 0x104, 16, 8⟩
def HT_SLEW_MAX : Fld := ⟨.ht, 0x108, 0, 32⟩
def HT_PPS_WIN : Fld := ⟨.ht, 0x10c, 0, 32⟩
def HT_PPS_DELAY : Fld := ⟨.ht, 0x110, 0, 32⟩
def HT_HOLD_DRIFT : Fld := ⟨.ht, 0x114, 0, 16⟩
def HT_HOLD_MAX_NS : Fld := ⟨.ht, 0x118, 0, 32⟩
def HT_CNT_LO : Fld := ⟨.ht, 0x120, 0, 32⟩
def HT_CNT_HI : Fld := ⟨.ht, 0x124, 0, 32⟩
def HT_TOD_NS : Fld := ⟨.ht, 0x128, 0, 30⟩
def HT_TOD_SEC_LO : Fld := ⟨.ht, 0x12c, 0, 32⟩
def HT_TOD_SEC_HI : Fld := ⟨.ht, 0x130, 0, 16⟩
def HT_PHASE_ERR : Fld := ⟨.ht, 0x134, 0, 32⟩
def HT_FREQ_ADJ : Fld := ⟨.ht, 0x138, 0, 32⟩
def HT_HOLD_BOUND_NS : Fld := ⟨.ht, 0x13c, 0, 32⟩
def HT_HOLD_SECONDS : Fld := ⟨.ht, 0x140, 0, 32⟩
def HT_STAGE_SEC_LO : Fld := ⟨.ht, 0x144, 0, 32⟩
def HT_STAGE_SEC_HI : Fld := ⟨.ht, 0x148, 0, 16⟩
def HT_TOD_ARM : Fld := ⟨.ht, 0x14c, 0, 1⟩
def HT_UTC_OFFSET : Fld := ⟨.ht, 0x150, 0, 16⟩
def HT_PPS_CAP_LO : Fld := ⟨.ht, 0x154, 0, 32⟩
def HT_PPS_CAP_HI : Fld := ⟨.ht, 0x158, 0, 32⟩

/-! ### TT_ page (01_timetable.md) -/
def TT_MISS_TOTAL : Fld := ⟨.tt, 0x28, 0, 32⟩
def TT_MISS_INTAKE : Fld := ⟨.tt, 0x2c, 0, 32⟩
def TT_MISS_RUN : Fld := ⟨.tt, 0x30, 0, 32⟩
def TT_OVERRUN : Fld := ⟨.tt, 0x34, 0, 32⟩
def TT_LATE_INTAKE : Fld := ⟨.tt, 0x38, 0, 32⟩
def TT_IMG_REFUSED : Fld := ⟨.tt, 0x3c, 0, 32⟩
def TT_CTL_ENABLE : Fld := ⟨.tt, 0x8, 0, 1⟩
def TT_STAT_RUNNING : Fld := ⟨.tt, 0xc, 0, 1⟩
def TT_STAT_IMG_ACTIVE : Fld := ⟨.tt, 0xc, 1, 1⟩
def TT_STAT_IMG_PENDING : Fld := ⟨.tt, 0xc, 2, 1⟩
def TT_STAT_MODE : Fld := ⟨.tt, 0xc, 3, 1⟩
def TT_STAT_PERIOD : Fld := ⟨.tt, 0xc, 4, 2⟩
def TT_STAT_CYCLE : Fld := ⟨.tt, 0xc, 6, 4⟩
def TT_INT_STAT_TICK : Fld := ⟨.tt, 0x10, 0, 1⟩
def TT_INT_STAT_DEADLINE_MISS : Fld := ⟨.tt, 0x10, 1, 1⟩
def TT_INT_STAT_OVERRUN : Fld := ⟨.tt, 0x10, 2, 1⟩
def TT_INT_STAT_IMG_ACTIVATED : Fld := ⟨.tt, 0x10, 3, 1⟩
def TT_INT_STAT_IMG_REFUSED : Fld := ⟨.tt, 0x10, 4, 1⟩
def TT_INT_STAT_LATE_INTAKE : Fld := ⟨.tt, 0x10, 5, 1⟩
def TT_INT_STAT_PERIOD_REFUSED : Fld := ⟨.tt, 0x10, 6, 1⟩
def TT_PERIOD : Fld := ⟨.tt, 0x100, 0, 2⟩
def TT_INTAKE_SLOT : Fld := ⟨.tt, 0x108, 0, 6⟩
def TT_TICK_LO : Fld := ⟨.tt, 0x10c, 0, 32⟩
def TT_TICK_HI : Fld := ⟨.tt, 0x110, 0, 32⟩
def TT_TICK_INDEX : Fld := ⟨.tt, 0x114, 0, 7⟩
def TT_IMG_ADDR_LO : Fld := ⟨.tt, 0x118, 0, 32⟩
def TT_IMG_ADDR_HI : Fld := ⟨.tt, 0x11c, 0, 32⟩
def TT_IMG_LEN : Fld := ⟨.tt, 0x120, 0, 18⟩
def TT_IMG_AT_LO : Fld := ⟨.tt, 0x124, 0, 32⟩
def TT_IMG_AT_HI : Fld := ⟨.tt, 0x128, 0, 32⟩
def TT_IMG_CMD_LOAD : Fld := ⟨.tt, 0x12c, 0, 1⟩
def TT_IMG_CMD_ABANDON : Fld := ⟨.tt, 0x12c, 1, 1⟩
def TT_IMG_STAT_STATE : Fld := ⟨.tt, 0x130, 0, 3⟩
def TT_IMG_STAT_ERROR : Fld := ⟨.tt, 0x130, 8, 8⟩
def TT_IMG_ACTIVE_ID : Fld := ⟨.tt, 0x134, 0, 32⟩
def TT_OWNER : Fld := ⟨.tt, 0x140, 0, 32⟩
def TT_LOWNER : Fld := ⟨.tt, 0x180, 0, 32⟩
def TT_MISS : Fld := ⟨.tt, 0x400, 0, 32⟩

/-! ### PKG_ boot page (17_reset_and_bring_up.md) -/
def PKG_BOOT_COUNT : Fld := ⟨.pkgb, 0x28, 0, 32⟩
def PKG_PERSTS : Fld := ⟨.pkgb, 0x2c, 0, 32⟩
def PKG_HOT_RESETS : Fld := ⟨.pkgb, 0x30, 0, 32⟩
def PKG_FLRS : Fld := ⟨.pkgb, 0x34, 0, 32⟩
def PKGB_STAT_SD_READY : Fld := ⟨.pkgb, 0xc, 0, 1⟩
def PKGB_STAT_DRAM_READY : Fld := ⟨.pkgb, 0xc, 1, 1⟩
def PKGB_STAT_CD_READY : Fld := ⟨.pkgb, 0xc, 2, 1⟩
def PKGB_STAT_BOOT_FAILED : Fld := ⟨.pkgb, 0xc, 3, 1⟩
def PKGB_INT_STAT_CD_READY : Fld := ⟨.pkgb, 0x10, 0, 1⟩
def PKGB_INT_STAT_BOOT_FAILED : Fld := ⟨.pkgb, 0x10, 1, 1⟩
def PKGB_INT_STAT_HOST_RESET_DONE : Fld := ⟨.pkgb, 0x10, 2, 1⟩
def PKG_RESET_CAUSE : Fld := ⟨.pkgb, 0x100, 0, 2⟩
def PKG_STRAPS_SB_BUS : Fld := ⟨.pkgb, 0x104, 0, 1⟩
def PKG_STRAPS_SMB_ADDR : Fld := ⟨.pkgb, 0x104, 1, 3⟩
def PKG_STRAPS_RECOVERY : Fld := ⟨.pkgb, 0x104, 4, 1⟩
def PKG_STRAPS_TEST : Fld := ⟨.pkgb, 0x104, 5, 2⟩
def PKG_BOOT_ERR_CODE : Fld := ⟨.pkgb, 0x108, 0, 8⟩
def PKG_BOOT_ERR_CHANNELS : Fld := ⟨.pkgb, 0x108, 8, 16⟩
def PKG_T_RELEASE : Fld := ⟨.pkgb, 0x10c, 0, 32⟩
def PKG_T_SD_READY : Fld := ⟨.pkgb, 0x110, 0, 32⟩
def PKG_T_SCRUB_DONE : Fld := ⟨.pkgb, 0x114, 0, 32⟩
def PKG_T_CD_READY : Fld := ⟨.pkgb, 0x118, 0, 32⟩

/-! ### STR_ page (02_streams.md) -/
def STR_ADMITS : Fld := ⟨.str, 0x28, 0, 32⟩
def STR_REFUSED : Fld := ⟨.str, 0x2c, 0, 32⟩
def STR_STALE : Fld := ⟨.str, 0x30, 0, 32⟩
def STR_FAULTS : Fld := ⟨.str, 0x34, 0, 32⟩
def STR_WAKES : Fld := ⟨.str, 0x38, 0, 32⟩
def STR_PROMOTIONS : Fld := ⟨.str, 0x3c, 0, 32⟩
def STR_EXPORTS : Fld := ⟨.str, 0x40, 0, 32⟩
def STR_IMPORTS : Fld := ⟨.str, 0x44, 0, 32⟩
def STR_STOP_NOOP : Fld := ⟨.str, 0x48, 0, 32⟩
def STR_START_CANCELLED : Fld := ⟨.str, 0x4c, 0, 32⟩
def STR_SKIPPED : Fld := ⟨.str, 0x50, 0, 32⟩
def STR_CTL_AUTO_PROMOTE_EN : Fld := ⟨.str, 0x8, 0, 1⟩
def STR_STAT_RANGE_VALID : Fld := ⟨.str, 0xc, 0, 1⟩
def STR_INT_STAT_WAKE : Fld := ⟨.str, 0x10, 0, 1⟩
def STR_INT_STAT_FAULT : Fld := ⟨.str, 0x10, 1, 1⟩
def STR_INT_STAT_STALE : Fld := ⟨.str, 0x10, 2, 1⟩
def STR_INT_STAT_REFUSED : Fld := ⟨.str, 0x10, 3, 1⟩
def STR_INT_STAT_DRAIN_DONE : Fld := ⟨.str, 0x10, 4, 1⟩
def STR_INT_STAT_EXPORT_DONE : Fld := ⟨.str, 0x10, 5, 1⟩
def STR_INT_STAT_IMPORT_DONE : Fld := ⟨.str, 0x10, 6, 1⟩
def STR_INT_STAT_TEARDOWN : Fld := ⟨.str, 0x10, 7, 1⟩
def STR_INT_STAT_REEL_CLIPPED : Fld := ⟨.str, 0x10, 8, 1⟩
def STR_INT_STAT_RANGE_REFUSED : Fld := ⟨.str, 0x10, 9, 1⟩
def STR_RANGE_BASE : Fld := ⟨.str, 0x100, 0, 13⟩
def STR_RANGE_COUNT : Fld := ⟨.str, 0x100, 16, 14⟩
def STR_OCC_RUN_LISTEN : Fld := ⟨.str, 0x104, 0, 14⟩
def STR_OCC_RUN_TRANSCRIBE : Fld := ⟨.str, 0x104, 16, 14⟩
def STR_OCC_OTHER_PARKED : Fld := ⟨.str, 0x108, 0, 14⟩
def STR_OCC_OTHER_FAULTED : Fld := ⟨.str, 0x108, 16, 14⟩
def STR_SEL : Fld := ⟨.str, 0x110, 0, 13⟩
def STR_VIEW_STATE_STATE : Fld := ⟨.str, 0x114, 0, 3⟩
def STR_VIEW_STATE_HOLDER : Fld := ⟨.str, 0x114, 3, 2⟩
def STR_VIEW_STATE_CUR : Fld := ⟨.str, 0x114, 5, 1⟩
def STR_VIEW_STATE_HELD : Fld := ⟨.str, 0x114, 6, 1⟩
def STR_VIEW_STATE_CATCHUP : Fld := ⟨.str, 0x114, 7, 1⟩
def STR_VIEW_STATE_FAULT : Fld := ⟨.str, 0x114, 8, 8⟩
def STR_VIEW_STATE_OUT_OF_RANGE : Fld := ⟨.str, 0x114, 31, 1⟩
def STR_VIEW_EPOCH : Fld := ⟨.str, 0x118, 0, 32⟩
def STR_VIEW_NEXT_LO : Fld := ⟨.str, 0x11c, 0, 32⟩
def STR_VIEW_NEXT_HI : Fld := ⟨.str, 0x120, 0, 32⟩
def STR_VIEW_MISS : Fld := ⟨.str, 0x124, 0, 32⟩
def STR_LAST_REFUSE_SLOT : Fld := ⟨.str, 0x130, 0, 13⟩
def STR_LAST_REFUSE_CODE : Fld := ⟨.str, 0x130, 16, 8⟩
def STR_IMG_BASE_LO : Fld := ⟨.str, 0x140, 20, 12⟩
def STR_IMG_BASE_HI : Fld := ⟨.str, 0x144, 0, 5⟩
def STR_IMG_SIZE : Fld := ⟨.str, 0x148, 0, 18⟩

/-! ### FE_ page (04_audio_front_end.md) -/
def FE_GAP_FRAMES : Fld := ⟨.fe, 0x28, 0, 32⟩
def FE_OVERLAP_FRAMES : Fld := ⟨.fe, 0x2c, 0, 32⟩
def FE_LATE_FRAMES : Fld := ⟨.fe, 0x30, 0, 32⟩
def FE_FLOAT_FIXED : Fld := ⟨.fe, 0x34, 0, 32⟩
def FE_RECENTRES : Fld := ⟨.fe, 0x38, 0, 32⟩
def FE_CLOCK_FORBIDDEN : Fld := ⟨.fe, 0x3c, 0, 32⟩
def FE_LOCK_LOSSES : Fld := ⟨.fe, 0x40, 0, 32⟩
def FE_REEL_POISON : Fld := ⟨.fe, 0x44, 0, 32⟩
def FE_REPLAY_ZERO : Fld := ⟨.fe, 0x48, 0, 32⟩
def FE_BEAM_REFUSED : Fld := ⟨.fe, 0x4c, 0, 32⟩
def FE_STAT_REEL_AREA_VALID : Fld := ⟨.fe, 0xc, 0, 1⟩
def FE_STAT_BEAM_BUSY : Fld := ⟨.fe, 0xc, 1, 1⟩
def FE_INT_STAT_LOCK_LOST : Fld := ⟨.fe, 0x10, 0, 1⟩
def FE_INT_STAT_RECENTRE : Fld := ⟨.fe, 0x10, 1, 1⟩
def FE_INT_STAT_CLOCK_FORBIDDEN : Fld := ⟨.fe, 0x10, 2, 1⟩
def FE_INT_STAT_GAP : Fld := ⟨.fe, 0x10, 3, 1⟩
def FE_INT_STAT_LATE_FRAMES : Fld := ⟨.fe, 0x10, 4, 1⟩
def FE_INT_STAT_FLOAT_FIXED : Fld := ⟨.fe, 0x10, 5, 1⟩
def FE_INT_STAT_BEAM_DONE : Fld := ⟨.fe, 0x10, 6, 1⟩
def FE_INT_STAT_BEAM_REFUSED : Fld := ⟨.fe, 0x10, 7, 1⟩
def FE_INT_STAT_REEL_POISON : Fld := ⟨.fe, 0x10, 8, 1⟩
def FE_INT_STAT_REEL_CFG_REFUSED : Fld := ⟨.fe, 0x10, 9, 1⟩
def FE_LOOP_KP_SHIFT : Fld := ⟨.fe, 0x100, 0, 4⟩
def FE_LOOP_KI_SHIFT : Fld := ⟨.fe, 0x100, 4, 5⟩
def FE_LOCK_THR : Fld := ⟨.fe, 0x104, 0, 16⟩
def FE_LOCK_CNT : Fld := ⟨.fe, 0x104, 16, 8⟩
def FE_SLEW_RANGE_PPM : Fld := ⟨.fe, 0x108, 0, 16⟩
def FE_SLEW_STEP_PPM : Fld := ⟨.fe, 0x108, 16, 16⟩
def FE_SEL : Fld := ⟨.fe, 0x110, 0, 13⟩
def FE_VIEW_CLK_MODE : Fld := ⟨.fe, 0x114, 0, 1⟩
def FE_VIEW_CLK_LOCK : Fld := ⟨.fe, 0x114, 1, 1⟩
def FE_VIEW_CLK_SLEWING : Fld := ⟨.fe, 0x114, 2, 1⟩
def FE_VIEW_CLK_OUT_OF_RANGE : Fld := ⟨.fe, 0x114, 31, 1⟩
def FE_VIEW_RATIO_LO : Fld := ⟨.fe, 0x118, 0, 32⟩
def FE_VIEW_RATIO_HI : Fld := ⟨.fe, 0x11c, 0, 32⟩
def FE_VIEW_LEVEL : Fld := ⟨.fe, 0x120, 0, 32⟩
def FE_VIEW_INTEG_LO : Fld := ⟨.fe, 0x124, 0, 32⟩
def FE_VIEW_INTEG_HI : Fld := ⟨.fe, 0x128, 0, 32⟩
def FE_VIEW_DRIFT : Fld := ⟨.fe, 0x12c, 0, 32⟩
def FE_VIEW_REEL : Fld := ⟨.fe, 0x130, 0, 32⟩
def FE_BEAM_SLOT : Fld := ⟨.fe, 0x150, 0, 13⟩
def FE_BEAM_ADDR_LO : Fld := ⟨.fe, 0x154, 0, 32⟩
def FE_BEAM_ADDR_HI_ADDR_HI : Fld := ⟨.fe, 0x158, 0, 31⟩
def FE_BEAM_ADDR_HI_SPACE : Fld := ⟨.fe, 0x158, 31, 1⟩
def FE_BEAM_TICK_LO : Fld := ⟨.fe, 0x15c, 0, 32⟩
def FE_BEAM_TICK_HI : Fld := ⟨.fe, 0x160, 0, 32⟩
def FE_BEAM_CMD_BIND : Fld := ⟨.fe, 0x164, 0, 1⟩
def FE_BEAM_STAT_STATE : Fld := ⟨.fe, 0x168, 0, 2⟩
def FE_BEAM_STAT_CODE : Fld := ⟨.fe, 0x168, 8, 8⟩
def FE_REEL_BASE_LO : Fld := ⟨.fe, 0x200, 14, 18⟩
def FE_REEL_BASE_HI : Fld := ⟨.fe, 0x204, 0, 5⟩
def FE_REEL_SIZE : Fld := ⟨.fe, 0x208, 0, 24⟩
def FE_REEL_USED : Fld := ⟨.fe, 0x20c, 0, 24⟩

/-! ### APT_ page (05_audio_ports.md) -/
def APT_FRAMES : Fld := ⟨.apt, 0x28, 0, 32⟩
def APT_DROP_MALFORMED : Fld := ⟨.apt, 0x2c, 0, 32⟩
def APT_DROP_OVERRUN : Fld := ⟨.apt, 0x30, 0, 32⟩
def APT_OUT_UNDERRUN : Fld := ⟨.apt, 0x34, 0, 32⟩
def APT_BLOCKS : Fld := ⟨.apt, 0x38, 0, 32⟩
def APT_SUPERSEDED : Fld := ⟨.apt, 0x3c, 0, 32⟩
def APT_START_NOOP : Fld := ⟨.apt, 0x40, 0, 32⟩
def APT_STOP_NOOP : Fld := ⟨.apt, 0x44, 0, 32⟩
def APT_ZC_TIMEOUTS : Fld := ⟨.apt, 0x48, 0, 32⟩
def APT_STAT_STATE : Fld := ⟨.apt, 0xc, 0, 3⟩
def APT_STAT_MASTER : Fld := ⟨.apt, 0xc, 3, 1⟩
def APT_STAT_CLK_OK : Fld := ⟨.apt, 0xc, 4, 1⟩
def APT_STAT_STANDBY_STOPPED : Fld := ⟨.apt, 0xc, 5, 1⟩
def APT_STAT_GATES : Fld := ⟨.apt, 0xc, 8, 8⟩
def APT_STAT_PENDING : Fld := ⟨.apt, 0xc, 16, 3⟩
def APT_INT_STAT_STARTED : Fld := ⟨.apt, 0x10, 0, 1⟩
def APT_INT_STAT_STOPPED : Fld := ⟨.apt, 0x10, 1, 1⟩
def APT_INT_STAT_MALFORMED : Fld := ⟨.apt, 0x10, 2, 1⟩
def APT_INT_STAT_OVERRUN : Fld := ⟨.apt, 0x10, 3, 1⟩
def APT_INT_STAT_OUT_UNDERRUN : Fld := ⟨.apt, 0x10, 4, 1⟩
def APT_INT_STAT_ZC_TIMEOUT : Fld := ⟨.apt, 0x10, 5, 1⟩
def APT_INT_STAT_SUPERSEDED : Fld := ⟨.apt, 0x10, 6, 1⟩
def APT_INT_STAT_NOOP : Fld := ⟨.apt, 0x10, 7, 1⟩
def APT_INT_STAT_SWITCHED : Fld := ⟨.apt, 0x10, 8, 1⟩
def APT_INT_STAT_CFG_REFUSED : Fld := ⟨.apt, 0x10, 9, 1⟩
def APT_INT_STAT_CMD_FULL : Fld := ⟨.apt, 0x10, 10, 1⟩
def APT_CFG_MASTER : Fld := ⟨.apt, 0x100, 0, 1⟩
def APT_CFG_JUSTIFY : Fld := ⟨.apt, 0x100, 1, 1⟩
def APT_CFG_WIDTH : Fld := ⟨.apt, 0x100, 2, 2⟩
def APT_CFG_RATE : Fld := ⟨.apt, 0x100, 4, 3⟩
def APT_CFG_BLOCK : Fld := ⟨.apt, 0x100, 8, 2⟩
def APT_LINES_DIR0 : Fld := ⟨.apt, 0x104, 0, 2⟩
def APT_LINES_DIR1 : Fld := ⟨.apt, 0x104, 2, 2⟩
def APT_LINES_DIR2 : Fld := ⟨.apt, 0x104, 4, 2⟩
def APT_LINES_DIR3 : Fld := ⟨.apt, 0x104, 6, 2⟩
def APT_OUT_SRC0 : Fld := ⟨.apt, 0x108, 0, 2⟩
def APT_OUT_THRU0 : Fld := ⟨.apt, 0x108, 2, 1⟩
def APT_OUT_OUT1 : Fld := ⟨.apt, 0x108, 4, 3⟩
def APT_OUT_OUT2 : Fld := ⟨.apt, 0x108, 8, 3⟩
def APT_OUT_OUT3 : Fld := ⟨.apt, 0x108, 12, 3⟩
def APT_SLOTMASK : Fld := ⟨.apt, 0x10c, 0, 8⟩
def APT_CHANNELS : Fld := ⟨.apt, 0x110, 0, 4⟩
def APT_ZC : Fld := ⟨.apt, 0x114, 0, 12⟩
def APT_CMD_AT_LO : Fld := ⟨.apt, 0x118, 0, 32⟩
def APT_CMD_AT_HI : Fld := ⟨.apt, 0x11c, 0, 32⟩
def APT_CMD_START : Fld := ⟨.apt, 0x120, 0, 1⟩
def APT_CMD_STOP : Fld := ⟨.apt, 0x120, 1, 1⟩
def APT_CMD_FLUSH : Fld := ⟨.apt, 0x120, 2, 1⟩
def APT_STAMP_LO : Fld := ⟨.apt, 0x124, 0, 32⟩
def APT_STAMP_HI : Fld := ⟨.apt, 0x128, 0, 32⟩
def APT_BLOCK_LO : Fld := ⟨.apt, 0x12c, 0, 32⟩
def APT_BLOCK_HI : Fld := ⟨.apt, 0x130, 0, 32⟩
def APT_RATE_MEAS : Fld := ⟨.apt, 0x134, 0, 32⟩

/-! ### IXP_ page (05_audio_ports.md) -/
def IXP_FRAMES : Fld := ⟨.ixp, 0x28, 0, 32⟩
def IXP_DROP_MALFORMED : Fld := ⟨.ixp, 0x2c, 0, 32⟩
def IXP_DROP_OVERRUN : Fld := ⟨.ixp, 0x30, 0, 32⟩
def IXP_BLOCKS : Fld := ⟨.ixp, 0x34, 0, 32⟩
def IXP_SHORT_BLOCKS : Fld := ⟨.ixp, 0x38, 0, 32⟩
def IXP_INVALID : Fld := ⟨.ixp, 0x3c, 0, 32⟩
def IXP_NONPCM_FRAMES : Fld := ⟨.ixp, 0x40, 0, 32⟩
def IXP_CRCC_ERR : Fld := ⟨.ixp, 0x44, 0, 32⟩
def IXP_CSQ_LOST : Fld := ⟨.ixp, 0x48, 0, 32⟩
def IXP_SUPERSEDED : Fld := ⟨.ixp, 0x4c, 0, 32⟩
def IXP_START_NOOP : Fld := ⟨.ixp, 0x50, 0, 32⟩
def IXP_STOP_NOOP : Fld := ⟨.ixp, 0x54, 0, 32⟩
def IXP_ZC_TIMEOUTS : Fld := ⟨.ixp, 0x58, 0, 32⟩
def IXP_OUT_UNDERRUN : Fld := ⟨.ixp, 0x5c, 0, 32⟩
def IXP_STAT_STATE : Fld := ⟨.ixp, 0xc, 0, 3⟩
def IXP_STAT_RX_LOCK : Fld := ⟨.ixp, 0xc, 3, 1⟩
def IXP_STAT_PRO : Fld := ⟨.ixp, 0xc, 4, 1⟩
def IXP_STAT_NON_PCM : Fld := ⟨.ixp, 0xc, 5, 1⟩
def IXP_STAT_STANDBY_STOPPED : Fld := ⟨.ixp, 0xc, 6, 1⟩
def IXP_STAT_TX_ACTIVE : Fld := ⟨.ixp, 0xc, 7, 1⟩
def IXP_STAT_GATES : Fld := ⟨.ixp, 0xc, 8, 2⟩
def IXP_STAT_PENDING : Fld := ⟨.ixp, 0xc, 10, 3⟩
def IXP_INT_STAT_STARTED : Fld := ⟨.ixp, 0x10, 0, 1⟩
def IXP_INT_STAT_STOPPED : Fld := ⟨.ixp, 0x10, 1, 1⟩
def IXP_INT_STAT_MALFORMED : Fld := ⟨.ixp, 0x10, 2, 1⟩
def IXP_INT_STAT_LOCK : Fld := ⟨.ixp, 0x10, 3, 1⟩
def IXP_INT_STAT_LOCK_LOST : Fld := ⟨.ixp, 0x10, 4, 1⟩
def IXP_INT_STAT_CS_CHANGED : Fld := ⟨.ixp, 0x10, 5, 1⟩
def IXP_INT_STAT_CRCC_ERR : Fld := ⟨.ixp, 0x10, 6, 1⟩
def IXP_INT_STAT_CSQ_LOST : Fld := ⟨.ixp, 0x10, 7, 1⟩
def IXP_INT_STAT_ZC_TIMEOUT : Fld := ⟨.ixp, 0x10, 8, 1⟩
def IXP_INT_STAT_SUPERSEDED : Fld := ⟨.ixp, 0x10, 9, 1⟩
def IXP_INT_STAT_NOOP : Fld := ⟨.ixp, 0x10, 10, 1⟩
def IXP_INT_STAT_CFG_REFUSED : Fld := ⟨.ixp, 0x10, 11, 1⟩
def IXP_INT_STAT_CMD_FULL : Fld := ⟨.ixp, 0x10, 12, 1⟩
def IXP_INT_STAT_RATE_MISMATCH : Fld := ⟨.ixp, 0x10, 13, 1⟩
def IXP_INT_STAT_OVERRUN : Fld := ⟨.ixp, 0x10, 14, 1⟩
def IXP_INT_STAT_OUT_UNDERRUN : Fld := ⟨.ixp, 0x10, 15, 1⟩
def IXP_CFG_RATE : Fld := ⟨.ixp, 0x100, 0, 3⟩
def IXP_CFG_VPOL : Fld := ⟨.ixp, 0x100, 3, 1⟩
def IXP_CFG_TX_SRC : Fld := ⟨.ixp, 0x100, 4, 2⟩
def IXP_CFG_CSQ_MODE : Fld := ⟨.ixp, 0x100, 6, 1⟩
def IXP_SLOTMASK : Fld := ⟨.ixp, 0x104, 0, 2⟩
def IXP_ZC : Fld := ⟨.ixp, 0x108, 0, 12⟩
def IXP_CMD_AT_LO : Fld := ⟨.ixp, 0x10c, 0, 32⟩
def IXP_CMD_AT_HI : Fld := ⟨.ixp, 0x110, 0, 32⟩
def IXP_CMD_START : Fld := ⟨.ixp, 0x114, 0, 1⟩
def IXP_CMD_STOP : Fld := ⟨.ixp, 0x114, 1, 1⟩
def IXP_CMD_FLUSH : Fld := ⟨.ixp, 0x114, 2, 1⟩
def IXP_STAMP_LO : Fld := ⟨.ixp, 0x118, 0, 32⟩
def IXP_STAMP_HI : Fld := ⟨.ixp, 0x11c, 0, 32⟩
def IXP_BLOCK_LO : Fld := ⟨.ixp, 0x120, 0, 32⟩
def IXP_BLOCK_HI : Fld := ⟨.ixp, 0x124, 0, 32⟩
def IXP_RATE_MEAS : Fld := ⟨.ixp, 0x128, 0, 32⟩
def IXP_CSQ_BASE_LO : Fld := ⟨.ixp, 0x130, 12, 20⟩
def IXP_CSQ_BASE_HI : Fld := ⟨.ixp, 0x134, 0, 32⟩
def IXP_CSQ_CFG : Fld := ⟨.ixp, 0x138, 0, 4⟩
def IXP_CSQ_DEV_IDX : Fld := ⟨.ixp, 0x13c, 0, 32⟩
def IXP_CSQ_HOST_IDX : Fld := ⟨.ixp, 0x140, 0, 32⟩
def IXP_CS_A : Fld := ⟨.ixp, 0x150, 0, 32⟩
def IXP_CS_A_REST : Fld := ⟨.ixp, 0x154, 0, 32⟩
def IXP_CS_B : Fld := ⟨.ixp, 0x168, 0, 32⟩
def IXP_TX_CS : Fld := ⟨.ixp, 0x180, 0, 32⟩

/-! ### core page (06_compute_die.md) -/
def CORE_RUNS : Fld := ⟨.core, 0x28, 0, 32⟩
def CORE_SUSPENDS : Fld := ⟨.core, 0x2c, 0, 32⟩
def CORE_FAULTS : Fld := ⟨.core, 0x30, 0, 32⟩
def CORE_BUDGET_OVER : Fld := ⟨.core, 0x34, 0, 32⟩
def CORE_SIDINGS : Fld := ⟨.core, 0x38, 0, 32⟩
def CORE_RETURNS : Fld := ⟨.core, 0x3c, 0, 32⟩
def CORE_CTL_SIDE : Fld := ⟨.core, 0x8, 0, 1⟩
def CORE_STAT_STATE : Fld := ⟨.core, 0xc, 0, 2⟩
def CORE_STAT_LISTEN_CORE : Fld := ⟨.core, 0xc, 2, 1⟩
def CORE_STAT_RUN_ACTIVE : Fld := ⟨.core, 0xc, 3, 1⟩
def CORE_STAT_REQ_CTL : Fld := ⟨.core, 0xc, 4, 1⟩
def CORE_STAT_REQ_SB : Fld := ⟨.core, 0xc, 5, 1⟩
def CORE_STAT_REQ_PWR : Fld := ⟨.core, 0xc, 6, 1⟩
def CORE_INT_STAT_SIDED : Fld := ⟨.core, 0x10, 0, 1⟩
def CORE_INT_STAT_RETURNED : Fld := ⟨.core, 0x10, 1, 1⟩
def CORE_INT_STAT_FAULT : Fld := ⟨.core, 0x10, 2, 1⟩
def CORE_INT_STAT_SIDE_REFUSED : Fld := ⟨.core, 0x10, 3, 1⟩
def CORE_INT_STAT_BUDGET_OVER : Fld := ⟨.core, 0x10, 4, 1⟩
def CORE_FAULT_CODE : Fld := ⟨.core, 0x100, 0, 8⟩
def CORE_FAULT_TENANCY : Fld := ⟨.core, 0x100, 8, 8⟩
def CORE_FAULT_PROG : Fld := ⟨.core, 0x104, 0, 32⟩
def CORE_FAULT_TIME_LO : Fld := ⟨.core, 0x108, 0, 32⟩
def CORE_FAULT_TIME_HI : Fld := ⟨.core, 0x10c, 0, 32⟩
def CORE_SRAM_USED : Fld := ⟨.core, 0x110, 0, 13⟩
def CORE_POOL_FREE : Fld := ⟨.core, 0x114, 0, 19⟩

/-! ### RING_ page (03_host_interface.md) -/
def RING_DESCS : Fld := ⟨.ring, 0x28, 0, 32⟩
def RING_DB_WRITES : Fld := ⟨.ring, 0x2c, 0, 32⟩
def RING_DB_BAD : Fld := ⟨.ring, 0x30, 0, 32⟩
def RING_STALLS : Fld := ⟨.ring, 0x34, 0, 32⟩
def RING_EV_LOST : Fld := ⟨.ring, 0x38, 0, 32⟩
def RING_SUBMIT_BAD : Fld := ⟨.ring, 0x3c, 0, 32⟩
def RING_TRUNCATED : Fld := ⟨.ring, 0x40, 0, 32⟩
def RING_FETCH_LATE : Fld := ⟨.ring, 0x44, 0, 32⟩
def RING_CTL_ENABLE : Fld := ⟨.ring, 0x8, 0, 1⟩
def RING_STAT_STATE : Fld := ⟨.ring, 0xc, 0, 2⟩
def RING_STAT_FULL : Fld := ⟨.ring, 0xc, 2, 1⟩
def RING_STAT_ENABLE_PENDING : Fld := ⟨.ring, 0xc, 3, 1⟩
def RING_INT_STAT_THRESHOLD : Fld := ⟨.ring, 0x10, 0, 1⟩
def RING_INT_STAT_EMPTY : Fld := ⟨.ring, 0x10, 1, 1⟩
def RING_INT_STAT_ERROR : Fld := ⟨.ring, 0x10, 2, 1⟩
def RING_INT_STAT_DB_BAD : Fld := ⟨.ring, 0x10, 3, 1⟩
def RING_INT_STAT_STALL : Fld := ⟨.ring, 0x10, 4, 1⟩
def RING_INT_STAT_EVENT_LOST : Fld := ⟨.ring, 0x10, 5, 1⟩
def RING_INT_STAT_DISABLE_REFUSED : Fld := ⟨.ring, 0x10, 6, 1⟩
def RING_INT_STAT_SUBMIT_BAD : Fld := ⟨.ring, 0x10, 7, 1⟩
def RING_CFG_TYPE : Fld := ⟨.ring, 0x100, 0, 2⟩
def RING_CFG_LOG2_SIZE : Fld := ⟨.ring, 0x100, 4, 5⟩
def RING_CFG_VECTOR : Fld := ⟨.ring, 0x100, 16, 7⟩
def RING_CFG_STRIDE : Fld := ⟨.ring, 0x100, 24, 4⟩
def RING_BASE_LO : Fld := ⟨.ring, 0x104, 12, 20⟩
def RING_BASE_HI : Fld := ⟨.ring, 0x108, 0, 32⟩
def RING_WB_LO : Fld := ⟨.ring, 0x10c, 3, 29⟩
def RING_WB_HI : Fld := ⟨.ring, 0x110, 0, 32⟩
def RING_RES_LO : Fld := ⟨.ring, 0x114, 12, 20⟩
def RING_RES_HI : Fld := ⟨.ring, 0x118, 0, 32⟩
def RING_HOST_IDX : Fld := ⟨.ring, 0x11c, 0, 32⟩
def RING_DEV_IDX : Fld := ⟨.ring, 0x120, 0, 32⟩
def RING_HELD : Fld := ⟨.ring, 0x124, 0, 17⟩
def RING_WMARK : Fld := ⟨.ring, 0x128, 0, 17⟩
def RING_HOLDOFF : Fld := ⟨.ring, 0x12c, 0, 16⟩
def RING_ERR : Fld := ⟨.ring, 0x130, 0, 8⟩
def RING_ERR_IDX : Fld := ⟨.ring, 0x134, 0, 32⟩

/-! ### program page (06_compute_die.md) -/
def CORE_PROG_LOADS : Fld := ⟨.prog, 0x28, 0, 32⟩
def CORE_PROG_REFUSED : Fld := ⟨.prog, 0x2c, 0, 32⟩
def CORE_NO_PROG : Fld := ⟨.prog, 0x30, 0, 32⟩
def CORE_RUN_SKIPPED : Fld := ⟨.prog, 0x34, 0, 32⟩
def CORE_ROWS : Fld := ⟨.prog, 0x38, 0, 32⟩
def CORE_RUN_FAULTS : Fld := ⟨.prog, 0x3c, 0, 32⟩
def PROG_STAT_BUSY : Fld := ⟨.prog, 0xc, 0, 1⟩
def PROG_STAT_LOADED : Fld := ⟨.prog, 0xc, 1, 7⟩
def PROG_INT_STAT_DONE : Fld := ⟨.prog, 0x10, 0, 1⟩
def PROG_INT_STAT_REFUSED : Fld := ⟨.prog, 0x10, 1, 1⟩
def PROG_INT_STAT_RUN_FAULT : Fld := ⟨.prog, 0x10, 2, 1⟩
def PROG_INT_STAT_RUN_SKIPPED : Fld := ⟨.prog, 0x10, 3, 1⟩
def PROG_INT_STAT_NO_PROG : Fld := ⟨.prog, 0x10, 4, 1⟩
def CORE_PROG_ADDR_LO : Fld := ⟨.prog, 0x100, 0, 32⟩
def CORE_PROG_ADDR_HI : Fld := ⟨.prog, 0x104, 0, 32⟩
def CORE_PROG_LEN : Fld := ⟨.prog, 0x108, 0, 32⟩
def CORE_PROG_ID : Fld := ⟨.prog, 0x10c, 0, 32⟩
def CORE_PROG_CMD_LOAD : Fld := ⟨.prog, 0x110, 0, 1⟩
def CORE_PROG_CMD_UNLOAD : Fld := ⟨.prog, 0x110, 1, 1⟩
def CORE_PROG_CMD_RELOAD : Fld := ⟨.prog, 0x110, 2, 1⟩
def CORE_PROG_STAT_STATE : Fld := ⟨.prog, 0x114, 0, 2⟩
def CORE_PROG_STAT_CODE : Fld := ⟨.prog, 0x114, 8, 8⟩
def CORE_PROG_SEL : Fld := ⟨.prog, 0x118, 0, 6⟩
def CORE_PROG_VIEW : Fld := ⟨.prog, 0x11c, 0, 32⟩

/-! ### FELT_ page (08_attention_and_felt.md) -/
def FELT_ALLOCS : Fld := ⟨.felt, 0x28, 0, 32⟩
def FELT_COW : Fld := ⟨.felt, 0x2c, 0, 32⟩
def FELT_FULL_EVENTS : Fld := ⟨.felt, 0x30, 0, 32⟩
def FELT_EMPTY_ROWS : Fld := ⟨.felt, 0x34, 0, 32⟩
def FELT_EMPTY_QUERIES : Fld := ⟨.felt, 0x38, 0, 32⟩
def FELT_SPEC_ROLLBACK : Fld := ⟨.felt, 0x3c, 0, 32⟩
def FELT_SPEC_CLAMP : Fld := ⟨.felt, 0x40, 0, 32⟩
def FELT_APPEND_CLIP : Fld := ⟨.felt, 0x44, 0, 32⟩
def FELT_PFX_REFUSED : Fld := ⟨.felt, 0x48, 0, 32⟩
def FELT_NAN_QUERIES : Fld := ⟨.felt, 0x4c, 0, 32⟩
def FELT_STAT_PFX_PENDING : Fld := ⟨.felt, 0xc, 0, 1⟩
def FELT_INT_STAT_FELT_FULL : Fld := ⟨.felt, 0x10, 0, 1⟩
def FELT_INT_STAT_EMPTY : Fld := ⟨.felt, 0x10, 1, 1⟩
def FELT_INT_STAT_SPEC_CLAMP : Fld := ⟨.felt, 0x10, 2, 1⟩
def FELT_INT_STAT_APPEND_CLIP : Fld := ⟨.felt, 0x10, 3, 1⟩
def FELT_INT_STAT_PFX_DONE : Fld := ⟨.felt, 0x10, 4, 1⟩
def FELT_INT_STAT_PFX_REFUSED : Fld := ⟨.felt, 0x10, 5, 1⟩
def FELT_INT_STAT_NAN_QUERY : Fld := ⟨.felt, 0x10, 6, 1⟩
def FELT_QUOTA : Fld := ⟨.felt, 0x100, 0, 12⟩
def FELT_USED : Fld := ⟨.felt, 0x104, 0, 12⟩
def FELT_PFX_SLOT : Fld := ⟨.felt, 0x108, 0, 13⟩
def FELT_PFX_HANDLE_HANDLE : Fld := ⟨.felt, 0x10c, 0, 4⟩
def FELT_PFX_HANDLE_CROSS : Fld := ⟨.felt, 0x10c, 4, 1⟩
def FELT_PFX_CMD_CAPTURE : Fld := ⟨.felt, 0x110, 0, 1⟩
def FELT_PFX_CMD_ATTACH : Fld := ⟨.felt, 0x110, 1, 1⟩
def FELT_PFX_CMD_DROP : Fld := ⟨.felt, 0x110, 2, 1⟩
def FELT_PFX_STAT_PENDING : Fld := ⟨.felt, 0x114, 0, 1⟩
def FELT_PFX_STAT_CODE : Fld := ⟨.felt, 0x114, 8, 8⟩
def FELT_HANDLES : Fld := ⟨.felt, 0x118, 0, 16⟩
def FELT_SEL : Fld := ⟨.felt, 0x120, 0, 13⟩
def FELT_VIEW_DEC_PAGES : Fld := ⟨.felt, 0x124, 0, 7⟩
def FELT_VIEW_DEC_OUT_OF_RANGE : Fld := ⟨.felt, 0x124, 31, 1⟩
def FELT_VIEW_DLEN : Fld := ⟨.felt, 0x128, 0, 32⟩
def FELT_VIEW_ENC_FILL : Fld := ⟨.felt, 0x12c, 0, 16⟩
def FELT_VIEW_ENC_HEAD : Fld := ⟨.felt, 0x12c, 16, 16⟩
def FELT_FREE : Fld := ⟨.felt, 0x200, 0, 12⟩
def FELT_LIVE : Fld := ⟨.felt, 0x204, 0, 12⟩
def FELT_RELEASING : Fld := ⟨.felt, 0x208, 0, 12⟩
def FELT_XSHARE_LO : Fld := ⟨.felt, 0x20c, 0, 32⟩
def FELT_XSHARE_HI : Fld := ⟨.felt, 0x210, 0, 32⟩

/-! ### GX_ page (09_tables_and_gather.md) -/
def GX_GATHERS : Fld := ⟨.gx, 0x28, 0, 32⟩
def GX_ROWS : Fld := ⟨.gx, 0x2c, 0, 32⟩
def GX_NULL : Fld := ⟨.gx, 0x30, 0, 32⟩
def GX_INVALID : Fld := ⟨.gx, 0x34, 0, 32⟩
def GX_ABSENT : Fld := ⟨.gx, 0x38, 0, 32⟩
def GX_POISON : Fld := ⟨.gx, 0x3c, 0, 32⟩
def GX_MISMATCH : Fld := ⟨.gx, 0x40, 0, 32⟩
def GX_LATE_REPLY : Fld := ⟨.gx, 0x44, 0, 32⟩
def GX_VIEW_LATE : Fld := ⟨.gx, 0x48, 0, 32⟩
def GX_PF_HITS : Fld := ⟨.gx, 0x4c, 0, 32⟩
def GX_PF_DROPPED : Fld := ⟨.gx, 0x50, 0, 32⟩
def GX_UPDATES : Fld := ⟨.gx, 0x54, 0, 32⟩
def GX_UPD_DROPPED : Fld := ⟨.gx, 0x58, 0, 32⟩
def GX_UPD_CLAMP : Fld := ⟨.gx, 0x5c, 0, 32⟩
def GX_FENCE_LATE : Fld := ⟨.gx, 0x60, 0, 32⟩
def GX_STAT_CMD_BUSY : Fld := ⟨.gx, 0xc, 0, 1⟩
def GX_INT_STAT_CMD_DONE : Fld := ⟨.gx, 0x10, 0, 1⟩
def GX_INT_STAT_CMD_REFUSED : Fld := ⟨.gx, 0x10, 1, 1⟩
def GX_INT_STAT_ABSENT : Fld := ⟨.gx, 0x10, 2, 1⟩
def GX_INT_STAT_INVALID : Fld := ⟨.gx, 0x10, 3, 1⟩
def GX_INT_STAT_POISON : Fld := ⟨.gx, 0x10, 4, 1⟩
def GX_INT_STAT_MISMATCH : Fld := ⟨.gx, 0x10, 5, 1⟩
def GX_INT_STAT_FENCE_LATE : Fld := ⟨.gx, 0x10, 6, 1⟩
def GX_INT_STAT_UPD_DROPPED : Fld := ⟨.gx, 0x10, 7, 1⟩
def GX_INT_STAT_QUOTA_REFUSED : Fld := ⟨.gx, 0x10, 8, 1⟩
def GX_WIN_BASE_LO : Fld := ⟨.gx, 0x100, 20, 12⟩
def GX_WIN_BASE_HI : Fld := ⟨.gx, 0x104, 0, 5⟩
def GX_WIN_SIZE : Fld := ⟨.gx, 0x108, 0, 18⟩
def GX_TAG_QUOTA : Fld := ⟨.gx, 0x10c, 0, 12⟩
def GX_PF_QUOTA : Fld := ⟨.gx, 0x110, 0, 8⟩
def GX_TBL_SEL : Fld := ⟨.gx, 0x114, 0, 4⟩
def GX_DESC_ADDR_LO : Fld := ⟨.gx, 0x118, 0, 32⟩
def GX_DESC_ADDR_HI : Fld := ⟨.gx, 0x11c, 0, 32⟩
def GX_XFER_ADDR_LO : Fld := ⟨.gx, 0x120, 0, 32⟩
def GX_XFER_ADDR_HI : Fld := ⟨.gx, 0x124, 0, 32⟩
def GX_XFER_OFF_LO : Fld := ⟨.gx, 0x128, 0, 32⟩
def GX_XFER_OFF_HI : Fld := ⟨.gx, 0x12c, 0, 32⟩
def GX_XFER_LEN : Fld := ⟨.gx, 0x130, 0, 32⟩
def GX_CMD_DEFINE : Fld := ⟨.gx, 0x134, 0, 1⟩
def GX_CMD_DELETE : Fld := ⟨.gx, 0x134, 1, 1⟩
def GX_CMD_ENABLE : Fld := ⟨.gx, 0x134, 2, 1⟩
def GX_CMD_DISABLE : Fld := ⟨.gx, 0x134, 3, 1⟩
def GX_CMD_LOAD : Fld := ⟨.gx, 0x134, 4, 1⟩
def GX_CMD_SAVE : Fld := ⟨.gx, 0x134, 5, 1⟩
def GX_CMD_STAT_STATE : Fld := ⟨.gx, 0x138, 0, 2⟩
def GX_CMD_STAT_CODE : Fld := ⟨.gx, 0x138, 8, 8⟩
def GX_TBL_STATE : Fld := ⟨.gx, 0x13c, 0, 32⟩
def GX_TAGS_HELD : Fld := ⟨.gx, 0x140, 0, 12⟩
def GX_PF_USED : Fld := ⟨.gx, 0x144, 0, 8⟩
def GX_CUT : Fld := ⟨.gx, 0x200, 0, 6⟩
def GX_TIMEOUT_NS : Fld := ⟨.gx, 0x204, 0, 32⟩
def GX_FENCE_LIMIT_NS : Fld := ⟨.gx, 0x208, 0, 32⟩
def GX_TAGS_FREE : Fld := ⟨.gx, 0x20c, 0, 12⟩

/-! ### SOL_ page (10_solver_engine.md) -/
def SOL_SOLVES : Fld := ⟨.sol, 0x28, 0, 32⟩
def SOL_OPTIMAL : Fld := ⟨.sol, 0x2c, 0, 32⟩
def SOL_DEADLINE_MISS : Fld := ⟨.sol, 0x30, 0, 32⟩
def SOL_PIVOTS : Fld := ⟨.sol, 0x34, 0, 32⟩
def SOL_REFINES : Fld := ⟨.sol, 0x38, 0, 32⟩
def SOL_SAT : Fld := ⟨.sol, 0x3c, 0, 32⟩
def SOL_REFUSED : Fld := ⟨.sol, 0x40, 0, 32⟩
def SOL_WAITS : Fld := ⟨.sol, 0x44, 0, 32⟩
def SOL_POISON : Fld := ⟨.sol, 0x48, 0, 32⟩
def SOL_STAT_CMD_BUSY : Fld := ⟨.sol, 0xc, 0, 1⟩
def SOL_STAT_PENDING : Fld := ⟨.sol, 0xc, 1, 4⟩
def SOL_STAT_RUNNING : Fld := ⟨.sol, 0xc, 5, 1⟩
def SOL_STAT_LOADED : Fld := ⟨.sol, 0xc, 6, 4⟩
def SOL_STAT_PARAM_PENDING : Fld := ⟨.sol, 0xc, 10, 4⟩
def SOL_INT_STAT_CMD_DONE : Fld := ⟨.sol, 0x10, 0, 1⟩
def SOL_INT_STAT_CMD_REFUSED : Fld := ⟨.sol, 0x10, 1, 1⟩
def SOL_INT_STAT_SOLVE_DONE : Fld := ⟨.sol, 0x10, 2, 1⟩
def SOL_INT_STAT_SOLVE_DEADLINE : Fld := ⟨.sol, 0x10, 3, 1⟩
def SOL_INT_STAT_PIVOT : Fld := ⟨.sol, 0x10, 4, 1⟩
def SOL_INT_STAT_RANGE : Fld := ⟨.sol, 0x10, 5, 1⟩
def SOL_INT_STAT_REQ_REFUSED : Fld := ⟨.sol, 0x10, 6, 1⟩
def SOL_INT_STAT_BIND_REFUSED : Fld := ⟨.sol, 0x10, 7, 1⟩
def SOL_HANDLE_SEL : Fld := ⟨.sol, 0x100, 0, 2⟩
def SOL_IMG_ADDR_LO : Fld := ⟨.sol, 0x104, 0, 32⟩
def SOL_IMG_ADDR_HI : Fld := ⟨.sol, 0x108, 0, 32⟩
def SOL_IMG_LEN : Fld := ⟨.sol, 0x10c, 0, 32⟩
def SOL_PARAM_ADDR_LO : Fld := ⟨.sol, 0x110, 0, 32⟩
def SOL_PARAM_ADDR_HI : Fld := ⟨.sol, 0x114, 0, 32⟩
def SOL_PARAM_TICK_LO : Fld := ⟨.sol, 0x118, 0, 32⟩
def SOL_PARAM_TICK_HI : Fld := ⟨.sol, 0x11c, 0, 32⟩
def SOL_CMD_LOAD : Fld := ⟨.sol, 0x120, 0, 1⟩
def SOL_CMD_UNLOAD : Fld := ⟨.sol, 0x120, 1, 1⟩
def SOL_CMD_PARAM : Fld := ⟨.sol, 0x120, 2, 1⟩
def SOL_CMD_STAT_STATE : Fld := ⟨.sol, 0x124, 0, 2⟩
def SOL_CMD_STAT_CODE : Fld := ⟨.sol, 0x124, 8, 8⟩
def SOL_REQ_ADDR_LO : Fld := ⟨.sol, 0x128, 0, 32⟩
def SOL_REQ_ADDR_HI : Fld := ⟨.sol, 0x12c, 0, 32⟩
def SOL_REQ_CMD_SUBMIT : Fld := ⟨.sol, 0x130, 0, 1⟩
def SOL_PIVOT_EPS_EPS_EXP : Fld := ⟨.sol, 0x134, 0, 6⟩
def SOL_PIVOT_EPS_SHIFT_EXP : Fld := ⟨.sol, 0x134, 8, 6⟩
def SOL_STAGE_LO : Fld := ⟨.sol, 0x138, 12, 20⟩
def SOL_STAGE_HI : Fld := ⟨.sol, 0x13c, 0, 5⟩
def SOL_STORE_QUOTA : Fld := ⟨.sol, 0x140, 0, 8⟩
def SOL_STORE_USED : Fld := ⟨.sol, 0x144, 0, 8⟩
def SOL_SCHED_VIEW : Fld := ⟨.sol, 0x148, 0, 32⟩
def SOL_GOV_NS : Fld := ⟨.sol, 0x200, 0, 24⟩
def SOL_STORE_FREE : Fld := ⟨.sol, 0x204, 0, 8⟩

/-! ### BL_ global page (11_buarcon_link.md) -/
def BL_MAP_CHANGES : Fld := ⟨.blg, 0x28, 0, 32⟩
def BL_MAP_LATE : Fld := ⟨.blg, 0x2c, 0, 32⟩
def BL_MAP_DEFER : Fld := ⟨.blg, 0x30, 0, 32⟩
def BL_DARK_DISCARD : Fld := ⟨.blg, 0x34, 0, 32⟩
def BL_SEQ_GAP : Fld := ⟨.blg, 0x38, 0, 32⟩
def BL_PKT_BAD : Fld := ⟨.blg, 0x3c, 0, 32⟩
def BLG_STAT_GEN : Fld := ⟨.blg, 0xc, 0, 2⟩
def BLG_STAT_LIVE : Fld := ⟨.blg, 0xc, 2, 2⟩
def BLG_INT_STAT_MAP_CHANGED : Fld := ⟨.blg, 0x10, 0, 1⟩
def BLG_INT_STAT_UNREACHABLE : Fld := ⟨.blg, 0x10, 1, 1⟩
def BLG_INT_STAT_MAP_LATE : Fld := ⟨.blg, 0x10, 2, 1⟩
def BLG_INT_STAT_CFG_REFUSED : Fld := ⟨.blg, 0x10, 3, 1⟩
def BL_NODE_NODE : Fld := ⟨.blg, 0x100, 0, 5⟩
def BL_NODE_DX : Fld := ⟨.blg, 0x100, 8, 6⟩
def BL_NODE_DY : Fld := ⟨.blg, 0x100, 16, 3⟩
def BL_CONSIST_ID : Fld := ⟨.blg, 0x104, 0, 32⟩
def BL_MAP_LEAD : Fld := ⟨.blg, 0x108, 0, 4⟩
def BL_REACH : Fld := ⟨.blg, 0x10c, 0, 32⟩
def BL_GAP_NS : Fld := ⟨.blg, 0x110, 0, 32⟩

/-! ### BL_ port page (11_buarcon_link.md) -/
def BL_CRC_ERR : Fld := ⟨.blp, 0x28, 0, 32⟩
def BL_REPLAYS : Fld := ⟨.blp, 0x2c, 0, 32⟩
def BL_SIDINGS : Fld := ⟨.blp, 0x30, 0, 32⟩
def BL_RETURNS : Fld := ⟨.blp, 0x34, 0, 32⟩
def BL_PORT_CTL_SIDE : Fld := ⟨.blp, 0x8, 0, 1⟩
def BL_PORT_CTL_LANE_SIDE : Fld := ⟨.blp, 0x8, 4, 4⟩
def BL_PORT_STAT_STATE : Fld := ⟨.blp, 0xc, 0, 3⟩
def BL_PORT_STAT_WIDTH : Fld := ⟨.blp, 0xc, 3, 3⟩
def BL_PORT_STAT_LANES_OK : Fld := ⟨.blp, 0xc, 6, 4⟩
def BL_PORT_STAT_RATE : Fld := ⟨.blp, 0xc, 10, 3⟩
def BL_PORT_STAT_REQ : Fld := ⟨.blp, 0xc, 13, 3⟩
def BL_PORT_STAT_CAUSE : Fld := ⟨.blp, 0xc, 16, 8⟩
def BL_PORT_STAT_PARTNER : Fld := ⟨.blp, 0xc, 24, 5⟩
def BLP_INT_STAT_UP : Fld := ⟨.blp, 0x10, 0, 1⟩
def BLP_INT_STAT_DARK : Fld := ⟨.blp, 0x10, 1, 1⟩
def BLP_INT_STAT_SIDED : Fld := ⟨.blp, 0x10, 2, 1⟩
def BLP_INT_STAT_CHECK_FAIL : Fld := ⟨.blp, 0x10, 3, 1⟩
def BLP_INT_STAT_WIDTH_CHANGED : Fld := ⟨.blp, 0x10, 4, 1⟩
def BLP_INT_STAT_SIDE_REFUSED : Fld := ⟨.blp, 0x10, 5, 1⟩

/-! ### CAL_ page (11_buarcon_link.md) -/
def CAL_SAT : Fld := ⟨.cal, 0x28, 0, 32⟩
def CAL_NAN : Fld := ⟨.cal, 0x2c, 0, 32⟩
def CAL_RX_REJECT : Fld := ⟨.cal, 0x30, 0, 32⟩
def CAL_TX_UNREACH : Fld := ⟨.cal, 0x34, 0, 32⟩
def CAL_WAIT_EXPIRED : Fld := ⟨.cal, 0x38, 0, 32⟩
def CAL_INT_STAT_SAT_EVENT : Fld := ⟨.cal, 0x10, 0, 1⟩
def CAL_INT_STAT_RX_REJECT : Fld := ⟨.cal, 0x10, 1, 1⟩
def CAL_INT_STAT_TX_UNREACH : Fld := ⟨.cal, 0x10, 2, 1⟩
def CAL_INT_STAT_WAIT_EXPIRED : Fld := ⟨.cal, 0x10, 3, 1⟩
def CAL_FLOW_SEL : Fld := ⟨.cal, 0x100, 0, 8⟩
def CAL_FLOW_CFG_MODE : Fld := ⟨.cal, 0x104, 0, 1⟩
def CAL_FLOW_CFG_STEPS : Fld := ⟨.cal, 0x104, 1, 5⟩
def CAL_FLOW_CFG_E0 : Fld := ⟨.cal, 0x104, 8, 8⟩
def CAL_FLOW_CFG_SAT_THR : Fld := ⟨.cal, 0x104, 16, 16⟩
def CAL_FLOW_VIEW_E : Fld := ⟨.cal, 0x108, 0, 8⟩
def CAL_FLOW_VIEW_SAT_TICK : Fld := ⟨.cal, 0x108, 8, 24⟩
def CAL_SAT_FLOW : Fld := ⟨.cal, 0x10c, 0, 8⟩

/-! ### PWR_ global page (12_power_and_governor.md) -/
def PWR_MODE_CHANGES : Fld := ⟨.pwrg, 0x28, 0, 32⟩
def PWR_GOV_SOLVES : Fld := ⟨.pwrg, 0x2c, 0, 32⟩
def PWR_GOV_FALLBACK : Fld := ⟨.pwrg, 0x30, 0, 32⟩
def PWR_CUT_TICKS : Fld := ⟨.pwrg, 0x34, 0, 32⟩
def PWR_LIMITER : Fld := ⟨.pwrg, 0x38, 0, 32⟩
def PWR_MODE_REFUSED : Fld := ⟨.pwrg, 0x3c, 0, 32⟩
def PWRG_CTL_HOST_LOCK : Fld := ⟨.pwrg, 0x8, 0, 1⟩
def PWRG_STAT_MODE : Fld := ⟨.pwrg, 0xc, 0, 3⟩
def PWRG_STAT_PENDING : Fld := ⟨.pwrg, 0xc, 3, 1⟩
def PWRG_STAT_PENDING_MODE : Fld := ⟨.pwrg, 0xc, 4, 3⟩
def PWRG_STAT_ENTERING : Fld := ⟨.pwrg, 0xc, 7, 1⟩
def PWRG_STAT_WAKING : Fld := ⟨.pwrg, 0xc, 8, 1⟩
def PWRG_STAT_CUT_NEXT : Fld := ⟨.pwrg, 0xc, 9, 1⟩
def PWRG_STAT_CAP_UNREACHABLE : Fld := ⟨.pwrg, 0xc, 10, 1⟩
def PWRG_STAT_THERMAL : Fld := ⟨.pwrg, 0xc, 11, 1⟩
def PWRG_STAT_REQ_SOURCE : Fld := ⟨.pwrg, 0xc, 12, 1⟩
def PWRG_STAT_WAIT_REASON : Fld := ⟨.pwrg, 0xc, 13, 3⟩
def PWRG_INT_STAT_MODE_CHANGED : Fld := ⟨.pwrg, 0x10, 0, 1⟩
def PWRG_INT_STAT_MODE_REFUSED : Fld := ⟨.pwrg, 0x10, 1, 1⟩
def PWRG_INT_STAT_MODE_OVERRIDDEN : Fld := ⟨.pwrg, 0x10, 2, 1⟩
def PWRG_INT_STAT_CUT : Fld := ⟨.pwrg, 0x10, 3, 1⟩
def PWRG_INT_STAT_FALLBACK : Fld := ⟨.pwrg, 0x10, 4, 1⟩
def PWRG_INT_STAT_LIMITER : Fld := ⟨.pwrg, 0x10, 5, 1⟩
def PWRG_INT_STAT_CAP_UNREACHABLE : Fld := ⟨.pwrg, 0x10, 6, 1⟩
def PWRG_INT_STAT_THERMAL : Fld := ⟨.pwrg, 0x10, 7, 1⟩
def PWRG_INT_STAT_STANDBY_READY : Fld := ⟨.pwrg, 0x10, 8, 1⟩
def PWR_MODE_REQ : Fld := ⟨.pwrg, 0x100, 0, 3⟩
def PWR_MODE_AT_LO : Fld := ⟨.pwrg, 0x104, 0, 32⟩
def PWR_MODE_AT_HI : Fld := ⟨.pwrg, 0x108, 0, 32⟩
def PWR_TRIM_CORES : Fld := ⟨.pwrg, 0x10c, 0, 6⟩
def PWR_TRIM_PORT_MASK : Fld := ⟨.pwrg, 0x10c, 8, 8⟩
def PWR_CAP_MW : Fld := ⟨.pwrg, 0x110, 0, 17⟩
def PWR_MARGIN_MW : Fld := ⟨.pwrg, 0x114, 0, 16⟩
def PWR_TJ_MAX : Fld := ⟨.pwrg, 0x118, 0, 8⟩
def PWR_THERM_CD_ALPHA : Fld := ⟨.pwrg, 0x11c, 0, 16⟩
def PWR_THERM_CD_RTH : Fld := ⟨.pwrg, 0x11c, 16, 16⟩
def PWR_AMBIENT : Fld := ⟨.pwrg, 0x120, 0, 8⟩
def PWR_ECYC : Fld := ⟨.pwrg, 0x124, 0, 16⟩
def PWR_PKG_MW : Fld := ⟨.pwrg, 0x128, 0, 17⟩
def PWR_TEMP_CD : Fld := ⟨.pwrg, 0x12c, 0, 16⟩
def PWR_TEMP_SD : Fld := ⟨.pwrg, 0x130, 0, 16⟩
def PWR_RAIL_MW : Fld := ⟨.pwrg, 0x140, 0, 17⟩

/-! ### PWR_ tenancy page (12_power_and_governor.md) -/
def PWR_FC_WRITES : Fld := ⟨.pwrt, 0x28, 0, 32⟩
def PWR_FC_FLAGGED : Fld := ⟨.pwrt, 0x2c, 0, 32⟩
def PWR_RUNS_CUT : Fld := ⟨.pwrt, 0x30, 0, 32⟩
def PWR_FC_CTL_EN : Fld := ⟨.pwrt, 0x8, 0, 1⟩
def PWRT_INT_STAT_FORECAST : Fld := ⟨.pwrt, 0x10, 0, 1⟩
def PWR_FC_ADDR_LO : Fld := ⟨.pwrt, 0x100, 12, 20⟩
def PWR_FC_ADDR_HI : Fld := ⟨.pwrt, 0x104, 0, 32⟩

/-! ### MEM_ global page (13_memory_integrity.md) -/
def MEM_CE_SRAM : Fld := ⟨.memg, 0x28, 0, 32⟩
def MEM_CE_DRAM : Fld := ⟨.memg, 0x2c, 0, 32⟩
def MEM_LINK_CE : Fld := ⟨.memg, 0x30, 0, 32⟩
def MEM_UE : Fld := ⟨.memg, 0x34, 0, 32⟩
def MEM_RMW_CE : Fld := ⟨.memg, 0x38, 0, 32⟩
def MEM_RMW_UE : Fld := ⟨.memg, 0x3c, 0, 32⟩
def MEM_PATROL_PASSES : Fld := ⟨.memg, 0x40, 0, 32⟩
def MEM_PATROL_LATE : Fld := ⟨.memg, 0x44, 0, 32⟩
def MEM_LOG_LOST : Fld := ⟨.memg, 0x48, 0, 32⟩
def MEM_EP_SENT : Fld := ⟨.memg, 0x4c, 0, 32⟩
def MEMG_CTL_LOG_CE : Fld := ⟨.memg, 0x8, 0, 1⟩
def MEMG_CTL_PATROL_EN : Fld := ⟨.memg, 0x8, 1, 1⟩
def MEMG_STAT_FATAL : Fld := ⟨.memg, 0xc, 0, 1⟩
def MEMG_STAT_SCRUB_DONE : Fld := ⟨.memg, 0xc, 1, 1⟩
def MEMG_STAT_PATROL_ACTIVE : Fld := ⟨.memg, 0xc, 2, 1⟩
def MEMG_STAT_LOG_COUNT : Fld := ⟨.memg, 0xc, 3, 9⟩
def MEMG_INT_STAT_CE : Fld := ⟨.memg, 0x10, 0, 1⟩
def MEMG_INT_STAT_UE : Fld := ⟨.memg, 0x10, 1, 1⟩
def MEMG_INT_STAT_FATAL : Fld := ⟨.memg, 0x10, 2, 1⟩
def MEMG_INT_STAT_LOG_FULL : Fld := ⟨.memg, 0x10, 3, 1⟩
def MEMG_INT_STAT_CE_STORM : Fld := ⟨.memg, 0x10, 4, 1⟩
def MEMG_INT_STAT_PATROL_UE : Fld := ⟨.memg, 0x10, 5, 1⟩
def MEM_PATROL_SRAM_S : Fld := ⟨.memg, 0x100, 0, 12⟩
def MEM_PATROL_DRAM_S : Fld := ⟨.memg, 0x104, 0, 20⟩
def MEM_CE_THR : Fld := ⟨.memg, 0x108, 0, 16⟩
def MEM_LOG_WR : Fld := ⟨.memg, 0x10c, 0, 32⟩
def MEM_LOG_RD : Fld := ⟨.memg, 0x110, 0, 32⟩
def MEM_LOG_SEL : Fld := ⟨.memg, 0x114, 0, 8⟩
def MEM_LOG_VIEW : Fld := ⟨.memg, 0x118, 0, 32⟩
def MEM_LOG_VIEW_REST : Fld := ⟨.memg, 0x11c, 0, 32⟩
def MEM_INJECT_STORE : Fld := ⟨.memg, 0x140, 0, 4⟩
def MEM_INJECT_KIND : Fld := ⟨.memg, 0x140, 4, 1⟩
def MEM_INJECT_UNIT : Fld := ⟨.memg, 0x140, 8, 6⟩
def MEM_INJECT_ARM : Fld := ⟨.memg, 0x140, 31, 1⟩

/-! ### MEM_ tenancy page (13_memory_integrity.md) -/
def MEM_T_CE : Fld := ⟨.memt, 0x28, 0, 32⟩
def MEM_T_UE : Fld := ⟨.memt, 0x2c, 0, 32⟩
def MEM_T_ROW_FAULTS : Fld := ⟨.memt, 0x30, 0, 32⟩
def MEM_T_RUN_FAULTS : Fld := ⟨.memt, 0x34, 0, 32⟩
def MEMT_INT_STAT_UE : Fld := ⟨.memt, 0x10, 0, 1⟩
def MEMT_INT_STAT_ROW_FAULT : Fld := ⟨.memt, 0x10, 1, 1⟩
def MEMT_INT_STAT_RUN_FAULT : Fld := ⟨.memt, 0x10, 2, 1⟩

/-! ### LED_ global page (14_conservation_ledger.md) -/
def LED_AUDITS : Fld := ⟨.ledg, 0x28, 0, 32⟩
def LED_IMBALANCES : Fld := ⟨.ledg, 0x2c, 0, 32⟩
def LED_STOPS : Fld := ⟨.ledg, 0x30, 0, 32⟩
def LED_PORT_DARK : Fld := ⟨.ledg, 0x34, 0, 32⟩
def LED_RECOUNT_FAIL : Fld := ⟨.ledg, 0x38, 0, 32⟩
def LEDG_STAT_LAST_OK : Fld := ⟨.ledg, 0xc, 0, 1⟩
def LEDG_STAT_FELT_AUDITED : Fld := ⟨.ledg, 0xc, 1, 1⟩
def LEDG_INT_STAT_IMBALANCE : Fld := ⟨.ledg, 0x10, 0, 1⟩
def LEDG_INT_STAT_STOP : Fld := ⟨.ledg, 0x10, 1, 1⟩
def LEDG_INT_STAT_PORT : Fld := ⟨.ledg, 0x10, 2, 1⟩
def LEDG_INT_STAT_DEVICE : Fld := ⟨.ledg, 0x10, 3, 1⟩
def LEDG_INT_STAT_RECOUNT_FAIL : Fld := ⟨.ledg, 0x10, 4, 1⟩
def LED_LAST_BOOK_BOOK : Fld := ⟨.ledg, 0x100, 0, 4⟩
def LED_LAST_BOOK_INSTANCE : Fld := ⟨.ledg, 0x100, 8, 9⟩
def LED_LAST_BOOK_TENANCY : Fld := ⟨.ledg, 0x100, 24, 8⟩
def LED_LAST_TICK_LO : Fld := ⟨.ledg, 0x104, 0, 32⟩
def LED_LAST_TICK_HI : Fld := ⟨.ledg, 0x108, 0, 32⟩
def LED_LAST_EXPECT : Fld := ⟨.ledg, 0x10c, 0, 32⟩
def LED_LAST_FOUND : Fld := ⟨.ledg, 0x110, 0, 32⟩
def LED_STOPPED_LO : Fld := ⟨.ledg, 0x114, 0, 32⟩
def LED_STOPPED_HI : Fld := ⟨.ledg, 0x118, 0, 32⟩

/-! ### LED_ tenancy page (14_conservation_ledger.md) -/
def LED_T_IMBALANCES : Fld := ⟨.ledt, 0x28, 0, 32⟩
def LEDT_STAT_STOPPED : Fld := ⟨.ledt, 0xc, 0, 1⟩
def LEDT_STAT_RECOUNT_FAILED : Fld := ⟨.ledt, 0xc, 1, 1⟩
def LEDT_STAT_BOOKS : Fld := ⟨.ledt, 0xc, 2, 8⟩
def LEDT_INT_STAT_STOP : Fld := ⟨.ledt, 0x10, 0, 1⟩
def LEDT_INT_STAT_RESUMED : Fld := ⟨.ledt, 0x10, 1, 1⟩
def LEDT_INT_STAT_RECOUNT_FAIL : Fld := ⟨.ledt, 0x10, 2, 1⟩

/-! ### ISO_ global page (15_isolation_and_access.md) -/
def ISO_DENIED : Fld := ⟨.isog, 0x28, 0, 32⟩
def ISO_FEAT_WAIT : Fld := ⟨.isog, 0x2c, 0, 32⟩
def ISO_RES_WAIT : Fld := ⟨.isog, 0x30, 0, 32⟩
def ISO_COND_LOSSES : Fld := ⟨.isog, 0x34, 0, 32⟩
def ISOG_STAT_PROMISE : Fld := ⟨.isog, 0xc, 0, 1⟩
def ISOG_STAT_FIXED : Fld := ⟨.isog, 0xc, 1, 1⟩
def ISOG_STAT_NO_CROSS : Fld := ⟨.isog, 0xc, 2, 1⟩
def ISOG_STAT_GATE_LOCKED : Fld := ⟨.isog, 0xc, 3, 1⟩
def ISOG_STAT_PARTITIONED : Fld := ⟨.isog, 0xc, 4, 1⟩
def ISOG_STAT_POWER : Fld := ⟨.isog, 0xc, 5, 1⟩
def ISOG_STAT_HORIZON : Fld := ⟨.isog, 0xc, 6, 1⟩
def ISOG_STAT_RESULTS : Fld := ⟨.isog, 0xc, 7, 1⟩
def ISOG_INT_STAT_COND_LOST : Fld := ⟨.isog, 0x10, 0, 1⟩
def ISOG_INT_STAT_COND_HELD : Fld := ⟨.isog, 0x10, 1, 1⟩
def ISOG_INT_STAT_RES_REFUSED : Fld := ⟨.isog, 0x10, 2, 1⟩
def ISO_RES_FREE : Fld := ⟨.isog, 0x100, 0, 9⟩

/-! ### ISO_ tenancy page (15_isolation_and_access.md) -/
def ISO_T_PAGE_DENIED : Fld := ⟨.isot, 0x28, 0, 32⟩
def ISO_T_DB_DENIED : Fld := ⟨.isot, 0x2c, 0, 32⟩
def ISO_T_ACCESS : Fld := ⟨.isot, 0x30, 0, 32⟩
def ISO_T_FEAT_WAIT : Fld := ⟨.isot, 0x34, 0, 32⟩
def ISO_T_RES_WAIT : Fld := ⟨.isot, 0x38, 0, 32⟩
def ISOT_INT_STAT_DENIED : Fld := ⟨.isot, 0x10, 0, 1⟩
def ISO_RES_RESERVE : Fld := ⟨.isot, 0x100, 0, 9⟩
def ISO_RES_USED : Fld := ⟨.isot, 0x104, 0, 9⟩

/-! ### DBG_ gate page (15_isolation_and_access.md) -/
def DBG_FAILS : Fld := ⟨.dbgg, 0x28, 0, 32⟩
def DBG_OPENINGS : Fld := ⟨.dbgg, 0x2c, 0, 32⟩
def DBG_WIN_ACCESSES : Fld := ⟨.dbgg, 0x30, 0, 32⟩
def DBGG_STAT_OPEN : Fld := ⟨.dbgg, 0xc, 0, 16⟩
def DBGG_STAT_NONCE : Fld := ⟨.dbgg, 0xc, 16, 1⟩
def DBGG_STAT_PENDING : Fld := ⟨.dbgg, 0xc, 17, 1⟩
def DBGG_STAT_LOCKOUT : Fld := ⟨.dbgg, 0xc, 18, 1⟩
def DBGG_STAT_SOURCE : Fld := ⟨.dbgg, 0xc, 19, 1⟩
def DBGG_STAT_CODE : Fld := ⟨.dbgg, 0xc, 24, 8⟩
def DBGG_INT_STAT_OPENED : Fld := ⟨.dbgg, 0x10, 0, 1⟩
def DBGG_INT_STAT_CLOSED : Fld := ⟨.dbgg, 0x10, 1, 1⟩
def DBGG_INT_STAT_REFUSED : Fld := ⟨.dbgg, 0x10, 2, 1⟩
def DBG_REQ_SCOPE : Fld := ⟨.dbgg, 0x100, 0, 16⟩
def DBG_REQ_KEY_SLOT : Fld := ⟨.dbgg, 0x100, 16, 2⟩
def DBG_CMD_CHALLENGE : Fld := ⟨.dbgg, 0x104, 0, 1⟩
def DBG_CMD_RESPOND : Fld := ⟨.dbgg, 0x104, 1, 1⟩
def DBG_CMD_CLOSE : Fld := ⟨.dbgg, 0x104, 2, 1⟩
def DBG_KEY_STAT_SLOTS : Fld := ⟨.dbgg, 0x108, 0, 8⟩
def DBG_CHAL : Fld := ⟨.dbgg, 0x140, 0, 32⟩
def DBG_SIG : Fld := ⟨.dbgg, 0x180, 0, 32⟩

/-! ### DBG_ window page (15_isolation_and_access.md) -/
def DBG_WIN_TARGET_STORE : Fld := ⟨.dbgw, 0x100, 0, 4⟩
def DBG_WIN_TARGET_UNIT : Fld := ⟨.dbgw, 0x100, 8, 6⟩
def DBG_WIN_ADDR_LO : Fld := ⟨.dbgw, 0x104, 0, 32⟩
def DBG_WIN_ADDR_HI : Fld := ⟨.dbgw, 0x108, 0, 32⟩
def DBG_WIN_CMD_READ : Fld := ⟨.dbgw, 0x10c, 0, 1⟩
def DBG_WIN_CMD_WRITE : Fld := ⟨.dbgw, 0x10c, 1, 1⟩
def DBG_WIN_STAT_BUSY : Fld := ⟨.dbgw, 0x110, 0, 1⟩
def DBG_WIN_STAT_POISON : Fld := ⟨.dbgw, 0x110, 1, 1⟩
def DBG_WIN_DATA : Fld := ⟨.dbgw, 0x140, 0, 32⟩
def DBG_HALT_LO : Fld := ⟨.dbgw, 0x180, 0, 32⟩
def DBG_HALT_HI : Fld := ⟨.dbgw, 0x184, 0, 32⟩
def DBG_TRACE_WR : Fld := ⟨.dbgw, 0x190, 0, 32⟩
def DBG_TRACE_SEL : Fld := ⟨.dbgw, 0x194, 0, 8⟩
def DBG_TRACE_VIEW : Fld := ⟨.dbgw, 0x198, 0, 32⟩
def DBG_TRACE_VIEW_REST : Fld := ⟨.dbgw, 0x19c, 0, 32⟩

/-! ### BL_ tenancy page (11_buarcon_link.md) -/
def BL_XFERS : Fld := ⟨.blt, 0x28, 0, 32⟩
def BL_XFER_FAILS : Fld := ⟨.blt, 0x2c, 0, 32⟩
def BLT_INT_STAT_XFER_DONE : Fld := ⟨.blt, 0x10, 0, 1⟩
def BLT_INT_STAT_XFER_FAIL : Fld := ⟨.blt, 0x10, 1, 1⟩
def BLT_INT_STAT_RX_DONE : Fld := ⟨.blt, 0x10, 2, 1⟩
def BL_XFER_SRC_LO : Fld := ⟨.blt, 0x100, 0, 32⟩
def BL_XFER_SRC_HI : Fld := ⟨.blt, 0x104, 0, 32⟩
def BL_XFER_NODE : Fld := ⟨.blt, 0x108, 0, 5⟩
def BL_XFER_OFF : Fld := ⟨.blt, 0x10c, 0, 32⟩
def BL_XFER_LEN : Fld := ⟨.blt, 0x110, 0, 25⟩
def BL_XFER_CMD_START : Fld := ⟨.blt, 0x114, 0, 1⟩
def BL_XFER_STAT_STATE : Fld := ⟨.blt, 0x118, 0, 2⟩
def BL_XFER_STAT_CODE : Fld := ⟨.blt, 0x118, 8, 8⟩
def BL_RXWIN_LO : Fld := ⟨.blt, 0x11c, 0, 32⟩
def BL_RXWIN_HI : Fld := ⟨.blt, 0x120, 0, 32⟩
def BL_RXWIN_SIZE : Fld := ⟨.blt, 0x124, 0, 20⟩
def BL_RX_LAST : Fld := ⟨.blt, 0x128, 0, 5⟩

/-! ### SB_ page (16_management_plane.md) -/
def SB_MGMT_ACCEPTED : Fld := ⟨.sb, 0x28, 0, 32⟩
def SB_MGMT_REFUSED : Fld := ⟨.sb, 0x2c, 0, 32⟩
def SB_STALE : Fld := ⟨.sb, 0x30, 0, 32⟩
def SB_DISAGREE : Fld := ⟨.sb, 0x34, 0, 32⟩
def SB_TEARDOWNS : Fld := ⟨.sb, 0x38, 0, 32⟩
def SB_FW_ACTIVATIONS : Fld := ⟨.sb, 0x3c, 0, 32⟩
def SB_RESTARTS : Fld := ⟨.sb, 0x40, 0, 32⟩
def SB_STAT_STAGE : Fld := ⟨.sb, 0xc, 0, 3⟩
def SB_STAT_RESTARTING : Fld := ⟨.sb, 0xc, 3, 1⟩
def SB_STAT_UPDATE_ACTIVE : Fld := ⟨.sb, 0xc, 4, 1⟩
def SB_STAT_ACTIVATION_PENDING : Fld := ⟨.sb, 0xc, 5, 1⟩
def SB_STAT_ROLLED_BACK : Fld := ⟨.sb, 0xc, 6, 1⟩
def SB_STAT_TRANSPORT : Fld := ⟨.sb, 0xc, 7, 2⟩
def SB_STAT_EID_ASSIGNED : Fld := ⟨.sb, 0xc, 9, 1⟩
def SB_INT_STAT_MGMT_APPLIED : Fld := ⟨.sb, 0x10, 0, 1⟩
def SB_INT_STAT_MGMT_REFUSED : Fld := ⟨.sb, 0x10, 1, 1⟩
def SB_INT_STAT_DISAGREE : Fld := ⟨.sb, 0x10, 2, 1⟩
def SB_INT_STAT_TEARDOWN : Fld := ⟨.sb, 0x10, 3, 1⟩
def SB_INT_STAT_FW_STAGED : Fld := ⟨.sb, 0x10, 4, 1⟩
def SB_INT_STAT_SB_RESTART : Fld := ⟨.sb, 0x10, 5, 1⟩
def SB_INT_STAT_CAP_CHANGED : Fld := ⟨.sb, 0x10, 6, 1⟩
def SB_FW_RUN : Fld := ⟨.sb, 0x100, 0, 32⟩
def SB_FW_STAGED : Fld := ⟨.sb, 0x10c, 0, 32⟩
def SB_ANTIROLLBACK_SB : Fld := ⟨.sb, 0x118, 0, 8⟩
def SB_ANTIROLLBACK_SD : Fld := ⟨.sb, 0x118, 8, 8⟩
def SB_ANTIROLLBACK_CD : Fld := ⟨.sb, 0x118, 16, 8⟩
def SB_EPOCH_LO : Fld := ⟨.sb, 0x11c, 0, 32⟩
def SB_EPOCH_HI : Fld := ⟨.sb, 0x120, 0, 16⟩
def SB_LAST_CMD_OPCODE : Fld := ⟨.sb, 0x124, 0, 8⟩
def SB_LAST_CMD_RESULT : Fld := ⟨.sb, 0x124, 8, 8⟩
def SB_LAST_CMD_KIND : Fld := ⟨.sb, 0x124, 16, 3⟩
def SB_LAST_UNIT : Fld := ⟨.sb, 0x128, 0, 13⟩
def SB_LAST_GEN_SENT : Fld := ⟨.sb, 0x12c, 0, 32⟩
def SB_LAST_GEN_FOUND : Fld := ⟨.sb, 0x130, 0, 32⟩
def SB_EID_EID : Fld := ⟨.sb, 0x134, 0, 8⟩
def SB_EID_I3C_ADDR : Fld := ⟨.sb, 0x134, 8, 7⟩
def SB_EID_SMB_ADDR : Fld := ⟨.sb, 0x134, 16, 7⟩

/-- PAGE_ID [INSTANCE] of the common header of page `p` (R691, R723). -/
def hdrInstance (p : Page) : Fld := ⟨p, 0x0, 0, 16⟩
/-- PAGE_ID [TYPE] of the common header of page `p` (R691, R723). -/
def hdrType (p : Page) : Fld := ⟨p, 0x0, 16, 16⟩
/-- PAGE_VER [VERSION] of the common header of page `p` (R691, R723). -/
def hdrVersion (p : Page) : Fld := ⟨p, 0x4, 0, 16⟩
/-- INT_EN [EN] of the common header of page `p` (R691, R723). -/
def hdrIntEn (p : Page) : Fld := ⟨p, 0x14, 0, 32⟩
/-- INT_FORCE [FORCE] of the common header of page `p` (R691, R723). -/
def hdrIntForce (p : Page) : Fld := ⟨p, 0x18, 0, 32⟩
/-- SHADOW_CTL [APPLY] of the common header of page `p` (R691, R723). -/
def hdrApply (p : Page) : Fld := ⟨p, 0x1c, 0, 1⟩
/-- SHADOW_CTL [ABANDON] of the common header of page `p` (R691, R723). -/
def hdrAbandon (p : Page) : Fld := ⟨p, 0x1c, 1, 1⟩
/-- SHADOW_CTL [HOLD] of the common header of page `p` (R691, R723). -/
def hdrHold (p : Page) : Fld := ⟨p, 0x1c, 2, 1⟩
/-- SHADOW_CTL [PENDING] of the common header of page `p` (R691, R723). -/
def hdrPending (p : Page) : Fld := ⟨p, 0x1c, 8, 1⟩
/-- GEN [GEN] of the common header of page `p` (R691, R723). -/
def hdrGen (p : Page) : Fld := ⟨p, 0x20, 0, 32⟩
/-- TENANCY [TENANCY] of the common header of page `p` (R691, R723). -/
def hdrTenancy (p : Page) : Fld := ⟨p, 0x24, 0, 6⟩

def rowsPkgi : List FieldRow := [
  { fld := PKG_DEVICE, acc := .ro },
  { fld := PKG_STEPPING_DIGIT, acc := .ro },
  { fld := PKG_STEPPING_LETTER, acc := .ro, reset := 11 },
  { fld := PKG_ORDER, acc := .ro },
  { fld := PKG_DRAM_MIB, acc := .ro },
  { fld := PKG_SELF_FUNCTION, acc := .ro },
  { fld := PKG_SELF_SB, acc := .ro }]

def rowsHt : List FieldRow := [
  { fld := HT_PPS_EDGES, acc := .ro },
  { fld := HT_PPS_SPURIOUS, acc := .ro },
  { fld := HT_PPS_MISSING, acc := .ro },
  { fld := HT_TOD_REFUSED, acc := .ro },
  { fld := HT_TOD_CONFIRMS, acc := .ro },
  { fld := HT_LOCK_LOSSES, acc := .ro },
  { fld := HT_CTL_PPS_EN, acc := .rw },
  { fld := HT_CTL_PPS_FALL, acc := .rw },
  { fld := HT_STAT_STATE, acc := .ro },
  { fld := HT_STAT_EVER_LOCKED, acc := .ro },
  { fld := HT_STAT_TOD_PENDING, acc := .ro },
  { fld := HT_STAT_ARM_SOURCE, acc := .ro },
  { fld := HT_STAT_SLEWING, acc := .ro },
  { fld := HT_STAT_REF_OK, acc := .ro },
  { fld := HT_INT_STAT_LOCKED, acc := .w1c },
  { fld := HT_INT_STAT_LOCK_LOST, acc := .w1c },
  { fld := HT_INT_STAT_HOLDOVER, acc := .w1c },
  { fld := HT_INT_STAT_FREERUN, acc := .w1c },
  { fld := HT_INT_STAT_PPS_SPURIOUS, acc := .w1c },
  { fld := HT_INT_STAT_TOD_APPLIED, acc := .w1c },
  { fld := HT_INT_STAT_TOD_REFUSED, acc := .w1c },
  { fld := HT_INT_STAT_TOD_OVERRIDDEN, acc := .w1c },
  { fld := HT_INT_STAT_REF_LOST, acc := .w1c },
  { fld := HT_LOOP_KP_SHIFT, acc := .rw, reset := 1, lim := some (0, 4) },
  { fld := HT_LOOP_KI_SHIFT, acc := .rw, reset := 4, lim := some (2, 8) },
  { fld := HT_LOCK_LOCK_NS, acc := .rw, reset := 50 },
  { fld := HT_LOCK_LOCK_CNT, acc := .rw, reset := 8, lim := some (1, 255) },
  { fld := HT_SLEW_MAX, acc := .rw, reset := 100000, lim := some (1, 200000) },
  { fld := HT_PPS_WIN, acc := .rw, reset := 10000 },
  { fld := HT_PPS_DELAY, acc := .rw },
  { fld := HT_HOLD_DRIFT, acc := .rw, reset := 10 },
  { fld := HT_HOLD_MAX_NS, acc := .rw, reset := 100000 },
  { fld := HT_CNT_LO, acc := .ro },
  { fld := HT_CNT_HI, acc := .rol },
  { fld := HT_TOD_NS, acc := .rol },
  { fld := HT_TOD_SEC_LO, acc := .rol },
  { fld := HT_TOD_SEC_HI, acc := .rol },
  { fld := HT_PHASE_ERR, acc := .ro },
  { fld := HT_FREQ_ADJ, acc := .ro },
  { fld := HT_HOLD_BOUND_NS, acc := .ro },
  { fld := HT_HOLD_SECONDS, acc := .ro },
  { fld := HT_STAGE_SEC_LO, acc := .rw },
  { fld := HT_STAGE_SEC_HI, acc := .rw },
  { fld := HT_TOD_ARM, acc := .w1s },
  { fld := HT_UTC_OFFSET, acc := .rw },
  { fld := HT_PPS_CAP_LO, acc := .ro },
  { fld := HT_PPS_CAP_HI, acc := .rol }]

def rowsTt : List FieldRow := [
  { fld := TT_MISS_TOTAL, acc := .ro },
  { fld := TT_MISS_INTAKE, acc := .ro },
  { fld := TT_MISS_RUN, acc := .ro },
  { fld := TT_OVERRUN, acc := .ro },
  { fld := TT_LATE_INTAKE, acc := .ro },
  { fld := TT_IMG_REFUSED, acc := .ro },
  { fld := TT_CTL_ENABLE, acc := .rwt },
  { fld := TT_STAT_RUNNING, acc := .ro },
  { fld := TT_STAT_IMG_ACTIVE, acc := .ro },
  { fld := TT_STAT_IMG_PENDING, acc := .ro },
  { fld := TT_STAT_MODE, acc := .ro },
  { fld := TT_STAT_PERIOD, acc := .ro, reset := 1 },
  { fld := TT_STAT_CYCLE, acc := .ro },
  { fld := TT_INT_STAT_TICK, acc := .w1c },
  { fld := TT_INT_STAT_DEADLINE_MISS, acc := .w1c },
  { fld := TT_INT_STAT_OVERRUN, acc := .w1c },
  { fld := TT_INT_STAT_IMG_ACTIVATED, acc := .w1c },
  { fld := TT_INT_STAT_IMG_REFUSED, acc := .w1c },
  { fld := TT_INT_STAT_LATE_INTAKE, acc := .w1c },
  { fld := TT_INT_STAT_PERIOD_REFUSED, acc := .w1c },
  { fld := TT_PERIOD, acc := .rw, reset := 1 },
  { fld := TT_INTAKE_SLOT, acc := .rwt, reset := 16 },
  { fld := TT_TICK_LO, acc := .ro },
  { fld := TT_TICK_HI, acc := .rol },
  { fld := TT_TICK_INDEX, acc := .rol },
  { fld := TT_IMG_ADDR_LO, acc := .rw },
  { fld := TT_IMG_ADDR_HI, acc := .rw },
  { fld := TT_IMG_LEN, acc := .rw, lim := some (0, 139456) },
  { fld := TT_IMG_AT_LO, acc := .rw },
  { fld := TT_IMG_AT_HI, acc := .rw },
  { fld := TT_IMG_CMD_LOAD, acc := .w1s },
  { fld := TT_IMG_CMD_ABANDON, acc := .w1s },
  { fld := TT_IMG_STAT_STATE, acc := .ro },
  { fld := TT_IMG_STAT_ERROR, acc := .ro },
  { fld := TT_IMG_ACTIVE_ID, acc := .ro },
  { fld := TT_OWNER, acc := .ro, n := 16, reset := 4294967295 },
  { fld := TT_LOWNER, acc := .ro, n := 16, reset := 4294967295 },
  { fld := TT_MISS, acc := .ro, n := 64 }]

def rowsPkgb : List FieldRow := [
  { fld := PKG_BOOT_COUNT, acc := .ro },
  { fld := PKG_PERSTS, acc := .ro },
  { fld := PKG_HOT_RESETS, acc := .ro },
  { fld := PKG_FLRS, acc := .ro },
  { fld := PKGB_STAT_SD_READY, acc := .ro, reset := 1 },
  { fld := PKGB_STAT_DRAM_READY, acc := .ro },
  { fld := PKGB_STAT_CD_READY, acc := .ro },
  { fld := PKGB_STAT_BOOT_FAILED, acc := .ro },
  { fld := PKGB_INT_STAT_CD_READY, acc := .w1c },
  { fld := PKGB_INT_STAT_BOOT_FAILED, acc := .w1c },
  { fld := PKGB_INT_STAT_HOST_RESET_DONE, acc := .w1c },
  { fld := PKG_RESET_CAUSE, acc := .ro, reset := 1 },
  { fld := PKG_STRAPS_SB_BUS, acc := .ro },
  { fld := PKG_STRAPS_SMB_ADDR, acc := .ro },
  { fld := PKG_STRAPS_RECOVERY, acc := .ro },
  { fld := PKG_STRAPS_TEST, acc := .ro },
  { fld := PKG_BOOT_ERR_CODE, acc := .ro },
  { fld := PKG_BOOT_ERR_CHANNELS, acc := .ro },
  { fld := PKG_T_RELEASE, acc := .ro },
  { fld := PKG_T_SD_READY, acc := .ro },
  { fld := PKG_T_SCRUB_DONE, acc := .ro },
  { fld := PKG_T_CD_READY, acc := .ro }]

def rowsStr : List FieldRow := [
  { fld := STR_ADMITS, acc := .ro },
  { fld := STR_REFUSED, acc := .ro },
  { fld := STR_STALE, acc := .ro },
  { fld := STR_FAULTS, acc := .ro },
  { fld := STR_WAKES, acc := .ro },
  { fld := STR_PROMOTIONS, acc := .ro },
  { fld := STR_EXPORTS, acc := .ro },
  { fld := STR_IMPORTS, acc := .ro },
  { fld := STR_STOP_NOOP, acc := .ro },
  { fld := STR_START_CANCELLED, acc := .ro },
  { fld := STR_SKIPPED, acc := .ro },
  { fld := STR_CTL_AUTO_PROMOTE_EN, acc := .rwt, reset := 1 },
  { fld := STR_STAT_RANGE_VALID, acc := .ro },
  { fld := STR_INT_STAT_WAKE, acc := .w1c },
  { fld := STR_INT_STAT_FAULT, acc := .w1c },
  { fld := STR_INT_STAT_STALE, acc := .w1c },
  { fld := STR_INT_STAT_REFUSED, acc := .w1c },
  { fld := STR_INT_STAT_DRAIN_DONE, acc := .w1c },
  { fld := STR_INT_STAT_EXPORT_DONE, acc := .w1c },
  { fld := STR_INT_STAT_IMPORT_DONE, acc := .w1c },
  { fld := STR_INT_STAT_TEARDOWN, acc := .w1c },
  { fld := STR_INT_STAT_REEL_CLIPPED, acc := .w1c },
  { fld := STR_INT_STAT_RANGE_REFUSED, acc := .w1c },
  { fld := STR_RANGE_BASE, acc := .rwt, own := .fn0 },
  { fld := STR_RANGE_COUNT, acc := .rwt, lim := some (0, 8192), own := .fn0 },
  { fld := STR_OCC_RUN_LISTEN, acc := .ro },
  { fld := STR_OCC_RUN_TRANSCRIBE, acc := .ro },
  { fld := STR_OCC_OTHER_PARKED, acc := .ro },
  { fld := STR_OCC_OTHER_FAULTED, acc := .ro },
  { fld := STR_SEL, acc := .rw },
  { fld := STR_VIEW_STATE_STATE, acc := .ro },
  { fld := STR_VIEW_STATE_HOLDER, acc := .ro },
  { fld := STR_VIEW_STATE_CUR, acc := .ro },
  { fld := STR_VIEW_STATE_HELD, acc := .ro },
  { fld := STR_VIEW_STATE_CATCHUP, acc := .ro },
  { fld := STR_VIEW_STATE_FAULT, acc := .ro },
  { fld := STR_VIEW_STATE_OUT_OF_RANGE, acc := .ro },
  { fld := STR_VIEW_EPOCH, acc := .rol },
  { fld := STR_VIEW_NEXT_LO, acc := .rol },
  { fld := STR_VIEW_NEXT_HI, acc := .rol },
  { fld := STR_VIEW_MISS, acc := .rol },
  { fld := STR_LAST_REFUSE_SLOT, acc := .ro },
  { fld := STR_LAST_REFUSE_CODE, acc := .ro },
  { fld := STR_IMG_BASE_LO, acc := .rw, own := .fn0 },
  { fld := STR_IMG_BASE_HI, acc := .rw, own := .fn0 },
  { fld := STR_IMG_SIZE, acc := .rw, own := .fn0 }]

def rowsFe : List FieldRow := [
  { fld := FE_GAP_FRAMES, acc := .ro },
  { fld := FE_OVERLAP_FRAMES, acc := .ro },
  { fld := FE_LATE_FRAMES, acc := .ro },
  { fld := FE_FLOAT_FIXED, acc := .ro },
  { fld := FE_RECENTRES, acc := .ro },
  { fld := FE_CLOCK_FORBIDDEN, acc := .ro },
  { fld := FE_LOCK_LOSSES, acc := .ro },
  { fld := FE_REEL_POISON, acc := .ro },
  { fld := FE_REPLAY_ZERO, acc := .ro },
  { fld := FE_BEAM_REFUSED, acc := .ro },
  { fld := FE_STAT_REEL_AREA_VALID, acc := .ro },
  { fld := FE_STAT_BEAM_BUSY, acc := .ro },
  { fld := FE_INT_STAT_LOCK_LOST, acc := .w1c },
  { fld := FE_INT_STAT_RECENTRE, acc := .w1c },
  { fld := FE_INT_STAT_CLOCK_FORBIDDEN, acc := .w1c },
  { fld := FE_INT_STAT_GAP, acc := .w1c },
  { fld := FE_INT_STAT_LATE_FRAMES, acc := .w1c },
  { fld := FE_INT_STAT_FLOAT_FIXED, acc := .w1c },
  { fld := FE_INT_STAT_BEAM_DONE, acc := .w1c },
  { fld := FE_INT_STAT_BEAM_REFUSED, acc := .w1c },
  { fld := FE_INT_STAT_REEL_POISON, acc := .w1c },
  { fld := FE_INT_STAT_REEL_CFG_REFUSED, acc := .w1c },
  { fld := FE_LOOP_KP_SHIFT, acc := .rwt, reset := 4, lim := some (1, 8) },
  { fld := FE_LOOP_KI_SHIFT, acc := .rwt, reset := 10, lim := some (4, 16) },
  { fld := FE_LOCK_THR, acc := .rwt, reset := 128 },
  { fld := FE_LOCK_CNT, acc := .rwt, reset := 50, lim := some (1, 255) },
  { fld := FE_SLEW_RANGE_PPM, acc := .rwt, reset := 1000, lim := some (1, 4000) },
  { fld := FE_SLEW_STEP_PPM, acc := .rwt, reset := 20, lim := some (1, 1000) },
  { fld := FE_SEL, acc := .rw },
  { fld := FE_VIEW_CLK_MODE, acc := .ro },
  { fld := FE_VIEW_CLK_LOCK, acc := .ro },
  { fld := FE_VIEW_CLK_SLEWING, acc := .ro },
  { fld := FE_VIEW_CLK_OUT_OF_RANGE, acc := .ro },
  { fld := FE_VIEW_RATIO_LO, acc := .rol },
  { fld := FE_VIEW_RATIO_HI, acc := .rol },
  { fld := FE_VIEW_LEVEL, acc := .rol },
  { fld := FE_VIEW_INTEG_LO, acc := .rol },
  { fld := FE_VIEW_INTEG_HI, acc := .rol },
  { fld := FE_VIEW_DRIFT, acc := .rol },
  { fld := FE_VIEW_REEL, acc := .rol, n := 8 },
  { fld := FE_BEAM_SLOT, acc := .rw },
  { fld := FE_BEAM_ADDR_LO, acc := .rw },
  { fld := FE_BEAM_ADDR_HI_ADDR_HI, acc := .rw },
  { fld := FE_BEAM_ADDR_HI_SPACE, acc := .rw },
  { fld := FE_BEAM_TICK_LO, acc := .rw },
  { fld := FE_BEAM_TICK_HI, acc := .rw },
  { fld := FE_BEAM_CMD_BIND, acc := .w1s },
  { fld := FE_BEAM_STAT_STATE, acc := .ro },
  { fld := FE_BEAM_STAT_CODE, acc := .ro },
  { fld := FE_REEL_BASE_LO, acc := .rw },
  { fld := FE_REEL_BASE_HI, acc := .rw },
  { fld := FE_REEL_SIZE, acc := .rw },
  { fld := FE_REEL_USED, acc := .ro }]

def rowsApt : List FieldRow := [
  { fld := APT_FRAMES, acc := .ro },
  { fld := APT_DROP_MALFORMED, acc := .ro },
  { fld := APT_DROP_OVERRUN, acc := .ro },
  { fld := APT_OUT_UNDERRUN, acc := .ro },
  { fld := APT_BLOCKS, acc := .ro },
  { fld := APT_SUPERSEDED, acc := .ro },
  { fld := APT_START_NOOP, acc := .ro },
  { fld := APT_STOP_NOOP, acc := .ro },
  { fld := APT_ZC_TIMEOUTS, acc := .ro },
  { fld := APT_STAT_STATE, acc := .ro },
  { fld := APT_STAT_MASTER, acc := .ro },
  { fld := APT_STAT_CLK_OK, acc := .ro },
  { fld := APT_STAT_STANDBY_STOPPED, acc := .ro },
  { fld := APT_STAT_GATES, acc := .ro },
  { fld := APT_STAT_PENDING, acc := .ro },
  { fld := APT_INT_STAT_STARTED, acc := .w1c },
  { fld := APT_INT_STAT_STOPPED, acc := .w1c },
  { fld := APT_INT_STAT_MALFORMED, acc := .w1c },
  { fld := APT_INT_STAT_OVERRUN, acc := .w1c },
  { fld := APT_INT_STAT_OUT_UNDERRUN, acc := .w1c },
  { fld := APT_INT_STAT_ZC_TIMEOUT, acc := .w1c },
  { fld := APT_INT_STAT_SUPERSEDED, acc := .w1c },
  { fld := APT_INT_STAT_NOOP, acc := .w1c },
  { fld := APT_INT_STAT_SWITCHED, acc := .w1c },
  { fld := APT_INT_STAT_CFG_REFUSED, acc := .w1c },
  { fld := APT_INT_STAT_CMD_FULL, acc := .w1c },
  { fld := APT_CFG_MASTER, acc := .rwt },
  { fld := APT_CFG_JUSTIFY, acc := .rw },
  { fld := APT_CFG_WIDTH, acc := .rw, lim := some (0, 2) },
  { fld := APT_CFG_RATE, acc := .rw, reset := 1, lim := some (0, 6) },
  { fld := APT_CFG_BLOCK, acc := .rwt, reset := 1 },
  { fld := APT_LINES_DIR0, acc := .rw, lim := some (0, 2) },
  { fld := APT_LINES_DIR1, acc := .rw, lim := some (0, 2) },
  { fld := APT_LINES_DIR2, acc := .rw, lim := some (0, 2) },
  { fld := APT_LINES_DIR3, acc := .rw, lim := some (0, 2) },
  { fld := APT_OUT_SRC0, acc := .rw },
  { fld := APT_OUT_THRU0, acc := .rw },
  { fld := APT_OUT_OUT1, acc := .rw },
  { fld := APT_OUT_OUT2, acc := .rw },
  { fld := APT_OUT_OUT3, acc := .rw },
  { fld := APT_SLOTMASK, acc := .rwt },
  { fld := APT_CHANNELS, acc := .ro },
  { fld := APT_ZC, acc := .rwt, reset := 256, lim := some (1, 4095) },
  { fld := APT_CMD_AT_LO, acc := .rw },
  { fld := APT_CMD_AT_HI, acc := .rw },
  { fld := APT_CMD_START, acc := .w1s },
  { fld := APT_CMD_STOP, acc := .w1s },
  { fld := APT_CMD_FLUSH, acc := .w1s },
  { fld := APT_STAMP_LO, acc := .ro },
  { fld := APT_STAMP_HI, acc := .rol },
  { fld := APT_BLOCK_LO, acc := .rol },
  { fld := APT_BLOCK_HI, acc := .rol },
  { fld := APT_RATE_MEAS, acc := .ro }]

def rowsIxp : List FieldRow := [
  { fld := IXP_FRAMES, acc := .ro },
  { fld := IXP_DROP_MALFORMED, acc := .ro },
  { fld := IXP_DROP_OVERRUN, acc := .ro },
  { fld := IXP_BLOCKS, acc := .ro },
  { fld := IXP_SHORT_BLOCKS, acc := .ro },
  { fld := IXP_INVALID, acc := .ro },
  { fld := IXP_NONPCM_FRAMES, acc := .ro },
  { fld := IXP_CRCC_ERR, acc := .ro },
  { fld := IXP_CSQ_LOST, acc := .ro },
  { fld := IXP_SUPERSEDED, acc := .ro },
  { fld := IXP_START_NOOP, acc := .ro },
  { fld := IXP_STOP_NOOP, acc := .ro },
  { fld := IXP_ZC_TIMEOUTS, acc := .ro },
  { fld := IXP_OUT_UNDERRUN, acc := .ro },
  { fld := IXP_STAT_STATE, acc := .ro },
  { fld := IXP_STAT_RX_LOCK, acc := .ro },
  { fld := IXP_STAT_PRO, acc := .ro },
  { fld := IXP_STAT_NON_PCM, acc := .ro },
  { fld := IXP_STAT_STANDBY_STOPPED, acc := .ro },
  { fld := IXP_STAT_TX_ACTIVE, acc := .ro },
  { fld := IXP_STAT_GATES, acc := .ro },
  { fld := IXP_STAT_PENDING, acc := .ro },
  { fld := IXP_INT_STAT_STARTED, acc := .w1c },
  { fld := IXP_INT_STAT_STOPPED, acc := .w1c },
  { fld := IXP_INT_STAT_MALFORMED, acc := .w1c },
  { fld := IXP_INT_STAT_LOCK, acc := .w1c },
  { fld := IXP_INT_STAT_LOCK_LOST, acc := .w1c },
  { fld := IXP_INT_STAT_CS_CHANGED, acc := .w1c },
  { fld := IXP_INT_STAT_CRCC_ERR, acc := .w1c },
  { fld := IXP_INT_STAT_CSQ_LOST, acc := .w1c },
  { fld := IXP_INT_STAT_ZC_TIMEOUT, acc := .w1c },
  { fld := IXP_INT_STAT_SUPERSEDED, acc := .w1c },
  { fld := IXP_INT_STAT_NOOP, acc := .w1c },
  { fld := IXP_INT_STAT_CFG_REFUSED, acc := .w1c },
  { fld := IXP_INT_STAT_CMD_FULL, acc := .w1c },
  { fld := IXP_INT_STAT_RATE_MISMATCH, acc := .w1c },
  { fld := IXP_INT_STAT_OVERRUN, acc := .w1c },
  { fld := IXP_INT_STAT_OUT_UNDERRUN, acc := .w1c },
  { fld := IXP_CFG_RATE, acc := .rw, reset := 6, lim := some (0, 6) },
  { fld := IXP_CFG_VPOL, acc := .rw },
  { fld := IXP_CFG_TX_SRC, acc := .rw, lim := some (0, 2) },
  { fld := IXP_CFG_CSQ_MODE, acc := .rw },
  { fld := IXP_SLOTMASK, acc := .rwt },
  { fld := IXP_ZC, acc := .rwt, reset := 256, lim := some (1, 4095) },
  { fld := IXP_CMD_AT_LO, acc := .rw },
  { fld := IXP_CMD_AT_HI, acc := .rw },
  { fld := IXP_CMD_START, acc := .w1s },
  { fld := IXP_CMD_STOP, acc := .w1s },
  { fld := IXP_CMD_FLUSH, acc := .w1s },
  { fld := IXP_STAMP_LO, acc := .ro },
  { fld := IXP_STAMP_HI, acc := .rol },
  { fld := IXP_BLOCK_LO, acc := .rol },
  { fld := IXP_BLOCK_HI, acc := .rol },
  { fld := IXP_RATE_MEAS, acc := .ro },
  { fld := IXP_CSQ_BASE_LO, acc := .rw },
  { fld := IXP_CSQ_BASE_HI, acc := .rw },
  { fld := IXP_CSQ_CFG, acc := .rw, reset := 4, lim := some (4, 10) },
  { fld := IXP_CSQ_DEV_IDX, acc := .ro },
  { fld := IXP_CSQ_HOST_IDX, acc := .rw },
  { fld := IXP_CS_A, acc := .ro },
  { fld := IXP_CS_A_REST, acc := .rol, n := 5 },
  { fld := IXP_CS_B, acc := .rol, n := 6 },
  { fld := IXP_TX_CS, acc := .rw, n := 6 }]

def rowsCore : List FieldRow := [
  { fld := CORE_RUNS, acc := .ro },
  { fld := CORE_SUSPENDS, acc := .ro },
  { fld := CORE_FAULTS, acc := .ro },
  { fld := CORE_BUDGET_OVER, acc := .ro },
  { fld := CORE_SIDINGS, acc := .ro },
  { fld := CORE_RETURNS, acc := .ro },
  { fld := CORE_CTL_SIDE, acc := .rwt },
  { fld := CORE_STAT_STATE, acc := .ro },
  { fld := CORE_STAT_LISTEN_CORE, acc := .ro },
  { fld := CORE_STAT_RUN_ACTIVE, acc := .ro },
  { fld := CORE_STAT_REQ_CTL, acc := .ro },
  { fld := CORE_STAT_REQ_SB, acc := .ro },
  { fld := CORE_STAT_REQ_PWR, acc := .ro },
  { fld := CORE_INT_STAT_SIDED, acc := .w1c },
  { fld := CORE_INT_STAT_RETURNED, acc := .w1c },
  { fld := CORE_INT_STAT_FAULT, acc := .w1c },
  { fld := CORE_INT_STAT_SIDE_REFUSED, acc := .w1c },
  { fld := CORE_INT_STAT_BUDGET_OVER, acc := .w1c },
  { fld := CORE_FAULT_CODE, acc := .ro },
  { fld := CORE_FAULT_TENANCY, acc := .ro },
  { fld := CORE_FAULT_PROG, acc := .rol },
  { fld := CORE_FAULT_TIME_LO, acc := .rol },
  { fld := CORE_FAULT_TIME_HI, acc := .rol },
  { fld := CORE_SRAM_USED, acc := .ro },
  { fld := CORE_POOL_FREE, acc := .ro }]

def rowsRing : List FieldRow := [
  { fld := RING_DESCS, acc := .ro },
  { fld := RING_DB_WRITES, acc := .ro },
  { fld := RING_DB_BAD, acc := .ro },
  { fld := RING_STALLS, acc := .ro },
  { fld := RING_EV_LOST, acc := .ro },
  { fld := RING_SUBMIT_BAD, acc := .ro },
  { fld := RING_TRUNCATED, acc := .ro },
  { fld := RING_FETCH_LATE, acc := .ro },
  { fld := RING_CTL_ENABLE, acc := .rwt },
  { fld := RING_STAT_STATE, acc := .ro },
  { fld := RING_STAT_FULL, acc := .ro },
  { fld := RING_STAT_ENABLE_PENDING, acc := .ro },
  { fld := RING_INT_STAT_THRESHOLD, acc := .w1c },
  { fld := RING_INT_STAT_EMPTY, acc := .w1c },
  { fld := RING_INT_STAT_ERROR, acc := .w1c },
  { fld := RING_INT_STAT_DB_BAD, acc := .w1c },
  { fld := RING_INT_STAT_STALL, acc := .w1c },
  { fld := RING_INT_STAT_EVENT_LOST, acc := .w1c },
  { fld := RING_INT_STAT_DISABLE_REFUSED, acc := .w1c },
  { fld := RING_INT_STAT_SUBMIT_BAD, acc := .w1c },
  { fld := RING_CFG_TYPE, acc := .rw },
  { fld := RING_CFG_LOG2_SIZE, acc := .rw, reset := 6, lim := some (6, 16) },
  { fld := RING_CFG_VECTOR, acc := .rw, lim := some (0, 64) },
  { fld := RING_CFG_STRIDE, acc := .rw, lim := some (0, 8) },
  { fld := RING_BASE_LO, acc := .rw },
  { fld := RING_BASE_HI, acc := .rw },
  { fld := RING_WB_LO, acc := .rw },
  { fld := RING_WB_HI, acc := .rw },
  { fld := RING_RES_LO, acc := .rw },
  { fld := RING_RES_HI, acc := .rw },
  { fld := RING_HOST_IDX, acc := .ro },
  { fld := RING_DEV_IDX, acc := .ro },
  { fld := RING_HELD, acc := .ro },
  { fld := RING_WMARK, acc := .rw, reset := 1, lim := some (0, 65536) },
  { fld := RING_HOLDOFF, acc := .rw },
  { fld := RING_ERR, acc := .ro },
  { fld := RING_ERR_IDX, acc := .ro }]

def rowsProg : List FieldRow := [
  { fld := CORE_PROG_LOADS, acc := .ro },
  { fld := CORE_PROG_REFUSED, acc := .ro },
  { fld := CORE_NO_PROG, acc := .ro },
  { fld := CORE_RUN_SKIPPED, acc := .ro },
  { fld := CORE_ROWS, acc := .ro },
  { fld := CORE_RUN_FAULTS, acc := .ro },
  { fld := PROG_STAT_BUSY, acc := .ro },
  { fld := PROG_STAT_LOADED, acc := .ro },
  { fld := PROG_INT_STAT_DONE, acc := .w1c },
  { fld := PROG_INT_STAT_REFUSED, acc := .w1c },
  { fld := PROG_INT_STAT_RUN_FAULT, acc := .w1c },
  { fld := PROG_INT_STAT_RUN_SKIPPED, acc := .w1c },
  { fld := PROG_INT_STAT_NO_PROG, acc := .w1c },
  { fld := CORE_PROG_ADDR_LO, acc := .rw },
  { fld := CORE_PROG_ADDR_HI, acc := .rw },
  { fld := CORE_PROG_LEN, acc := .rw },
  { fld := CORE_PROG_ID, acc := .rw },
  { fld := CORE_PROG_CMD_LOAD, acc := .w1s },
  { fld := CORE_PROG_CMD_UNLOAD, acc := .w1s },
  { fld := CORE_PROG_CMD_RELOAD, acc := .w1s },
  { fld := CORE_PROG_STAT_STATE, acc := .ro },
  { fld := CORE_PROG_STAT_CODE, acc := .ro },
  { fld := CORE_PROG_SEL, acc := .rw },
  { fld := CORE_PROG_VIEW, acc := .ro }]

def rowsFelt : List FieldRow := [
  { fld := FELT_ALLOCS, acc := .ro },
  { fld := FELT_COW, acc := .ro },
  { fld := FELT_FULL_EVENTS, acc := .ro },
  { fld := FELT_EMPTY_ROWS, acc := .ro },
  { fld := FELT_EMPTY_QUERIES, acc := .ro },
  { fld := FELT_SPEC_ROLLBACK, acc := .ro },
  { fld := FELT_SPEC_CLAMP, acc := .ro },
  { fld := FELT_APPEND_CLIP, acc := .ro },
  { fld := FELT_PFX_REFUSED, acc := .ro },
  { fld := FELT_NAN_QUERIES, acc := .ro },
  { fld := FELT_STAT_PFX_PENDING, acc := .ro },
  { fld := FELT_INT_STAT_FELT_FULL, acc := .w1c },
  { fld := FELT_INT_STAT_EMPTY, acc := .w1c },
  { fld := FELT_INT_STAT_SPEC_CLAMP, acc := .w1c },
  { fld := FELT_INT_STAT_APPEND_CLIP, acc := .w1c },
  { fld := FELT_INT_STAT_PFX_DONE, acc := .w1c },
  { fld := FELT_INT_STAT_PFX_REFUSED, acc := .w1c },
  { fld := FELT_INT_STAT_NAN_QUERY, acc := .w1c },
  { fld := FELT_QUOTA, acc := .rwt, reset := 2048, lim := some (0, 2048), own := .fn0 },
  { fld := FELT_USED, acc := .ro },
  { fld := FELT_PFX_SLOT, acc := .rw },
  { fld := FELT_PFX_HANDLE_HANDLE, acc := .rw },
  { fld := FELT_PFX_HANDLE_CROSS, acc := .rw },
  { fld := FELT_PFX_CMD_CAPTURE, acc := .w1s },
  { fld := FELT_PFX_CMD_ATTACH, acc := .w1s },
  { fld := FELT_PFX_CMD_DROP, acc := .w1s },
  { fld := FELT_PFX_STAT_PENDING, acc := .ro },
  { fld := FELT_PFX_STAT_CODE, acc := .ro },
  { fld := FELT_HANDLES, acc := .ro },
  { fld := FELT_SEL, acc := .rw },
  { fld := FELT_VIEW_DEC_PAGES, acc := .ro },
  { fld := FELT_VIEW_DEC_OUT_OF_RANGE, acc := .ro },
  { fld := FELT_VIEW_DLEN, acc := .rol },
  { fld := FELT_VIEW_ENC_FILL, acc := .rol },
  { fld := FELT_VIEW_ENC_HEAD, acc := .rol },
  { fld := FELT_FREE, acc := .ro, reset := 2048 },
  { fld := FELT_LIVE, acc := .ro },
  { fld := FELT_RELEASING, acc := .ro },
  { fld := FELT_XSHARE_LO, acc := .rwt },
  { fld := FELT_XSHARE_HI, acc := .rwt }]

def rowsGx : List FieldRow := [
  { fld := GX_GATHERS, acc := .ro },
  { fld := GX_ROWS, acc := .ro },
  { fld := GX_NULL, acc := .ro },
  { fld := GX_INVALID, acc := .ro },
  { fld := GX_ABSENT, acc := .ro },
  { fld := GX_POISON, acc := .ro },
  { fld := GX_MISMATCH, acc := .ro },
  { fld := GX_LATE_REPLY, acc := .ro },
  { fld := GX_VIEW_LATE, acc := .ro },
  { fld := GX_PF_HITS, acc := .ro },
  { fld := GX_PF_DROPPED, acc := .ro },
  { fld := GX_UPDATES, acc := .ro },
  { fld := GX_UPD_DROPPED, acc := .ro },
  { fld := GX_UPD_CLAMP, acc := .ro },
  { fld := GX_FENCE_LATE, acc := .ro },
  { fld := GX_STAT_CMD_BUSY, acc := .ro },
  { fld := GX_INT_STAT_CMD_DONE, acc := .w1c },
  { fld := GX_INT_STAT_CMD_REFUSED, acc := .w1c },
  { fld := GX_INT_STAT_ABSENT, acc := .w1c },
  { fld := GX_INT_STAT_INVALID, acc := .w1c },
  { fld := GX_INT_STAT_POISON, acc := .w1c },
  { fld := GX_INT_STAT_MISMATCH, acc := .w1c },
  { fld := GX_INT_STAT_FENCE_LATE, acc := .w1c },
  { fld := GX_INT_STAT_UPD_DROPPED, acc := .w1c },
  { fld := GX_INT_STAT_QUOTA_REFUSED, acc := .w1c },
  { fld := GX_WIN_BASE_LO, acc := .rw, own := .fn0 },
  { fld := GX_WIN_BASE_HI, acc := .rw, own := .fn0 },
  { fld := GX_WIN_SIZE, acc := .rw, lim := some (0, 131072), own := .fn0 },
  { fld := GX_TAG_QUOTA, acc := .rwt, reset0 := some 2048, lim := some (0, 2048), own := .fn0 },
  { fld := GX_PF_QUOTA, acc := .rwt, reset0 := some 128, lim := some (0, 128), own := .fn0 },
  { fld := GX_TBL_SEL, acc := .rw },
  { fld := GX_DESC_ADDR_LO, acc := .rw },
  { fld := GX_DESC_ADDR_HI, acc := .rw },
  { fld := GX_XFER_ADDR_LO, acc := .rw },
  { fld := GX_XFER_ADDR_HI, acc := .rw },
  { fld := GX_XFER_OFF_LO, acc := .rw },
  { fld := GX_XFER_OFF_HI, acc := .rw },
  { fld := GX_XFER_LEN, acc := .rw },
  { fld := GX_CMD_DEFINE, acc := .w1s },
  { fld := GX_CMD_DELETE, acc := .w1s },
  { fld := GX_CMD_ENABLE, acc := .w1s },
  { fld := GX_CMD_DISABLE, acc := .w1s },
  { fld := GX_CMD_LOAD, acc := .w1s },
  { fld := GX_CMD_SAVE, acc := .w1s },
  { fld := GX_CMD_STAT_STATE, acc := .ro },
  { fld := GX_CMD_STAT_CODE, acc := .ro },
  { fld := GX_TBL_STATE, acc := .ro },
  { fld := GX_TAGS_HELD, acc := .ro },
  { fld := GX_PF_USED, acc := .ro },
  { fld := GX_CUT, acc := .rwt, reset := 56 },
  { fld := GX_TIMEOUT_NS, acc := .rw, reset := 500000, lim := some (10000, 5000000) },
  { fld := GX_FENCE_LIMIT_NS, acc := .rw, reset := 200000, lim := some (10000, 2000000) },
  { fld := GX_TAGS_FREE, acc := .ro, reset := 2048 }]

def rowsSol : List FieldRow := [
  { fld := SOL_SOLVES, acc := .ro },
  { fld := SOL_OPTIMAL, acc := .ro },
  { fld := SOL_DEADLINE_MISS, acc := .ro },
  { fld := SOL_PIVOTS, acc := .ro },
  { fld := SOL_REFINES, acc := .ro },
  { fld := SOL_SAT, acc := .ro },
  { fld := SOL_REFUSED, acc := .ro },
  { fld := SOL_WAITS, acc := .ro },
  { fld := SOL_POISON, acc := .ro },
  { fld := SOL_STAT_CMD_BUSY, acc := .ro },
  { fld := SOL_STAT_PENDING, acc := .ro },
  { fld := SOL_STAT_RUNNING, acc := .ro },
  { fld := SOL_STAT_LOADED, acc := .ro },
  { fld := SOL_STAT_PARAM_PENDING, acc := .ro },
  { fld := SOL_INT_STAT_CMD_DONE, acc := .w1c },
  { fld := SOL_INT_STAT_CMD_REFUSED, acc := .w1c },
  { fld := SOL_INT_STAT_SOLVE_DONE, acc := .w1c },
  { fld := SOL_INT_STAT_SOLVE_DEADLINE, acc := .w1c },
  { fld := SOL_INT_STAT_PIVOT, acc := .w1c },
  { fld := SOL_INT_STAT_RANGE, acc := .w1c },
  { fld := SOL_INT_STAT_REQ_REFUSED, acc := .w1c },
  { fld := SOL_INT_STAT_BIND_REFUSED, acc := .w1c },
  { fld := SOL_HANDLE_SEL, acc := .rw },
  { fld := SOL_IMG_ADDR_LO, acc := .rw },
  { fld := SOL_IMG_ADDR_HI, acc := .rw },
  { fld := SOL_IMG_LEN, acc := .rw },
  { fld := SOL_PARAM_ADDR_LO, acc := .rw },
  { fld := SOL_PARAM_ADDR_HI, acc := .rw },
  { fld := SOL_PARAM_TICK_LO, acc := .rw },
  { fld := SOL_PARAM_TICK_HI, acc := .rw },
  { fld := SOL_CMD_LOAD, acc := .w1s },
  { fld := SOL_CMD_UNLOAD, acc := .w1s },
  { fld := SOL_CMD_PARAM, acc := .w1s },
  { fld := SOL_CMD_STAT_STATE, acc := .ro },
  { fld := SOL_CMD_STAT_CODE, acc := .ro },
  { fld := SOL_REQ_ADDR_LO, acc := .rw },
  { fld := SOL_REQ_ADDR_HI, acc := .rw },
  { fld := SOL_REQ_CMD_SUBMIT, acc := .w1s },
  { fld := SOL_PIVOT_EPS_EPS_EXP, acc := .rwt, reset := 36, lim := some (1, 60) },
  { fld := SOL_PIVOT_EPS_SHIFT_EXP, acc := .rwt, reset := 24, lim := some (1, 60) },
  { fld := SOL_STAGE_LO, acc := .rw },
  { fld := SOL_STAGE_HI, acc := .rw },
  { fld := SOL_STORE_QUOTA, acc := .rwt, reset0 := some 240, lim := some (0, 240), own := .fn0 },
  { fld := SOL_STORE_USED, acc := .ro },
  { fld := SOL_SCHED_VIEW, acc := .ro },
  { fld := SOL_GOV_NS, acc := .ro, reset := 150000 },
  { fld := SOL_STORE_FREE, acc := .ro, reset := 240 }]

def rowsBlg : List FieldRow := [
  { fld := BL_MAP_CHANGES, acc := .ro },
  { fld := BL_MAP_LATE, acc := .ro },
  { fld := BL_MAP_DEFER, acc := .ro },
  { fld := BL_DARK_DISCARD, acc := .ro },
  { fld := BL_SEQ_GAP, acc := .ro },
  { fld := BL_PKT_BAD, acc := .ro },
  { fld := BLG_STAT_GEN, acc := .ro },
  { fld := BLG_STAT_LIVE, acc := .ro },
  { fld := BLG_INT_STAT_MAP_CHANGED, acc := .w1c },
  { fld := BLG_INT_STAT_UNREACHABLE, acc := .w1c },
  { fld := BLG_INT_STAT_MAP_LATE, acc := .w1c },
  { fld := BLG_INT_STAT_CFG_REFUSED, acc := .w1c },
  { fld := BL_NODE_NODE, acc := .rw },
  { fld := BL_NODE_DX, acc := .rw, reset := 1 },
  { fld := BL_NODE_DY, acc := .rw, reset := 1 },
  { fld := BL_CONSIST_ID, acc := .rw },
  { fld := BL_MAP_LEAD, acc := .rwt, reset := 2, lim := some (1, 8) },
  { fld := BL_REACH, acc := .ro },
  { fld := BL_GAP_NS, acc := .rw, reset := 1000000 }]

def rowsBlp : List FieldRow := [
  { fld := BL_CRC_ERR, acc := .ro },
  { fld := BL_REPLAYS, acc := .ro },
  { fld := BL_SIDINGS, acc := .ro },
  { fld := BL_RETURNS, acc := .ro },
  { fld := BL_PORT_CTL_SIDE, acc := .rwt },
  { fld := BL_PORT_CTL_LANE_SIDE, acc := .rwt },
  { fld := BL_PORT_STAT_STATE, acc := .ro },
  { fld := BL_PORT_STAT_WIDTH, acc := .ro },
  { fld := BL_PORT_STAT_LANES_OK, acc := .ro },
  { fld := BL_PORT_STAT_RATE, acc := .ro },
  { fld := BL_PORT_STAT_REQ, acc := .ro },
  { fld := BL_PORT_STAT_CAUSE, acc := .ro },
  { fld := BL_PORT_STAT_PARTNER, acc := .ro },
  { fld := BLP_INT_STAT_UP, acc := .w1c },
  { fld := BLP_INT_STAT_DARK, acc := .w1c },
  { fld := BLP_INT_STAT_SIDED, acc := .w1c },
  { fld := BLP_INT_STAT_CHECK_FAIL, acc := .w1c },
  { fld := BLP_INT_STAT_WIDTH_CHANGED, acc := .w1c },
  { fld := BLP_INT_STAT_SIDE_REFUSED, acc := .w1c }]

def rowsCal : List FieldRow := [
  { fld := CAL_SAT, acc := .ro },
  { fld := CAL_NAN, acc := .ro },
  { fld := CAL_RX_REJECT, acc := .ro },
  { fld := CAL_TX_UNREACH, acc := .ro },
  { fld := CAL_WAIT_EXPIRED, acc := .ro },
  { fld := CAL_INT_STAT_SAT_EVENT, acc := .w1c },
  { fld := CAL_INT_STAT_RX_REJECT, acc := .w1c },
  { fld := CAL_INT_STAT_TX_UNREACH, acc := .w1c },
  { fld := CAL_INT_STAT_WAIT_EXPIRED, acc := .w1c },
  { fld := CAL_FLOW_SEL, acc := .rw },
  { fld := CAL_FLOW_CFG_MODE, acc := .rwt },
  { fld := CAL_FLOW_CFG_STEPS, acc := .rwt, reset := 8, lim := some (1, 16) },
  { fld := CAL_FLOW_CFG_E0, acc := .rwt },
  { fld := CAL_FLOW_CFG_SAT_THR, acc := .rwt, reset := 64 },
  { fld := CAL_FLOW_VIEW_E, acc := .ro },
  { fld := CAL_FLOW_VIEW_SAT_TICK, acc := .ro },
  { fld := CAL_SAT_FLOW, acc := .ro }]

def rowsPwrg : List FieldRow := [
  { fld := PWR_MODE_CHANGES, acc := .ro },
  { fld := PWR_GOV_SOLVES, acc := .ro },
  { fld := PWR_GOV_FALLBACK, acc := .ro },
  { fld := PWR_CUT_TICKS, acc := .ro },
  { fld := PWR_LIMITER, acc := .ro },
  { fld := PWR_MODE_REFUSED, acc := .ro },
  { fld := PWRG_CTL_HOST_LOCK, acc := .rw, own := .sb },
  { fld := PWRG_STAT_MODE, acc := .ro },
  { fld := PWRG_STAT_PENDING, acc := .ro },
  { fld := PWRG_STAT_PENDING_MODE, acc := .ro },
  { fld := PWRG_STAT_ENTERING, acc := .ro },
  { fld := PWRG_STAT_WAKING, acc := .ro },
  { fld := PWRG_STAT_CUT_NEXT, acc := .ro },
  { fld := PWRG_STAT_CAP_UNREACHABLE, acc := .ro },
  { fld := PWRG_STAT_THERMAL, acc := .ro },
  { fld := PWRG_STAT_REQ_SOURCE, acc := .ro },
  { fld := PWRG_STAT_WAIT_REASON, acc := .ro },
  { fld := PWRG_INT_STAT_MODE_CHANGED, acc := .w1c },
  { fld := PWRG_INT_STAT_MODE_REFUSED, acc := .w1c },
  { fld := PWRG_INT_STAT_MODE_OVERRIDDEN, acc := .w1c },
  { fld := PWRG_INT_STAT_CUT, acc := .w1c },
  { fld := PWRG_INT_STAT_FALLBACK, acc := .w1c },
  { fld := PWRG_INT_STAT_LIMITER, acc := .w1c },
  { fld := PWRG_INT_STAT_CAP_UNREACHABLE, acc := .w1c },
  { fld := PWRG_INT_STAT_THERMAL, acc := .w1c },
  { fld := PWRG_INT_STAT_STANDBY_READY, acc := .w1c },
  { fld := PWR_MODE_REQ, acc := .rw, lim := some (0, 4) },
  { fld := PWR_MODE_AT_LO, acc := .rw },
  { fld := PWR_MODE_AT_HI, acc := .rw },
  { fld := PWR_TRIM_CORES, acc := .rwt, reset := 60, lim := some (0, 60) },
  { fld := PWR_TRIM_PORT_MASK, acc := .rwt },
  { fld := PWR_CAP_MW, acc := .rwt, reset := 75000, lim := some (10000, 75000), own := .sb },
  { fld := PWR_MARGIN_MW, acc := .rwt, reset := 1000, own := .sb },
  { fld := PWR_TJ_MAX, acc := .rwt, reset := 105, own := .sb },
  { fld := PWR_THERM_CD_ALPHA, acc := .rw, reset := 61440, own := .sb },
  { fld := PWR_THERM_CD_RTH, acc := .rw, reset := 1024, own := .sb },
  { fld := PWR_AMBIENT, acc := .rw, reset := 35, own := .sb },
  { fld := PWR_ECYC, acc := .rw, reset := 800, own := .sb },
  { fld := PWR_PKG_MW, acc := .ro },
  { fld := PWR_TEMP_CD, acc := .ro },
  { fld := PWR_TEMP_SD, acc := .ro },
  { fld := PWR_RAIL_MW, acc := .ro, n := 8 }]

def rowsPwrt : List FieldRow := [
  { fld := PWR_FC_WRITES, acc := .ro },
  { fld := PWR_FC_FLAGGED, acc := .ro },
  { fld := PWR_RUNS_CUT, acc := .ro },
  { fld := PWR_FC_CTL_EN, acc := .rw },
  { fld := PWRT_INT_STAT_FORECAST, acc := .w1c },
  { fld := PWR_FC_ADDR_LO, acc := .rw },
  { fld := PWR_FC_ADDR_HI, acc := .rw }]

def rowsMemg : List FieldRow := [
  { fld := MEM_CE_SRAM, acc := .ro },
  { fld := MEM_CE_DRAM, acc := .ro },
  { fld := MEM_LINK_CE, acc := .ro },
  { fld := MEM_UE, acc := .ro },
  { fld := MEM_RMW_CE, acc := .ro },
  { fld := MEM_RMW_UE, acc := .ro },
  { fld := MEM_PATROL_PASSES, acc := .ro },
  { fld := MEM_PATROL_LATE, acc := .ro },
  { fld := MEM_LOG_LOST, acc := .ro },
  { fld := MEM_EP_SENT, acc := .ro },
  { fld := MEMG_CTL_LOG_CE, acc := .rw },
  { fld := MEMG_CTL_PATROL_EN, acc := .rw, reset := 1 },
  { fld := MEMG_STAT_FATAL, acc := .ro },
  { fld := MEMG_STAT_SCRUB_DONE, acc := .ro },
  { fld := MEMG_STAT_PATROL_ACTIVE, acc := .ro },
  { fld := MEMG_STAT_LOG_COUNT, acc := .ro },
  { fld := MEMG_INT_STAT_CE, acc := .w1c },
  { fld := MEMG_INT_STAT_UE, acc := .w1c },
  { fld := MEMG_INT_STAT_FATAL, acc := .w1c },
  { fld := MEMG_INT_STAT_LOG_FULL, acc := .w1c },
  { fld := MEMG_INT_STAT_CE_STORM, acc := .w1c },
  { fld := MEMG_INT_STAT_PATROL_UE, acc := .w1c },
  { fld := MEM_PATROL_SRAM_S, acc := .rw, reset := 10, lim := some (1, 3600) },
  { fld := MEM_PATROL_DRAM_S, acc := .rw, reset := 86400, lim := some (3600, 604800) },
  { fld := MEM_CE_THR, acc := .rwt, reset := 1024 },
  { fld := MEM_LOG_WR, acc := .ro },
  { fld := MEM_LOG_RD, acc := .rw },
  { fld := MEM_LOG_SEL, acc := .rw },
  { fld := MEM_LOG_VIEW, acc := .ro },
  { fld := MEM_LOG_VIEW_REST, acc := .rol, n := 7 },
  { fld := MEM_INJECT_STORE, acc := .rw },
  { fld := MEM_INJECT_KIND, acc := .rw },
  { fld := MEM_INJECT_UNIT, acc := .rw },
  { fld := MEM_INJECT_ARM, acc := .w1s }]

def rowsMemt : List FieldRow := [
  { fld := MEM_T_CE, acc := .ro },
  { fld := MEM_T_UE, acc := .ro },
  { fld := MEM_T_ROW_FAULTS, acc := .ro },
  { fld := MEM_T_RUN_FAULTS, acc := .ro },
  { fld := MEMT_INT_STAT_UE, acc := .w1c },
  { fld := MEMT_INT_STAT_ROW_FAULT, acc := .w1c },
  { fld := MEMT_INT_STAT_RUN_FAULT, acc := .w1c }]

def rowsLedg : List FieldRow := [
  { fld := LED_AUDITS, acc := .ro },
  { fld := LED_IMBALANCES, acc := .ro },
  { fld := LED_STOPS, acc := .ro },
  { fld := LED_PORT_DARK, acc := .ro },
  { fld := LED_RECOUNT_FAIL, acc := .ro },
  { fld := LEDG_STAT_LAST_OK, acc := .ro },
  { fld := LEDG_STAT_FELT_AUDITED, acc := .ro },
  { fld := LEDG_INT_STAT_IMBALANCE, acc := .w1c },
  { fld := LEDG_INT_STAT_STOP, acc := .w1c },
  { fld := LEDG_INT_STAT_PORT, acc := .w1c },
  { fld := LEDG_INT_STAT_DEVICE, acc := .w1c },
  { fld := LEDG_INT_STAT_RECOUNT_FAIL, acc := .w1c },
  { fld := LED_LAST_BOOK_BOOK, acc := .ro },
  { fld := LED_LAST_BOOK_INSTANCE, acc := .ro },
  { fld := LED_LAST_BOOK_TENANCY, acc := .ro },
  { fld := LED_LAST_TICK_LO, acc := .rol },
  { fld := LED_LAST_TICK_HI, acc := .rol },
  { fld := LED_LAST_EXPECT, acc := .rol },
  { fld := LED_LAST_FOUND, acc := .rol },
  { fld := LED_STOPPED_LO, acc := .ro },
  { fld := LED_STOPPED_HI, acc := .ro }]

def rowsLedt : List FieldRow := [
  { fld := LED_T_IMBALANCES, acc := .ro },
  { fld := LEDT_STAT_STOPPED, acc := .ro },
  { fld := LEDT_STAT_RECOUNT_FAILED, acc := .ro },
  { fld := LEDT_STAT_BOOKS, acc := .ro },
  { fld := LEDT_INT_STAT_STOP, acc := .w1c },
  { fld := LEDT_INT_STAT_RESUMED, acc := .w1c },
  { fld := LEDT_INT_STAT_RECOUNT_FAIL, acc := .w1c }]

def rowsIsog : List FieldRow := [
  { fld := ISO_DENIED, acc := .ro },
  { fld := ISO_FEAT_WAIT, acc := .ro },
  { fld := ISO_RES_WAIT, acc := .ro },
  { fld := ISO_COND_LOSSES, acc := .ro },
  { fld := ISOG_STAT_PROMISE, acc := .ro },
  { fld := ISOG_STAT_FIXED, acc := .ro },
  { fld := ISOG_STAT_NO_CROSS, acc := .ro, reset := 1 },
  { fld := ISOG_STAT_GATE_LOCKED, acc := .ro, reset := 1 },
  { fld := ISOG_STAT_PARTITIONED, acc := .ro },
  { fld := ISOG_STAT_POWER, acc := .ro, reset := 1 },
  { fld := ISOG_STAT_HORIZON, acc := .ro, reset := 1 },
  { fld := ISOG_STAT_RESULTS, acc := .ro, reset := 1 },
  { fld := ISOG_INT_STAT_COND_LOST, acc := .w1c },
  { fld := ISOG_INT_STAT_COND_HELD, acc := .w1c },
  { fld := ISOG_INT_STAT_RES_REFUSED, acc := .w1c },
  { fld := ISO_RES_FREE, acc := .ro, reset := 256 }]

def rowsIsot : List FieldRow := [
  { fld := ISO_T_PAGE_DENIED, acc := .ro },
  { fld := ISO_T_DB_DENIED, acc := .ro },
  { fld := ISO_T_ACCESS, acc := .ro },
  { fld := ISO_T_FEAT_WAIT, acc := .ro },
  { fld := ISO_T_RES_WAIT, acc := .ro },
  { fld := ISOT_INT_STAT_DENIED, acc := .w1c },
  { fld := ISO_RES_RESERVE, acc := .rwt, lim := some (0, 256), own := .fn0 },
  { fld := ISO_RES_USED, acc := .ro }]

def rowsDbgg : List FieldRow := [
  { fld := DBG_FAILS, acc := .ro },
  { fld := DBG_OPENINGS, acc := .ro },
  { fld := DBG_WIN_ACCESSES, acc := .ro },
  { fld := DBGG_STAT_OPEN, acc := .ro },
  { fld := DBGG_STAT_NONCE, acc := .ro },
  { fld := DBGG_STAT_PENDING, acc := .ro },
  { fld := DBGG_STAT_LOCKOUT, acc := .ro },
  { fld := DBGG_STAT_SOURCE, acc := .ro },
  { fld := DBGG_STAT_CODE, acc := .ro },
  { fld := DBGG_INT_STAT_OPENED, acc := .w1c },
  { fld := DBGG_INT_STAT_CLOSED, acc := .w1c },
  { fld := DBGG_INT_STAT_REFUSED, acc := .w1c },
  { fld := DBG_REQ_SCOPE, acc := .rw },
  { fld := DBG_REQ_KEY_SLOT, acc := .rw },
  { fld := DBG_CMD_CHALLENGE, acc := .w1s },
  { fld := DBG_CMD_RESPOND, acc := .w1s },
  { fld := DBG_CMD_CLOSE, acc := .w1s },
  { fld := DBG_KEY_STAT_SLOTS, acc := .ro },
  { fld := DBG_CHAL, acc := .ro, n := 16 },
  { fld := DBG_SIG, acc := .rw, n := 24 }]

def rowsDbgw : List FieldRow := [
  { fld := DBG_WIN_TARGET_STORE, acc := .rw },
  { fld := DBG_WIN_TARGET_UNIT, acc := .rw },
  { fld := DBG_WIN_ADDR_LO, acc := .rw },
  { fld := DBG_WIN_ADDR_HI, acc := .rw },
  { fld := DBG_WIN_CMD_READ, acc := .w1s },
  { fld := DBG_WIN_CMD_WRITE, acc := .w1s },
  { fld := DBG_WIN_STAT_BUSY, acc := .ro },
  { fld := DBG_WIN_STAT_POISON, acc := .ro },
  { fld := DBG_WIN_DATA, acc := .rw, n := 16 },
  { fld := DBG_HALT_LO, acc := .rw },
  { fld := DBG_HALT_HI, acc := .rw },
  { fld := DBG_TRACE_WR, acc := .ro },
  { fld := DBG_TRACE_SEL, acc := .rw },
  { fld := DBG_TRACE_VIEW, acc := .ro },
  { fld := DBG_TRACE_VIEW_REST, acc := .rol, n := 3 }]

def rowsBlt : List FieldRow := [
  { fld := BL_XFERS, acc := .ro },
  { fld := BL_XFER_FAILS, acc := .ro },
  { fld := BLT_INT_STAT_XFER_DONE, acc := .w1c },
  { fld := BLT_INT_STAT_XFER_FAIL, acc := .w1c },
  { fld := BLT_INT_STAT_RX_DONE, acc := .w1c },
  { fld := BL_XFER_SRC_LO, acc := .rw },
  { fld := BL_XFER_SRC_HI, acc := .rw },
  { fld := BL_XFER_NODE, acc := .rw },
  { fld := BL_XFER_OFF, acc := .rw },
  { fld := BL_XFER_LEN, acc := .rw, lim := some (0, 16777216) },
  { fld := BL_XFER_CMD_START, acc := .w1s },
  { fld := BL_XFER_STAT_STATE, acc := .ro },
  { fld := BL_XFER_STAT_CODE, acc := .ro },
  { fld := BL_RXWIN_LO, acc := .rw },
  { fld := BL_RXWIN_HI, acc := .rw },
  { fld := BL_RXWIN_SIZE, acc := .rw },
  { fld := BL_RX_LAST, acc := .ro }]

def rowsSb : List FieldRow := [
  { fld := SB_MGMT_ACCEPTED, acc := .ro },
  { fld := SB_MGMT_REFUSED, acc := .ro },
  { fld := SB_STALE, acc := .ro },
  { fld := SB_DISAGREE, acc := .ro },
  { fld := SB_TEARDOWNS, acc := .ro },
  { fld := SB_FW_ACTIVATIONS, acc := .ro },
  { fld := SB_RESTARTS, acc := .ro },
  { fld := SB_STAT_STAGE, acc := .ro },
  { fld := SB_STAT_RESTARTING, acc := .ro },
  { fld := SB_STAT_UPDATE_ACTIVE, acc := .ro },
  { fld := SB_STAT_ACTIVATION_PENDING, acc := .ro },
  { fld := SB_STAT_ROLLED_BACK, acc := .ro },
  { fld := SB_STAT_TRANSPORT, acc := .ro },
  { fld := SB_STAT_EID_ASSIGNED, acc := .ro },
  { fld := SB_INT_STAT_MGMT_APPLIED, acc := .w1c },
  { fld := SB_INT_STAT_MGMT_REFUSED, acc := .w1c },
  { fld := SB_INT_STAT_DISAGREE, acc := .w1c },
  { fld := SB_INT_STAT_TEARDOWN, acc := .w1c },
  { fld := SB_INT_STAT_FW_STAGED, acc := .w1c },
  { fld := SB_INT_STAT_SB_RESTART, acc := .w1c },
  { fld := SB_INT_STAT_CAP_CHANGED, acc := .w1c },
  { fld := SB_FW_RUN, acc := .ro, n := 3 },
  { fld := SB_FW_STAGED, acc := .ro, n := 3 },
  { fld := SB_ANTIROLLBACK_SB, acc := .ro },
  { fld := SB_ANTIROLLBACK_SD, acc := .ro },
  { fld := SB_ANTIROLLBACK_CD, acc := .ro },
  { fld := SB_EPOCH_LO, acc := .ro },
  { fld := SB_EPOCH_HI, acc := .rol },
  { fld := SB_LAST_CMD_OPCODE, acc := .ro },
  { fld := SB_LAST_CMD_RESULT, acc := .ro },
  { fld := SB_LAST_CMD_KIND, acc := .ro },
  { fld := SB_LAST_UNIT, acc := .rol },
  { fld := SB_LAST_GEN_SENT, acc := .rol },
  { fld := SB_LAST_GEN_FOUND, acc := .rol },
  { fld := SB_EID_EID, acc := .ro },
  { fld := SB_EID_I3C_ADDR, acc := .ro },
  { fld := SB_EID_SMB_ADDR, acc := .ro }]

/-- The fields of page kind `p` beyond the common header (the field tables of `p`'s chapter). -/
def Page.rows : Page → List FieldRow
  | .pkgi => rowsPkgi
  | .ht => rowsHt
  | .tt => rowsTt
  | .pkgb => rowsPkgb
  | .str => rowsStr
  | .fe => rowsFe
  | .apt => rowsApt
  | .ixp => rowsIxp
  | .core => rowsCore
  | .ring => rowsRing
  | .prog => rowsProg
  | .felt => rowsFelt
  | .gx => rowsGx
  | .sol => rowsSol
  | .blg => rowsBlg
  | .blp => rowsBlp
  | .cal => rowsCal
  | .pwrg => rowsPwrg
  | .pwrt => rowsPwrt
  | .memg => rowsMemg
  | .memt => rowsMemt
  | .ledg => rowsLedg
  | .ledt => rowsLedt
  | .isog => rowsIsog
  | .isot => rowsIsot
  | .dbgg => rowsDbgg
  | .dbgw => rowsDbgw
  | .blt => rowsBlt
  | .sb => rowsSb

end Sys2Proof.Machine
end

