-- ==== Sys2Proof/Machine/State.lean ====
section
/-! DEFINITION. Machine/State.lean: everything the spec gives the NS-1, as plain data, and the state after reset. -/
namespace Sys2Proof.Machine

/-- Why the machine stops with a fault: never. The spec gives every command of the block a next state, so the type is empty. -/
inductive Fault where
deriving DecidableEq, Repr

/-- Why a command is turned away. -/
inductive Refusal where
  /-- The command's meaning is not written yet: raised by exec's arm alone. Safe: the run stops. -/
  | notModelled (mnemonic : String)
deriving DecidableEq, Repr


/-- The byte memories: core SRAM, the felt, LPDDR5X (R256, R338, R538). -/
inductive Space where
  | sram | felt | dram
deriving DecidableEq, Repr

/-- A store of the command under way into a byte memory: bytes from `a`, `n` zero bytes from `a`, or zero
everywhere. -/
inductive MemOp where
  | wr (sp : Space) (a : Nat) (data : List Byte)
  | zero (sp : Space) (a n : Nat)
  | clear (sp : Space)
deriving DecidableEq, Repr

/-! ## House time and the timetable (01_timetable.md) -/

/-- The loop values an edge is judged with (R36 to R40, R78). -/
structure LoopVals where
  kpShift : Nat
  kiShift : Nat
  lockNs : Nat
  lockCnt : Nat
  slewPpb : Nat
  winNs : Nat
  delayNs : Int
  drift : Nat
  maxNs : Nat
deriving DecidableEq, Repr

/-- A pending time-of-day arm (R42): the staged seconds, the arming party and the observation instant. -/
structure Arm where
  secs : Nat
  sbArmed : Bool
  at_ : Nat
deriving DecidableEq, Repr

/-- The house-time unit beyond its registers (R36 to R43). -/
structure Ht where
  /-- S_k of R36 in 1/256 ns. -/
  integ : Int := 0
  /-- Consecutive accepted edges within HT_LOCK_NS (R37). -/
  inLock : Nat := 0
  /-- Consecutive accepted edges beyond 4 × HT_LOCK_NS (R37). -/
  beyond : Nat := 0
  /-- Capture of the last accepted edge (R39). -/
  lastEdge : Option Nat := none
  /-- The last edge of HOLDOVER or FREERUN: capture and phase error (R38). -/
  pair : Option (Nat × Int) := none
  /-- The per-second corrections since ACQUIRE, newest first, at most 64, in 1/256 ppb (R39). -/
  hist : List Int := []
  /-- The next accepted edge reloads S_k from the frozen rate (R39). -/
  reload : Bool := false
  /-- The present FREERUN was entered on loss of REF_IN (R38, R70). -/
  refFreerun : Bool := false
  /-- The pending arm (R42). -/
  arm : Option Arm := none
  /-- Counter value at which HOLDOVER began (R40). -/
  holdFrom : Option Nat := none
  /-- Loop values still in force although their registers were written (R78). -/
  old : Option LoopVals := none
  /-- A counter step has passed boundaries over: the first tick not passed (R44). -/
  stepTick : Option Nat := none
deriving DecidableEq, Repr

/-- A run record of a timetable image (R59). -/
structure RunRec where
  program : Nat
  tenancy : Nat
  slots : Nat
  lane : Nat
  coreMask : Nat
  budget : Nat
  cls : Nat
  maxRows : Nat
deriving DecidableEq, Repr

/-- A timetable image (R59). `slotTable` holds (FIRST_RUN, RUN_COUNT), entry (p × 2 + lane) × 64 + j. -/
structure TtImage where
  period : Nat
  mode : Nat
  cycle : Nat
  id : Nat
  ownerMain : List Nat
  ownerListen : List Nat
  slotTable : List (Nat × Nat)
  runs : List RunRec
deriving DecidableEq, Repr

/-- A pending image: fetching until `img` is there, with its activation tick (0: first boundary) and length (R61). -/
structure TtPend where
  img : Option TtImage := none
  at_ : Nat := 0
  len : Nat := 0
deriving DecidableEq, Repr

/-- The timetable unit beyond its registers (R54 to R63). -/
structure Tt where
  active : Option TtImage := none
  pend : Option TtPend := none
  /-- The tick in progress (R45) and the next slot of it whose start has not been handled (R47, R268). -/
  tick : Nat := 0
  nextSlot : Nat := 0
deriving DecidableEq, Repr

/-! ## Host rings and the upstream path (03_host_interface.md) -/

/-- What an upstream store carries (R151, R152). -/
inductive StoreKind where
  | result | descriptor | writeBack | index | image | csq | tableSave | forecast | solve | transfer | msix
deriving DecidableEq, Repr

/-- What happens when the store is committed to the PCIe transmit queue: a completion gets its DONE_TIME (R150). -/
inductive Note where
  | none
  | completion (slot chunk : Nat) (trans late : Bool) (cause : Nat)
  | result (slot chunk : Nat)
  | transfer (src t : Nat)     -- the last store of a state transfer received from `src` (R485)
deriving DecidableEq, Repr

/-- One store of the device to host memory (R140, R151). -/
structure Store where
  fn : Nat
  kind : StoreKind
  addr : Nat
  data : List Byte
  /-- Relaxed Ordering (R152). -/
  ro : Bool := false
  /-- Poisoned data: sent with the EP bit and zeroed bytes (R544). -/
  ep : Bool := false
  /-- It holds an upstream write-out buffer (R151, R152). -/
  up : Bool := false
  note : Note := .none
deriving DecidableEq, Repr

/-- The PCIe state of one function (R126, R152, R153). -/
structure Fn where
  bme : Bool := false
  cfg : FnCfg := {}
  /-- A function-level reset is in progress (R157). -/
  flr : Bool := false
deriving DecidableEq, Repr

/-- A ring beyond its registers (R130 to R139, R142, R155). -/
structure Ring where
  /-- Accepted doorbells not yet wholly consumed: (host index offered, stamp) (R142). -/
  stamps : List (Nat × Nat) := []
  /-- COMMAND: consumed commands from the oldest not done: (index, done) (R134, R138). -/
  out : List (Nat × Bool) := []
  /-- COMMAND: write-backs since the last THRESHOLD (R155). -/
  wbs : Nat := 0
  /-- When the first descriptor after the last THRESHOLD was written, and RING_HOLDOFF then (R155, R168). -/
  holdFrom : Option (Nat × Nat) := none
  /-- The count trigger has fired, and what is written has not fallen below RING_WMARK.COUNT since (R155, R168). -/
  fired : Bool := false
  /-- COMPLETE: credits that were free at the last intake cut and that no chunk has taken since (R136). -/
  cutFree : Nat := 0
  /-- SUBMIT: the waiting descriptor has been counted in RING_STALLS (R147). -/
  stalled : Bool := false
deriving DecidableEq, Repr

/-! ## Streams (02_streams.md) -/

/-- Slot states (R81). -/
inductive SlotState where
  | free | admitted | listen | transcribe | draining | parked | faulted
deriving DecidableEq, Repr

/-- Token holders (R81). -/
inductive Holder where
  | scheduler | ring | engine | signalBox
deriving DecidableEq, Repr

/-- The stream parameters (R86), headways and defaults resolved (R89). -/
structure Params where
  portFed : Bool := false
  locked : Bool := false
  transcribe : Bool := false
  autoPromote : Bool := false
  autoDemote : Bool := false
  chunk : Nat := 1
  headway : Nat := 1
  channels : Nat := 1
  format : Nat := 1
  rate : Nat := 16000
  listenClass : Nat := 0
  transClass : Nat := 0xFFFF
  anchor : Nat := 0
  submitRing : Nat := 0
  completeRing : Nat := 0
  eventRing : Nat := 0
  port : Nat := 0
  listenH : Nat := 1
  preroll : Nat := 500
  rb : Nat := 4
  userTag : Nat := 0
deriving DecidableEq, Repr

/-- Where a chunk stands (R49 to R52, R94, R99, R267). -/
inductive ChunkStage where
  | waiting            -- complete or live, not yet joined to a tick's runs
  | eligible (stage : Nat)         -- waiting for a run of that stage
  | running (stage : Nat) (run : Nat)
  | committing         -- last stage ended; COMMIT not yet judged
  | settled            -- completion queued, not yet committed to the transmit queue
deriving DecidableEq, Repr

/-- One chunk of a stream that has a record and is not finished (R48 to R52, R99 to R104). -/
structure Chunk where
  k : Nat
  /-- The tick of its last sample: a + kC + C − 1, or t − 1 for a padded final chunk (R49, R104). -/
  n : Nat
  /-- The first sample of the padding of a final chunk (R104). -/
  zeroFrom : Option Nat := none
  /-- Instant the chunk became complete (R50). -/
  complete : Option Nat := none
  /-- The tick whose intake it waits for, and the tick whose runs it joined (R50, R143, R200). -/
  joinAt : Nat := 0
  joined : Option Nat := none
  stage : ChunkStage := .waiting
  /-- The instant it became eligible for its stage (R268). -/
  since : Nat := 0
  /-- It runs on the full model (R95); its audio is read back from the reel (R99). -/
  trans : Bool := false
  replay : Bool := false
  /-- It replays a chunk that the keyword tier has completed or will complete (R99). -/
  twin : Bool := false
  /-- It runs on the keyword tier whatever the tier in force (R99, R101). -/
  kw : Bool := false
  /-- It carries REPLAY and FINAL (R100, R104). -/
  mark : Bool := false
  final : Bool := false
  /-- Deadline tick: n + H or D_k (R52, R100). -/
  deadline : Nat := 0
  /-- Cause recorded by the deadline check: 0 INTAKE, 1 RUN (R52). -/
  missed : Option Nat := none
  /-- USER of the SUBMIT that completed it (R146). -/
  user : Nat := 0
  /-- Its samples have been produced (R181). -/
  made : Bool := false
  /-- Its wait for a COMPLETE credit has been counted; a credit is reserved for it (R136). -/
  stalled : Bool := false
  credit : Bool := false
  /-- Result bytes kept, and whether one was dropped (R164, R274). -/
  result : List Byte := []
  truncated : Bool := false
  /-- Queries counted as empty, and as NaN, in this chunk (R353). -/
  emptyQ : List Nat := []
  nanQ : List Nat := []
  /-- Feature bytes sent to the feature area, and whether all are there (R279, R607). -/
  featSent : Nat := 0
  featured : Bool := false
  /-- Its status is decided; its completion waits for those before it (R149). -/
  status : Option Nat := none
deriving DecidableEq, Repr

/-- An EXPORT under way (R107). -/
structure Export where
  ring : Nat
  idx : Nat
  tick : Nat
  addr : Nat
  len : Nat
  dev : Bool
  irq : Bool
  epoch : Nat
  /-- The scheduler's epoch before the pass: commits under it are accepted (R107). -/
  oldEpoch : Nat
  /-- OLDEST(n) of its reel (R198). -/
  oldest : Nat
deriving DecidableEq, Repr

/-- An IMPORT under way (R112). -/
structure Import where
  ring : Nat
  idx : Nat
  tick : Nat
  addr : Nat
  len : Nat
  dev : Bool
  irq : Bool
  loaded : Bool := false
  /-- The tier its activation enters, whether a catch-up is in progress, and WAKE_SAMPLE (R110). -/
  trans : Bool := false
  catchup : Option (Nat × Nat) := none
  wake : Option Nat := none
deriving DecidableEq, Repr

/-- One bank's committed cache view (R335, R341). -/
structure CacheBank where
  pages : List Nat := []
  dlen : Nat := 0
  head : Nat := 0
  fill : Nat := 0
deriving DecidableEq, Repr

/-- A core SRAM allocation (R266): the frame at `off` (row header, feature area), then banks A and B, and the encoder region. -/
structure Alloc where
  core : Nat
  off : Nat
  feat : Nat
  bank : Nat
  cacheOff : Nat := 0
  cacheLen : Nat := 0
deriving DecidableEq, Repr

/-- The stream counters of R111. -/
structure Counters where
  chunks : Nat := 0
  misses : Nat := 0
  late : Nat := 0
  wakes : Nat := 0
  promotions : Nat := 0
  stale : Nat := 0
  faults : Nat := 0
  skipped : Nat := 0
deriving DecidableEq, Repr

/-- An anchor pairs a source frame number with a reference position, in 1/RATE_HZ ns (R175). -/
structure Anchor where
  j : Nat
  q : Int
deriving DecidableEq, Repr

/-- The clock loop as it stands when sample `next` is the next to be produced (R187): ρ, I, L, e, the correction and the lock. -/
structure ClockAt where
  next : Nat
  rho : Nat
  integ : Int
  level : Int
  err : Int
  lock : Bool
deriving DecidableEq, Repr

/-- The front end's state of one stream (04_audio_front_end.md). -/
structure Audio where
  /-- Source frames held: number and one fp32 value per channel (R173, R175). -/
  frames : Map (List Nat) := []
  anchors : List Anchor := []
  nextFrame : Nat := 0
  /-- First sample of processing (R177), the next sample to produce, and the processed horizon (R176). -/
  begin_ : Nat := 0
  next : Nat := 0
  horizon : Int := -1
  active : Bool := false
  /-- ϕ of `next` has been set since processing began (R182). -/
  phiSet : Bool := false
  /-- L at which processing begins, in 1/256 sample: 16 samples, or FIFO_LEVEL of an image (R182, R187). -/
  lag : Int := 4096
  /-- ϕ of `next` and ρ with 56 fraction bits (R180). -/
  phi : Int := 0
  rho : Nat := 0
  /-- L, e and I in 1/256 sample (R182); the previous correction in 1/(2²⁹ × 15,625) (R183). -/
  level : Int := 0
  err : Int := 0
  integ : Int := 0
  corr : Int := 0
  lock : Bool := false
  lockCnt : Nat := 0
  unlockCnt : Nat := 0
  slewing : Bool := false
  /-- Missing frames below this number have been counted (R178). -/
  gapTo : Nat := 0
  /-- The reel descriptor (R199). -/
  baseBlock : Nat := 0
  blocks : Nat := 0
  oldest : Nat := 0
  nextRec : Nat := 0
  bank : Nat := 0
  bound : Bool := false
  /-- Port-fed: whether the newest port block's anchor has been taken (R223, R175). -/
  portPos : Nat := 0
  /-- Features produced and not yet sent: chunk and its fp32 values, frame by frame and beam by beam (R193). -/
  feats : Map (List Nat) := []
  /-- The clock loop after the last sample of each of the newest 64 chunks, newest first (R187). -/
  clocks : List ClockAt := []
  /-- Frames of a port that came and went before processing began (R177). -/
  early : Nat := 0
  /-- Weight blocks that are no longer current, newest first: each with the first sample it does not apply to; empty for the default weights (R190). -/
  weights : List (Nat × List Byte) := []
deriving DecidableEq, Repr

/-- What an accepted ADMIT or an IMPORT has reserved (R87, R112): core allocations, FAMILY, and the reel's blocks. -/
structure Reserved where
  home : Option Alloc := none
  listen : Option Alloc := none
  family : Nat := 0
  base : Nat := 0
  blocks : Nat := 0
deriving DecidableEq, Repr

/-- A stream command accepted and waiting for its tick (R83, R85). -/
structure StreamCmd where
  op : Nat
  slot : Nat
  ring : Nat
  idx : Nat
  tick : Nat
  epoch : Nat
  addr : Nat
  len : Nat
  flags : Nat
  /-- ADMIT: the record read from host memory (R86). -/
  par : Params := {}
  /-- ADMIT: what it has reserved (R87). -/
  res : Reserved := {}
deriving DecidableEq, Repr

/-- One slot of the slot table (R80 to R94). -/
structure Slot where
  state : SlotState := .free
  holder : Holder := .scheduler
  cmdRing : Nat := 0
  epoch : Nat := 0
  /-- CUR: the committed bank (R93). -/
  cur : Nat := 0
  par : Params := {}
  /-- The tier in force is the full model (R95); kept while it drains or is parked. -/
  full : Bool := false
  /-- Token passes since the last tick boundary began (R92). -/
  passes : Nat := 0
  /-- The first chunk that has no record yet. -/
  next : Nat := 0
  chunks : List Chunk := []
  /-- A promotion is held (R97); the earliest s_w since the stream last entered LISTEN, or that of the promotion under way (R97, R512); the
  boundary at which a WAKE promotes it. -/
  held : Bool := false
  wake : Option Nat := none
  promoteAt : Option Nat := none
  /-- Catch-up in progress: p and k0 (R100). -/
  catchup : Option (Nat × Nat) := none
  /-- The stop tick and the final chunk of a drain (R104). -/
  stopTick : Option Nat := none
  finalChunk : Option Nat := none
  /-- The drain's final completion has been issued (R104). -/
  drained : Bool := false
  /-- After DEMOTE: the decoder lists go when the last TRANSCRIBE chunk ends (R101, R337). -/
  demoting : Bool := false
  demoteNext : Bool := false
  /-- Last fault code (STR_VIEW_STATE.FAULT) and a fault awaiting its boundary with its chunk (R102). -/
  fault : Nat := 0
  faultDue : Option (Nat × Nat) := none
  /-- A forced teardown: requested, or carried out and waiting for its FREE boundary (R106). -/
  tearReq : Bool := false
  /-- A forced teardown is under way: the state the slot had, which STR_VIEW_STATE shows until the slot is FREE (R106). -/
  tearing : Option SlotState := none
  exp : Option Export := none
  imp : Option Import := none
  home : Option Alloc := none
  listen : Option Alloc := none
  bankA : CacheBank := {}
  bankB : CacheBank := {}
  /-- Entries the chunk under way has appended: decoder and encoder A (R345); decoder working list formed (R341). -/
  decA : Option Nat := none
  encA : Option Nat := none
  working : Bool := false
  /-- FAMILY of its program (R259). -/
  family : Nat := 0
  audio : Audio := {}
  cnt : Counters := {}
deriving DecidableEq, Repr

/-- A beam bind of one FE_ page (R190): what it names, and the checked block once fetched. -/
structure Bind where
  slot : Nat
  addr : Nat
  dev : Bool
  tick : Nat
  ready : Bool := false
  /-- Bound by a solve (R445): its result says so. -/
  solver : Bool := false
  /-- The stream it names has been released or torn down since (R211). -/
  gone : Bool := false
deriving DecidableEq, Repr

/-! ## Audio ports (05_audio_ports.md) -/

/-- A channel gate (R227 to R231): frames waited, or the next ramp frame. -/
inductive Gate where
  | closed | opening (waited : Nat) | rampUp (j : Nat) | opened | closing (waited : Nat) | rampDown (j : Nat)
deriving DecidableEq, Repr

/-- A pending port command (R228): START or STOP, its stamp and its observation order. -/
structure PortCmd where
  isStart : Bool
  stamp : Nat
  seq : Nat
deriving DecidableEq, Repr

/-- What a pin of a port shows (R214): high impedance, the port's own signal, or a low level. -/
inductive Drive where
  | highZ | driven | low
deriving DecidableEq, Repr

/-- A received frame kept for a line or THROUGH (R232, R239): its number, its samples by channel, for IEC its preamble and V, U, C
bits of subframes A and B, its position in the IEC block, and whether it was buffered. -/
structure RxFrame where
  no : Nat
  samples : List Int
  flags : List Nat := []
  pos : Nat := 0
  good : Bool := true
deriving DecidableEq, Repr

/-- One port: AP0 to AP7 are 0 to 7, IX0 and IX1 are 8 and 9 (R214, R220). -/
structure Port where
  pend : List PortCmd := []
  seq : Nat := 0
  /-- Gates of channels 0 to 7 (R227), and the last frame's integer samples by channel, where that frame ran (R229). -/
  gates : List Gate := List.replicate 8 .closed
  /-- Commands that have taken effect and act on the gates from the frame that began then on: that instant, START, and TIMEOUT (R228 to R231). -/
  acts : List (Nat × Bool × Nat) := []
  prev : List (Option Int) := List.replicate 8 none
  /-- Instant from which frames run, frames received since, and frames sent by line (R228, R232). -/
  since : Nat := 0
  frameNo : Nat := 0
  outNo : Map Nat := []
  rx : List RxFrame := []
  /-- The slot mask in force for the frame under way (R242). -/
  mask : Nat := 0
  /-- When the front end takes the newest held frame, in 1 ÷ (21 × rate) ns (R225). -/
  takeAt : Nat := 0
  /-- The block under way: frames in it, its length, whether the next frame begins one, its stamp, blocks begun (R223, R224). -/
  inBlock : Nat := 0
  blockLen : Nat := 0
  newBlock : Bool := true
  stamp : Nat := 0
  blockNo : Nat := 0
  /-- Frames buffered in the TAI second under way, and that second (R218). -/
  secNo : Nat := 0
  secCnt : Nat := 0
  /-- Buffering instant of the last well-formed frame. -/
  lastGood : Option Nat := none
  /-- Frames dropped since the last one buffered (R226). -/
  lost : Nat := 0
  /-- A switch under way: the state to return to, whether the target is master, and the boundary it began at (R240). -/
  switch : Option (Nat × Bool × Nat) := none
  /-- TIMEOUT in force for the commands applied (R242). -/
  timeout : Nat := 256
  /-- IEC: consecutive good and bad frames for lock (R234). -/
  good : Nat := 0
  bad : Nat := 0
  /-- IEC block under way (R236): the next position, whether one began with B, whether frames are missing from it, its stamp, the C
  and U bits (A, B) by position, and its counts. -/
  pos : Nat := 0
  inIec : Bool := false
  holed : Bool := false
  bStamp : Nat := 0
  cbits : List (Nat × Nat) := []
  ubits : List (Nat × Nat) := []
  wellFormed : Nat := 0
  dropped : Nat := 0
  invalidA : Nat := 0
  invalidB : Nat := 0
  /-- U bits of the last complete block, IEC blocks seen, and a descriptor lost since the last one written (R237, R238). -/
  lastU : List (Nat × Nat) := []
  iecCount : Nat := 0
  csqLossDue : Bool := false
  /-- THROUGH: the substitute frames sent in a row; SILENCE: the frame of its 192-frame block and the status latched for it (R239). -/
  subs : Nat := 0
  silencePos : Nat := 0
  silenceCs : List Nat := []
  /-- The last frame each output line sent: two samples and, for IEC, the preambles and the V, U and C bits (R232, R239). -/
  sent : Map (List Int) := []
deriving DecidableEq, Repr

/-! ## Programs, runs and cores (06_compute_die.md, 07, 08) -/

/-- A section of a program image (R260). -/
structure Section where
  core : Nat
  kind : Nat
  off : Nat
  len : Nat
  dataLen : Nat
  imgOff : Nat
deriving DecidableEq, Repr

/-- A loaded program image (R260). -/
structure Image where
  id : Nat
  lane : Nat
  cls : Nat
  stage : Nat
  stages : Nat
  ragged : Nat
  beams : Nat
  mask : Nat
  rstate : Nat
  kwstate : Nat
  encCache : Nat
  resultMax : Nat
  maxTokens : Nat
  deckleOff : Nat
  sections : List Section
  /-- Usable by runs (from the first boundary after its last section was written), and being unloaded (R263, R265). -/
  usable : Bool := false
  unloading : Bool := false
  /-- RELOAD (R265): 0 none, 1 not dispatched from the next boundary, 2 not dispatched, 3 rewritten: dispatched from the next boundary. -/
  reload : Nat := 0
  /-- ENTRY_BYTES of its decoder and encoder CACHE descriptors, CAP and WINDOW_ENTRIES (R334), 0 if it has none. -/
  decEntry : Nat := 0
  encEntry : Nat := 0
  encCap : Nat := 0
  encWin : Nat := 0
deriving DecidableEq, Repr

/-- The command in progress on a program page (R263, R265): 1 LOAD, 3 RELOAD; the image's address, length; RELOAD's new image. -/
structure ProgCmd where
  kind : Nat
  addr : Nat
  len : Nat
  id : Nat := 0
  img : List Byte := []
deriving DecidableEq, Repr

/-- One row of a run (R269). -/
structure Row where
  slot : Nat
  epoch : Nat
  k : Nat
  cur : Nat
  len : Nat
  /-- Its core allocation as it stood at dispatch (R266, R269). -/
  alloc : Option Alloc := none
  /-- A fault of this row alone (R275): the fault code of R102. -/
  fault : Option Nat := none
  /-- Queries of this row that were empty in this run (R353). -/
  empty : Bool := false
deriving DecidableEq, Repr

/-- A WAIT in progress on a core (R483). -/
structure Wait where
  mailbox : Nat
  target : Nat
  limit : Nat
  since : Nat
deriving DecidableEq, Repr

/-- A dispatched run that has not ended (R267 to R275). -/
structure Run where
  id : Nat
  rcd : RunRec
  stage : Nat
  final : Bool
  tick : Nat
  /-- The slot its placement starts at, and the instant it ends (R56); none after a resume, when the owner map alone tells. -/
  first : Nat
  until_ : Option Nat
  rows : List Row
  suspended : Bool := false
  /-- It holds every core of its mask; its tables, context and deckle table have been put there since (R57, R270). -/
  started : Bool := false
  opened : Bool := false
  /-- Its contexts lie in the context areas, from a suspension since its deckle table was written (R272). -/
  saved : Bool := false
  /-- A core fault stops it: the cores that have come to a tile-instruction boundary since (R275). -/
  stops : Option Nat := none
  /-- Bytes of its CODE section that each core has executed (R261). -/
  pos : Map Nat := []
  /-- Cores that ended, that wait at a BARRIER, and the cycles each core has executed (R262, R271, R273). -/
  ended : Nat := 0
  barrier : Nat := 0
  cycles : Map Nat := []
  overBudget : Bool := false
  /-- Cores whose vector instruction waits for features (R607). -/
  featWait : Nat := 0
  /-- Felt pages held (R342). -/
  holds : List Nat := []
  /-- Numeric status counts not yet added, by core: ACC_SAT … FTZ (R317). -/
  status : Map (List Nat) := []
  /-- SEQ_SPLIT partials sent to the head's lowest core (R355), by ((row × 64 + head) × 4,096 + query) × 8 + part: m, l, then o. -/
  partials : Map (List Nat) := []
  /-- WAITs in progress by core. -/
  waits : Map Wait := []
  /-- When each core came to the BARRIER it waits at (R262, R273). -/
  barrierAt : Map Nat := []
  /-- What its rows produced, kept from the last END until the stage ends (R271, R274, R384). -/
  ends : Option (List RowEnd) := none
deriving DecidableEq, Repr

/-- What a row of a final stage sends to the stream die (R274): the epoch of its dispatch, its lane, the result bytes not yet
accepted, whether bytes were dropped, whether the utterance has ended, and whether it has waited for the result store (R605). -/
structure CommitMsg where
  slot : Nat
  k : Nat
  epoch : Nat
  run : Nat
  tick : Nat
  lane : Nat
  rest : List Byte
  truncated : Bool
  eou : Bool
  waited : Bool := false
deriving DecidableEq, Repr

/-- A felt page's directory record (R338); state 0 FREE, 1 LIVE, 2 RELEASING. -/
structure FeltPage where
  state : Nat := 0
  ref : Nat := 0
  hold : Nat := 0
  tenancy : Nat := 0
  shared : Bool := false
deriving DecidableEq, Repr

/-- A prefix handle (R343). -/
structure Handle where
  pages : List Nat := []
  dlen : Nat := 0
  cross : Bool := false
  used : Bool := false
deriving DecidableEq, Repr

/-- A prefix command awaiting its boundary (R343): 0 CAPTURE, 1 ATTACH, 2 DROP. -/
structure PfxCmd where
  kind : Nat
  slot : Nat
  handle : Nat
  cross : Bool
  /-- The instant at which the command was observed (R62, R76). -/
  at_ : Nat := 0
deriving DecidableEq, Repr


/-! ## Tables and the gather engine (09_tables_and_gather.md) -/

/-- A table's descriptor (R379) and pending state change (1 ENABLE, 2 DISABLE). State 0 UNDEFINED, 1 DISABLED, 2 ENABLED. -/
structure Table where
  state : Nat := 0
  pend : Nat := 0
  n : Nat := 1
  rows : Nat := 1
  dim : Nat := 32
  shard : Nat := 0
  off : Nat := 0
  bytes : Nat := 0
  nodes : List Nat := []
  map : List (Nat × Nat) := []
  key : Nat := 0
  /-- The first interval whose updates this shard has not applied (R395, R396). -/
  next : Nat := 0
deriving DecidableEq, Repr

/-- A table command in progress (R380): the GX_CMD bit number and its operands. -/
structure GxCmd where
  kind : Nat
  table : Nat
  off : Nat := 0
  len : Nat := 0
  addr : Nat := 0
  /-- The instant at which an ENABLE or DISABLE was observed (R62, R76). -/
  at_ : Nat := 0
deriving DecidableEq, Repr

/-- What became of one index of a gather list (R383, R389): waiting, or its count. -/
inductive IdxOut where
  | waiting | row (bytes : List Byte) | null | invalid | absent | poison
deriving DecidableEq, Repr

/-- A gather list in progress (R382 to R393). -/
structure GList where
  id : Nat
  tenancy : Nat
  table : Nat
  core : Nat
  run : Nat
  flags : Nat
  out : Nat
  view : Nat
  bounds : List Nat
  rows : List Nat
  weights : List Nat
  got : List IdxOut
  distinct : Nat := 0
  lateView : Nat := 0
  /-- Rows placed in the prefetch store (R383). -/
  placed : Nat := 0
  /-- Rows whose read waits for a tag, in issue order (R385, R391). -/
  todo : List Nat := []
deriving DecidableEq, Repr

/-- A held tag (R385, R386). -/
structure Tag where
  tenancy : Nat
  list : Nat
  row : Nat
  gen : Nat
  at_ : Nat
  node : Nat
  part0 : Option (List Byte) := none
deriving DecidableEq, Repr

/-- A row in the prefetch store (R397, R398). -/
structure PfRow where
  tenancy : Nat
  table : Nat
  row : Nat
  view : Nat
  shard : Nat
  bytes : List Byte
  /-- The owner's APPLIED notice for its interval has come and reports none. -/
  clean : Bool := false
deriving DecidableEq, Repr

/-- An update entry being collected or waiting for its interval (R388, R399, R400). -/
structure UpdEntry where
  tenancy : Nat
  table : Nat
  interval : Nat
  node : Nat
  seq : Nat
  row : Nat
  rule : Nat
  flags : Nat
  eta : Nat
  decay : Nat
  parts : Nat
  got : Map (List Nat) := []
  key : Nat := 0
deriving DecidableEq, Repr

/-- What this chip holds of one other member of a table's group (R396, R398). -/
structure Member where
  /-- Reads of the current view, and UPDATE packets of the current interval, sent to it. -/
  readsSent : Nat := 0
  updsSent : Nat := 0
  /-- By interval: its fence (reads, packets), the reads of that view served to it, and the UPDATE packets it sent. -/
  fences : Map (Nat × Nat) := []
  served : Map Nat := []
  updsGot : Map Nat := []
  /-- Its last APPLIED notice: interval and rows. -/
  applied : Option (Nat × Nat) := none
deriving DecidableEq, Repr

/-- The gather engine (R385 to R405). Tables at 16 × tenancy + table; members at 32 × that + node; `limits` holds the fence limit
instants of intervals cut and not yet applied; `gone` the entries dropped for want of a part: table key, node, sequence number. -/
structure Gx where
  tables : Map Table := []
  cmds : Map GxCmd := []
  lists : List GList := []
  nextList : Nat := 0
  tags : Map Tag := []
  /-- The generation in which each tag was last taken (R386). -/
  gens : Map Nat := []
  prefetch : List PfRow := []
  /-- The first interval whose cut has not been taken (R394). -/
  interval : Nat := 0
  upds : List UpdEntry := []
  members : Map Member := []
  limits : Map Nat := []
  gone : List (Nat × Nat × Nat) := []
  /-- Remote reads of a view that waits for an application (R396). -/
  waiting : List ReadReq := []
  seq : Nat := 0
deriving DecidableEq, Repr



/-! ## Solver engine (10_solver_engine.md) -/

/-- An iterate (x, y, z, s) of a solve, each value 8 bytes in the schedule's mode (R417, R433). -/
structure Iterate where
  x : List Nat := []
  y : List Nat := []
  z : List Nat := []
  s : List Nat := []
deriving DecidableEq, Repr

/-- A handle: its schedule image (empty: none), its store units, its two parameter banks, the current one, a checked PARAM's
effective tick, and its last OPTIMAL solution (R427 to R433). -/
structure SolHandle where
  img : List Byte := []
  base : Nat := 0
  units : Nat := 0
  bank0 : List Nat := []
  bank1 : List Nat := []
  cur : Option Nat := none
  due : Option Nat := none
  last : Option Iterate := none
deriving DecidableEq, Repr

/-- A command in progress on a SOL_ page (R427, R430): 0 LOAD, 2 PARAM. -/
structure SolCmd where
  kind : Nat
  handle : Nat
  addr : Nat
  len : Nat
  tick : Nat
deriving DecidableEq, Repr

/-- A solve request (R439, R440). `core` is none for a host request. -/
structure SolReq where
  id : Nat
  tenancy : Nat
  core : Option Nat := none
  run : Nat := 0
  addr : Nat := 0
  arrived : Nat := 0
  read : Bool := false
  readAt : Nat := 0
  handle : Nat := 0
  flags : Nat := 0
  taps : Nat := 0
  tag : Nat := 0
  deadline : Nat := 0
  measAddr : Nat := 0
  resAddr : Nat := 0
  resLen : Nat := 0
  beamSlot : Nat := 0
  beamFirst : Nat := 0
  beamTick : Nat := 0
  /-- The run that issued it has stopped, or its tenancy has been reset: nothing of it is written (R452, R454). -/
  dead : Bool := false
  /-- It is the ninth of its tenancy, to be refused when it has been read (R440). -/
  full : Bool := false
deriving DecidableEq, Repr

/-- The solve that runs (R434 to R438): its data array, the iterate at the end of the phase under way, the totals of what it has
counted, the phase (0 setup, then the iteration), the instant it ends, and what that phase gives: refinement steps, pivots,
saturations, and whether α lay below 2⁻³⁰. -/
structure Solving where
  req : SolReq
  start : Nat
  /-- EPS_EXP and SHIFT_EXP of SOL_PIVOT_EPS at the start (R424, R437, R447). -/
  eps : Nat := 36
  shift : Nat := 24
  data : List Nat := []
  it : Iterate := {}
  /-- The iterate of the last phase that has ended, with its norms and μ: what a solve cut short returns (R455). -/
  prev : Iterate := {}
  prevRes : Nat × Nat × Nat := (0, 0, 0)
  warm : Bool := false
  phase : Nat := 0
  endAt : Nat := 0
  refines : Nat := 0
  pivots : Nat := 0
  sat : Nat := 0
  stalls : Nat := 0
  pres : Nat := 0
  dres : Nat := 0
  mu : Nat := 0
  phaseRefines : Nat := 0
  phasePivots : Nat := 0
  phaseSat : Nat := 0
  small : Bool := false
deriving DecidableEq, Repr

/-- The solver engine (R417 to R459). -/
structure Sol where
  handles : Map SolHandle := []
  cmds : Map SolCmd := []
  reqs : List SolReq := []
  nextReq : Nat := 0
  run : Option Solving := none
deriving DecidableEq, Repr

/-! ## Buarcon Link (11_buarcon_link.md) -/

/-- The LINK book of one VC and class at a port, both halves (R469, R576). -/
structure LinkBook where
  held : Nat := 0
  sent : Nat := 0
  returned : Nat := 0
  buffered : Nat := 0
  received : Nat := 0
  owed : Nat := 0
  sentBack : Nat := 0
deriving DecidableEq, Repr

/-- A packet queued for an output: its VC × 2 + class, the bodies of it that have left, and for transit the input whose buffer holds it: port,
VC × 2 + class, bodies (R464, R468, R469). -/
structure OutPkt where
  key : Nat
  pk : Packet
  gone : Nat := 0
  from_ : Option (Nat × Nat × Nat) := none
deriving DecidableEq, Repr

/-- A flit sent and not acknowledged (R461, R463): FSEQ, ACK, the credits it returns, and its body: VC × 2 + class, the packet, and which of
the packet's bodies; none where the flit is idle. -/
structure SentFlit where
  fseq : Nat
  ack : Nat
  credits : List Nat
  body : Option (Nat × Packet × Nat) := none
deriving DecidableEq, Repr

/-- A port beyond its registers (R460 to R495). Books and streams are by VC × 2 + class. -/
structure BlPort where
  /-- The next FSEQ, and consecutive failures of one flit (R463). -/
  expect : Nat := 0
  fails : Nat := 0
  /-- The FSEQ of the next flit to send, and the replay buffer, oldest first (R461, R463). -/
  next : Nat := 0
  unacked : List SentFlit := []
  books : Map LinkBook := []
  /-- Bytes of a packet not yet whole (R465). -/
  asm : Map (List Byte) := []
  /-- Packets queued for the output: they wait for credits (R468, R469). -/
  outq : List OutPkt := []
  /-- The FSEQ of the CONTROL flits among the last 1,023 flits, and the VC that the round robin serves next (R468). -/
  ctl : List Nat := []
  turn : Nat := 1
  /-- Packets sent, newest first. -/
  sent : List Packet := []
  /-- Lanes the signal box asks to side (R487). -/
  laneSb : Nat := 0
  /-- Siding: SIDE_REQ sent, SIDE_ACK received, DRAINED sent and received (R488). -/
  reqSent : Bool := false
  ackSent : Bool := false
  ackSeen : Bool := false
  drainedSent : Bool := false
  drainedSeen : Bool := false
  /-- The generation in which the port is absent (R488), and whether a change that takes it back is on its way (R493). -/
  goneGen : Option Nat := none
  back : Bool := false
  /-- A width agreed and the flit at which it starts (R490). -/
  widthAt : Option (Nat × Nat) := none
  /-- HELLO sent by the partner has passed every test; both ends are ready (R472, R489). -/
  ready : Bool := false
deriving DecidableEq, Repr

/-- A calender flow (R481 to R484): its configuration, what is pending of it, the maxima of the last four ticks and of this one
(fp32 patterns), E in force, and the saturations of this tick. -/
structure Flow where
  mode : Nat := 0
  steps : Nat := 8
  e0 : Int := 0
  thr : Nat := 64
  /-- A pending value of CAL_FLOW_CFG and its writer (R501, R699). -/
  pend : Option (Nat × Nat × Nat) := none
  past : List Nat := []
  now : Nat := 0
  e : Int := 0
  sat : Nat := 0
deriving DecidableEq, Repr

/-- A state transfer under way at its source (R485): 1 sending, 2 awaiting XFER_ACK, and since when. -/
structure Xfer where
  src : Nat
  node : Nat
  off : Nat
  len : Nat
  state : Nat := 1
  since : Nat := 0
deriving DecidableEq, Repr

/-- Buarcon Link and the calender (R460 to R502). -/
structure Bl where
  ports : Map BlPort := []
  /-- The route map: state of port p of node n at 8 n + p: 3 IN_SERVICE, 4 SIDING; unlisted: absent (R477). -/
  map : Map Nat := []
  /-- Notices seen, by (origin, serial); changes not yet in force; this chip's next serial number. -/
  seen : List (Nat × Nat) := []
  due : List MapNotice := []
  serial : Nat := 0
  /-- Generations begun since reset; older generations not drained, oldest first (R478, R479). -/
  gens : Nat := 0
  live : List Nat := []
  /-- INJ and EJ of each generation modulo 4, and the reports held: 4 n + g → (INJ, FINAL, EJ). -/
  inj : Map Nat := []
  ej : Map Nat := []
  reports : Map (Nat × Bool × Nat) := []
  /-- Counter value of the last DRAIN report and of the last map change. -/
  reportAt : Nat := 0
  mapAt : Nat := 0
  /-- Next SEQ sent by DST × 4 + VC, next SEQ expected by SRC × 4 + VC, the reorder store, packets delivered and not yet taken. -/
  seqOut : Map Nat := []
  seqIn : Map Nat := []
  reorder : List Packet := []
  arrived : List Packet := []
  /-- Calender flows at 256 × tenancy + flow; mailboxes at 4,096 × tenancy + 64 × core + MBOX. -/
  flows : Map Flow := []
  mbox : Map Nat := []
  xfers : Map Xfer := []
  /-- Transfers being received, by 64 × source + tenancy: the code of one that has failed, else 0 (R486). -/
  rx : Map Nat := []
  /-- BL_NODE has been written since T0 (R671). -/
  noded : Bool := false
deriving DecidableEq, Repr

/-! ## Power (12_power_and_governor.md) -/

/-- A pending mode request (R504): mode, effective tick (0: earliest), the signal box asked, instant observed. -/
structure ModeReq where
  mode : Nat
  at_ : Nat
  sb : Bool
  seen : Nat
deriving DecidableEq, Repr

/-- The governor and the modes beyond their registers (R503 to R523). -/
structure Pwr where
  req : Option ModeReq := none
  /-- A widening or a STANDBY exit that has begun: the mode and the tick it takes effect (R505, R510). -/
  widen : Option (Nat × Nat) := none
  /-- OFF follows STANDBY_READY (R511). -/
  off : Bool := false
  /-- The last OPTIMAL plan: the tick it was solved in, and its allowances for the eight ticks after it, core 4 first; none where a
  core has no demand in the horizon (R513, R519, R520). -/
  plan : Option (Nat × List (List (Option Nat))) := none
  /-- Allowances in force and for the next tick, core 4 first; none: Y (R519). -/
  allow : List (Option Nat) := []
  next : List (Option Nat) := []
  /-- Main-lane cycles executed in this tick by core, and by all cores in the last one (R514, R519). -/
  used : Map Nat := []
  lastUsed : Nat := 0
  /-- Cores at the LOW step, and those of them with demand in the next tick (R519). -/
  low : Nat := 0
  lowNext : Nat := 0
  /-- Cores stopped until the next boundary by allowance or limiter (R519, R521). -/
  stopped : Nat := 0
  /-- The POWER condition has failed in this tick (R601). -/
  cut : Bool := false
  /-- The governor has solved in this tick (R513). -/
  solved : Bool := false
  /-- Forecast records written to each tenancy (R523). -/
  fcSeq : Map Nat := []
deriving DecidableEq, Repr

/-! ## Memory integrity (13_memory_integrity.md) -/

/-- A damaged word or block (R541): store, unit, address; 1 correctable, 2 uncorrectable, 3 carrying the poison mark; the bit; and for
stores 4, 5, 6 and 8 the item it was injected into (R572), where it was. -/
structure Damage where
  store : Nat
  unit : Nat
  addr : Nat
  kind : Nat
  bit : Nat := 0
  item : Option Nat := none
deriving DecidableEq, Repr

/-- Memory integrity beyond its registers (R536 to R573). -/
structure Mem where
  damage : List Damage := []
  /-- Corrected words waiting for their write-back (R540). -/
  back : List (Nat × Nat × Nat) := []
  /-- The error log: 32-byte records by index modulo 256 (R559). -/
  log : Map (List Byte) := []
  /-- CEs counted in this tick (R560). -/
  ceTick : Nat := 0
  /-- The instants at which the SRAM and the LPDDR5X patrol pass under way began (R551, R552). -/
  sramPass : Option Nat := none
  dramPass : Option Nat := none
  /-- FATAL has met its tick boundary: nothing is dispatched, consumed or written (R557). -/
  halted : Bool := false
deriving DecidableEq, Repr

/-! ## The ledger (14_conservation_ledger.md) -/

/-- A part found out of balance (R581): book, instance, tenancy (255: device or link), expected and found. -/
structure Imbalance where
  book : Nat
  inst : Nat
  tenancy : Nat
  expect : Nat
  found : Nat
deriving DecidableEq, Repr

/-- The ledger's own counters (R575) and what the last audit found. -/
structure Led where
  /-- References held by page lists and handles to pages tagged t: R_t (R575). -/
  refs : Map Nat := []
  /-- Reference changes that have left the directory and not reached the other die's counter: tenancy and change (R578). -/
  opens : List (Nat × Int) := []
  /-- LIVE plus RELEASING pages of tenancy t, and FREE pages. -/
  live : Map Nat := []
  free : Nat := 2048
  /-- Tags held by tenancy and free. -/
  tags : Map Nat := []
  tagFree : Nat := 2048
  /-- The audit taken at the last boundary whose result is not yet known: its tick and its failures (R580). -/
  audit : Option (Nat × List Imbalance) := none
  /-- Tenancies whose slots fault at the next boundary (R582), and those to be recounted (R584). -/
  faultDue : List Nat := []
  recount : List Nat := []
deriving DecidableEq, Repr

/-! ## Isolation and the debug gate (15_isolation_and_access.md) -/

/-- Isolation and debug beyond their registers (R601 to R617). -/
structure Iso where
  /-- A run waited for features, or a final stage for the shared part, in this tick (R605, R607). -/
  featWait : Bool := false
  resWait : Bool := false
  /-- Result bytes held in the result store: by slot and chunk key, (tenancy, bytes) (R605). -/
  held : Map (Nat × Nat) := []
  /-- The nonce: the instant of its CHALLENGE and its record; the records of nonces that were replaced and not answered (R613, R614). -/
  nonce : Option (Nat × List Byte) := none
  olds : List (List Byte) := []
  /-- Consecutive failures with codes 2 to 5 (R615). -/
  fails : Nat := 0
  /-- An opening that awaits its boundary: its scope, key slot and record (R615); the key slot that opened the open scope. -/
  opening : Option (Nat × Nat × List Byte) := none
  openSlot : Nat := 0
  /-- Public keys of the four slots (R613). -/
  keys : Map (List Byte) := []
  /-- The run trace ring (R617). -/
  trace : Map (List Byte) := []
deriving DecidableEq, Repr

/-! ## The signal box (16_management_plane.md) -/

/-- A management command queued for its epoch (R632, R637). -/
structure Mgmt where
  opcode : Nat
  kind : Nat
  unit : Nat
  flags : Nat
  gen : Nat
  arg : Nat
  epoch : Nat
  cmdId : Nat
  /-- KEY_PROGRAM: the 96 bytes after the body. -/
  key : List Byte := []
deriving DecidableEq, Repr

/-- A kept outcome (R638, R640): the command, its RESULT, GEN_FOUND and TIME. -/
structure MgmtResult where
  cmd : Mgmt
  result : Nat
  genFound : Nat
  time : Nat
deriving DecidableEq, Repr

/-- One firmware component's staged image (R647, R648). -/
structure Staged where
  version : Nat
  size : Nat
  data : Map Byte := []
  /-- It passed VerifyComplete; ActivateFirmware has named it (R647, R648). -/
  verified : Bool := false
  active : Bool := false
deriving DecidableEq, Repr

/-- The signal box (R628 to R660). -/
structure Sb where
  queue : List Mgmt := []
  results : List MgmtResult := []
  /-- The last four snapshots: epoch, instant, 640 bytes (R641). -/
  snaps : List (Nat × Nat × List Byte) := []
  /-- The generation last seen of each CORE (0 to 63) and PORT (64 to 71), and own applied commands since (R650). -/
  view : Map (Nat × Nat) := []
  /-- Running figures of the epoch under way: power sum and ticks, peak, temperature maxima, counter values at its start (R641). -/
  pkgSum : Nat := 0
  pkgN : Nat := 0
  pkgPeak : Nat := 0
  cdMax : Int := -32768
  sdMax : Int := -32768
  base : List Nat := [0, 0, 0, 0]
  epoch : Nat := 0
  restarted : Bool := false
  /-- What the fifteen numeric sensors read, from the last snapshot (R642). -/
  sensors : List Int := []
  /-- Responses and events sent, newest first (R637 to R642). -/
  sent : List (List Byte) := []
  /-- The registered event receiver (R640). -/
  receiver : Option Nat := none
  /-- SPDM: 0 none, 1 after GET_VERSION, 2 after GET_CAPABILITIES, 3 after NEGOTIATE_ALGORITHMS (R631). -/
  spdm : Nat := 0
  /-- The six measurements, index 1 first (R611). -/
  meas : List (List Byte) := []
  /-- PLDM update: 0 idle, 1 learning components, 2 ready, 3 downloading; the component under way (R647). -/
  update : Nat := 0
  table : List (Nat × Nat) := []
  comp : Nat := 0
  staged : Map Staged := []
deriving DecidableEq, Repr

/-! ## Reset and bring-up (17_reset_and_bring_up.md) -/

/-- The package: power, resets and the boot (R661 to R690). -/
structure Pkg where
  /-- The part has power and PWR_GOOD is high (R665). -/
  powered : Bool := false
  /-- The stream die is up: register pages answer (SD_READY, R669, R719). -/
  sdUp : Bool := false
  /-- PERST_N is low; the endpoint has been released (R665, R670). -/
  perst : Bool := true
  released : Bool := false
  /-- The boot count (R613). -/
  boots : Nat := 0
  /-- The counter value that stands for T0, which steps of the counter move (R690). -/
  t0 : Int := 0
  /-- The firmware images in flash (R610). -/
  fw : Option FwImages := none
  /-- LPDDR5X channels are trained (R669). -/
  trained : Bool := false
  /-- The resets of a PERST_N or hot reset have not all completed (R674). -/
  hostReset : Bool := false
  /-- Functions whose function-level reset has not completed (R157). -/
  flrs : List Nat := []
  /-- SB_OFF_REQ_N and THERM_TRIP_N are driven low (R663, R749). -/
  offReq : Bool := false
  thermTrip : Bool := false
deriving DecidableEq, Repr

/-! ## The whole state -/

/-- A ticked value waiting for its boundary (R699): field, instance, array element, value, the party that wrote it
(a function number, or 64 for the signal box), and the counter value at which it was observed (R76). -/
structure Pend where
  fld : Fld
  inst : Nat
  idx : Nat
  value : Nat
  writer : Nat
  at_ : Nat := 0
deriving DecidableEq, Repr

/-- The NS-1's state. -/
@[ext]
structure State where
  /-- System counter, ns of TAI, and its fractional part in 1/(256 × 10⁹) ns (R31, R32). -/
  cnt : Nat
  frac : Nat
  /-- Register fields in force that differ from their reset value, by field key (R691 to R700). -/
  regs : Map Nat
  /-- Ticked values pending (R699). -/
  pend : List Pend
  /-- RO-L latches by 2⁴⁰ × party + field key (R696). -/
  latches : Map Nat
  /-- Counter value + 1 at which each page's GEN last advanced (R706). -/
  genAt : Map Nat
  /-- What the last register read returned (R64). -/
  readData : Nat
  /-- MSI-X table and pending bits: 1,024 × function + dword, and 1,024 × function + 512 + vector (R708). -/
  msix : Map Nat
  ht : Ht
  tt : Tt
  fns : Map Fn
  vfEnable : Bool
  numVfs : Nat
  linkUp : Bool
  rings : Map Ring
  /-- Upstream stores pending, oldest first; the function last granted; the requests committed, newest first, with their instants (R151, R152). -/
  stores : List Store
  lastGrant : Nat
  txq : List (Nat × Store)
  slots : Map Slot
  cmds : List StreamCmd
  binds : Map Bind
  ports : Map Port
  images : Map (List Image)
  progCmds : Map ProgCmd
  runs : List Run
  /-- RESULT and COMMIT messages on the couch link, oldest first (R274, R281). -/
  commits : List CommitMsg
  nextRun : Nat
  /-- Cell tables loaded per core: 4 × 1,025 entries (R253). -/
  cellTabs : Map (List Int)
  felt : Map FeltPage
  handles : Map Handle
  pfx : Map PfxCmd

  /-- The flit of each direction of the couch link that failed last (0 to the compute die, 1 to the stream die) and how often it has (R282), and
  whether the link is up. -/
  couchTries : Map (Nat × Nat)
  couchUp : Bool
  gx : Gx
  sol : Sol
  bl : Bl
  pwr : Pwr
  mem : Mem
  led : Led
  iso : Iso
  sb : Sb
  pkg : Pkg
  /-- Byte memories: core SRAM at 2²⁴ × core + offset, the felt at 65,536 × page + byte, LPDDR5X (R256, R338, R538). -/
  sram : Memory
  feltMem : Memory
  dram : Memory
  /-- Stores of the command under way, newest first; empty between commands. -/
  post : List MemOp
  /-- The core whose instruction is under way; none between commands. -/
  actor : Option Nat
  /-- The number of free values drawn so far (the model's own field). -/
  draws : Nat
  /-- The commands that wait, first in, first out. -/
  pending : List Instr
deriving DecidableEq, Repr

/-- The state at T0 (R665): every register at its reset value, everything else empty. -/
def State.reset : State :=
  { cnt := 0, frac := 0, regs := [], pend := [], latches := [], genAt := [], readData := 0, msix := [], ht := {}, tt := {}, fns := [],
    vfEnable := false, numVfs := 0, linkUp := false, rings := [], stores := [], lastGrant := 63, txq := [], slots := [], cmds := [],
    binds := [], ports := [], images := [], progCmds := [], runs := [], commits := [], nextRun := 0, cellTabs := [], felt := [], handles := [],
    pfx := [], couchTries := [], couchUp := false, gx := {}, sol := {}, bl := {}, pwr := {}, mem := {}, led := {},
    iso := {}, sb := {}, pkg := {}, sram := [], feltMem := [], dram := [], post := [], actor := none, draws := 0, pending := [] }

end Sys2Proof.Machine
end

