-- ==== Sys2Proof/Machine/Ops.lean ====
section
/-! DEFINITION. Machine/Ops.lean: the named operations every command is written with: register fields, time, interrupts,
generation counters, upstream stores. -/
namespace Sys2Proof.Machine

/-- What a command answers. -/
abbrev Out := Host.Outcome State Fault Refusal

/-- Apply `f` where `c` holds. -/
def State.onlyIf (s : State) (c : Bool) (f : State → State) : State := if c then f s else s

/-! ## Byte memories -/

/-- One store applied to the memory of space `sp`. -/
def MemOp.apply (sp : Space) (m : Memory) : MemOp → Memory
  | .wr q a data => if q = sp then m.wrBytes a data else m
  | .zero q a n => if q = sp then m.zero a n else m
  | .clear q => if q = sp then [] else m

/-- The stores of a command, newest first, applied to the memory of space `sp`. -/
def applyPost (sp : Space) (m : Memory) (l : List MemOp) : Memory := l.foldr (fun o m => o.apply sp m) m

/-- What a store puts at address `a` of space `sp`, if it reaches it. -/
def MemOp.at (sp : Space) (a : Nat) : MemOp → Option Byte
  | .wr q b data => if q = sp && b ≤ a && a < b + data.length then data[a - b]? else none
  | .zero q b n => if q = sp && b ≤ a && a < b + n then some 0 else none
  | .clear q => if q = sp then some 0 else none

/-- The memory of a space. -/
def State.memory (s : State) : Space → Memory
  | .sram => s.sram
  | .felt => s.feltMem
  | .dram => s.dram

/-- The byte at `a`: the newest store of the command under way that reaches it, else the memory. -/
def State.rd (s : State) (sp : Space) (a : Nat) : Byte :=
  match s.post.findSome? (MemOp.at sp a) with
  | some b => b
  | none => (s.memory sp).rd a

/-- `n` bytes from `a`. -/
def State.rdBytes (s : State) (sp : Space) (a n : Nat) : List Byte := (List.range n).map (fun i => s.rd sp (a + i))

/-- The little-endian value of `n` bytes at `a` (R12). -/
def State.rdLe (s : State) (sp : Space) (a n : Nat) : Nat := le (s.rdBytes sp a n) 0 n

/-- The state after a command that leaves `t`: its stores are in the memories, and the queue is as it was. -/
def State.commit (s t : State) : State :=
  { t with sram := applyPost .sram s.sram t.post, feltMem := applyPost .felt s.feltMem t.post,
           dram := applyPost .dram s.dram t.post, post := [], actor := none, pending := s.pending }

/-- A command that leaves `t` answers. -/
def State.done (s t : State) : Out := .next (s.commit t)

/-! ## Register fields -/

/-- The row of the field table that lists `f`. -/
def Fld.row (f : Fld) : Option FieldRow := f.page.rows.find? (fun r => r.fld.off == f.off && r.fld.lo == f.lo)

/-- Reset value of field `f` of instance `i` (R723 for the common header, the field tables for the rest). -/
def Fld.reset (f : Fld) (i : Nat) : Nat :=
  if f.off = 0x24 then (if f.page.perTenancy then i else 0)
  else if f.off = 0 then (if f.lo = 0 then i else f.page.type)
  else if f.off = 4 then 1
  else match f.row with
    | some r => if i = 0 then r.reset0.getD r.reset else r.reset
    | none => 0

/-- The value in force of field `f` of instance `i`, element `j` of a register array. -/
def State.get (s : State) (f : Fld) (i : Nat := 0) (j : Nat := 0) : Nat :=
  match Map.find s.regs (f.key i j) with
  | some v => v
  | none => f.reset i

/-- Put `v` in force in field `f`. -/
def State.set (s : State) (f : Fld) (v : Nat) (i : Nat := 0) (j : Nat := 0) : State :=
  { s with regs := Map.put (f.key i j) (v % two f.w) s.regs }

/-- A one-bit field as a truth value. -/
def State.flag (s : State) (f : Fld) (i : Nat := 0) (j : Nat := 0) : Bool := s.get f i j != 0

/-- A signed field. -/
def State.getS (s : State) (f : Fld) (i : Nat := 0) (j : Nat := 0) : Int := toS f.w (s.get f i j)

/-- Put a signed value in force. -/
def State.setS (s : State) (f : Fld) (v : Int) (i : Nat := 0) (j : Nat := 0) : State := s.set f (ofS f.w v) i j

/-- Advance a counter, modulo 2³² (R692). -/
def State.bump (s : State) (f : Fld) (i : Nat := 0) (j : Nat := 0) (n : Nat := 1) : State := s.set f (s.get f i j + n) i j

/-- Advance a counter that saturates at its largest value. -/
def State.bumpSat (s : State) (f : Fld) (i : Nat := 0) (j : Nat := 0) (n : Nat := 1) : State :=
  s.set f (min (s.get f i j + n) (two f.w - 1)) i j

/-- A 64-bit value in two registers. -/
def State.get2 (s : State) (lo hi : Fld) (i : Nat := 0) (j : Nat := 0) : Nat := s.get lo i j + two lo.w * s.get hi i j

/-- Write a value over two registers. -/
def State.set2 (s : State) (lo hi : Fld) (v : Nat) (i : Nat := 0) (j : Nat := 0) : State :=
  (s.set lo v i j).set hi (v / two lo.w) i j

/-! ## Time (R31, R32) -/

/-- Units of the counter's fraction in one nanosecond. -/
def nsUnit : Nat := 256000000000

/-- Let `dt` ns of the counting clock pass: the counter gains dt × (1 + y), with y of HT_FREQ_ADJ in 1/256 ppb (R32, R36). A part without
power does not count (R34, R503). -/
def State.elapse (s : State) (dt : Nat) : State :=
  let n := if s.pkg.powered then dt else 0
  let total := ((s.cnt * nsUnit + s.frac : Nat) : Int) + (n : Int) * ((nsUnit : Int) + s.getS HT_FREQ_ADJ)
  { s with cnt := (total / (nsUnit : Int)).toNat, frac := (total % (nsUnit : Int)).toNat }

/-- The counter moves on to instant `t` of the part's own; it never moves back. -/
def State.reach (s : State) (t : Nat) : State := if s.cnt < t then { s with cnt := t, frac := 0 } else s

/-- P_ns, the tick period in ns, of a period code: 10, 20 or 40 ms (R45). -/
def codeNs (c : Nat) : Nat := 10000000 * two c

/-- P_ns in force (R45). -/
def State.periodNs (s : State) : Nat := codeNs (s.get TT_PERIOD)

/-- The start of tick `m` (R45). -/
def State.tickAt (s : State) (m : Nat) : Nat := m * s.periodNs

/-- The timetable runs (R63). -/
def State.running (s : State) : Bool := s.flag TT_STAT_RUNNING

/-- The table interval that contains the present instant (R394, R395). -/
def State.viewNow (s : State) : Nat := max s.gx.interval s.tt.tick

/-- Interval x where interval w takes the number m. -/
def shifted (w m x : Nat) : Nat := x + m - w

/-- The keys of a map renumbered. -/
def Map.shift {α : Type} (f : Nat → Nat) (m : Map α) : Map α := m.foldl (fun c e => Map.put (f e.1) e.2 c) []

/-- What is held of a member, its intervals renumbered. -/
def Member.renumber (f : Nat → Nat) (m : Member) : Member :=
  { m with fences := m.fences.shift f, served := m.served.shift f, updsGot := m.updsGot.shift f,
           applied := m.applied.map (fun a => (f a.1, a.2)) }

/-- The interval in force and every interval recorded relative to it, renumbered; the interval in force gets the number `m`. -/
def Gx.renumber (w m : Nat) (g : Gx) : Gx :=
  let f := shifted w m
  { g with
    interval := m
    tables := g.tables.map (fun e => (e.1, { e.2 with next := f e.2.next }))
    lists := g.lists.map (fun l => { l with view := f l.view })
    prefetch := g.prefetch.map (fun r => { r with view := f r.view })
    upds := g.upds.map (fun e => { e with interval := f e.interval })
    members := g.members.map (fun e => (e.1, e.2.renumber f))
    waiting := g.waiting.map (fun q => { q with view := f q.view }) }

/-- Ticks are counted anew from the counter (R44, R45, R71): the tick is the one that contains the present instant, its next slot is the first
not before it, and the table interval in force ends at the first cut after it (R394; assumption 53). -/
def State.renumberTicks (s : State) : State :=
  let m := s.cnt / s.periodNs
  let off := s.cnt - s.tickAt m
  let cut := s.get GX_CUT * s.periodNs / 64
  { s with tt := { s.tt with tick := m, nextSlot := max 1 (ceilDiv (64 * off) s.periodNs) },
           gx := s.gx.renumber s.viewNow (if off < cut then m else m + 1) }

/-- After a step of the counter (R44): values pending at the step apply at the next boundary, whatever the counter read when they were
written. -/
def State.stepPending (s : State) : State :=
  { s with
    pend := s.pend.map (fun q => { q with at_ := 0 })
    genAt := []
    bl := { s.bl with flows := s.bl.flows.map (fun e => (e.1, { e.2 with pend := e.2.pend.map (fun x => (x.1, x.2.1, 0)) })) } }

/-! ## Generation counters (R706) -/

/-- Advance GEN of a page, at most once at one counter value. -/
def State.bumpGen (s : State) (p : Page) (i : Nat := 0) : State :=
  let k := (hdrGen p).addr i 0
  if Map.find s.genAt k = some (s.cnt + 1) then s
  else { s.bump (hdrGen p) i with genAt := Map.put k (s.cnt + 1) s.genAt }

/-- Change a field whose change advances its page's GEN. -/
def State.setGen (s : State) (f : Fld) (v : Nat) (i : Nat := 0) : State :=
  if s.get f i = v then s else (s.set f v i).bumpGen f.page i

/-! ## Functions (R126, R153) -/

/-- A function's PCIe state. -/
def State.fnState (s : State) (f : Nat) : Fn := Map.get s.fns f {}

/-- A function issues requests: its Bus Master Enable is set, and it is not in D3hot (R126, R153). -/
def State.mayRequest (s : State) (f : Nat) : Bool := (s.fnState f).bme && !(s.fnState f).cfg.d3hot

/-! ## Interrupts (R154, R723) -/

/-- The page and instance at a BAR0 page number (R707). -/
def pageAt (n : Nat) : Option (Page × Nat) :=
  match Page.all.find? (fun p => p.base / 0x1000 ≤ n && n < p.base / 0x1000 + p.count) with
  | some p => some (p, n - p.base / 0x1000)
  | none => none

/-- The function that owns a page: the one whose number is its TENANCY. -/
def State.owner (s : State) (p : Page) (i : Nat) : Nat := s.get (hdrTenancy p) i

/-- The vector a page signals: RING_ pages their RING_CFG.VECTOR, every other page vector 0 (R154). -/
def State.vector (s : State) (p : Page) (i : Nat) : Nat := if p = .ring then s.get RING_CFG_VECTOR i else 0

/-- The register entry `e` is an INT_STAT bit, set and enabled, that vector `v` of function `f` serves. -/
def State.serves (s : State) (f v : Nat) (e : Nat × Nat) : Bool :=
  e.1 / 32 % 0x1000 == 0x10 &&
  match pageAt (e.1 / 32 / 0x1000) with
  | some (p, i) => s.owner p i == f && s.vector p i == v && (e.2 &&& (s.get (hdrIntEn p) i / two (e.1 % 32))) != 0
  | none => false

/-- The OR of the INT_STAT and INT_EN bits that vector `v` of function `f` serves (R154). -/
def State.level (s : State) (f v : Nat) : Bool := s.regs.any (s.serves f v)

/-- Queue an upstream store (R151); a function under reset writes nothing more (R156). -/
def State.store (s : State) (st : Store) : State :=
  if (Map.get s.fns st.fn {}).flr then s else { s with stores := s.stores ++ [st] }

/-- A dword of a function's MSI-X table: mask bits are 1 after reset (R708). -/
def State.msixWord (s : State) (f d : Nat) : Nat := Map.get s.msix (1024 * f + d) (if d % 4 = 3 then 1 else 0)

/-- Vector `v` of function `f` may not be sent: its entry or the function is masked, or MSI-X is not enabled (R126, R154, R708). -/
def State.msixMasked (s : State) (f v : Nat) : Bool :=
  let c := (Map.get s.fns f {}).cfg
  s.msixWord f (4 * v + 3) % 2 == 1 || c.msixMask || !c.msix

/-- Send vector `v` of function `f`, or set its pending bit while it is masked (R154, R708); a function under reset does neither (R157). -/
def State.msixSend (s : State) (f v : Nat) : State :=
  if (Map.get s.fns f {}).flr then s
  else if s.msixMasked f v then { s with msix := Map.put (1024 * f + 512 + v) 1 s.msix }
  else s.store { fn := f, kind := .msix, addr := s.msixWord f (4 * v) + two 32 * s.msixWord f (4 * v + 1),
                 data := toLe 4 (s.msixWord f (4 * v + 2)) }

/-- Do `g` and raise the vector of page `p` if its OR changed from 0 to 1 (R154). -/
def State.signalling (s : State) (p : Page) (i : Nat) (g : State → State) : State :=
  let f := s.owner p i
  let v := s.vector p i
  let t := g s
  if !s.level f v && t.level f v then t.msixSend f v else t

/-- Set an INT_STAT bit (R154). -/
def State.raise (s : State) (f : Fld) (i : Nat := 0) : State := s.signalling f.page i (fun t => t.set f 1 i)

/-! ## Ticked values (R699) -/

/-- The pending value of a ticked field, if it has one. -/
def State.pendOf (s : State) (f : Fld) (i : Nat := 0) (j : Nat := 0) : Option Pend :=
  s.pend.find? (fun q => decide (q.fld = f) && q.inst == i && q.idx == j)

/-- What a read of a field returns: its pending value, else the value in force (R699). -/
def State.shown (s : State) (f : Fld) (i : Nat := 0) (j : Nat := 0) : Nat :=
  match s.pendOf f i j with
  | some q => q.value
  | none => s.get f i j

/-- A register's word, from the fields that the register file holds (R699). -/
def State.regWord (s : State) (p : Page) (i off : Nat) : Nat :=
  (p.rows.filter (fun r => r.fld.off == off)).foldl (fun n r => n + s.shown r.fld i * two r.fld.lo) 0

/-- A party's number: its function, or 64 for the signal box. -/
def Party.num : Party → Nat
  | .fn f => f.val
  | .sb => 64

/-- Make a value pending for the next boundary (R699): the last write of a field stands. -/
def State.pendWrite (s : State) (p : Party) (f : Fld) (v : Nat) (i : Nat := 0) (j : Nat := 0) : State :=
  { s with pend := s.pend.filter (fun q => !(decide (q.fld = f) && q.inst == i && q.idx == j)) ++
                   [{ fld := f, inst := i, idx := j, value := v % two f.w, writer := Party.num p, at_ := s.cnt }] }

/-- A write of 1 to APPLY, and the counter value at which it was observed (R703). -/
def State.setApply (s : State) (pg : Page) (i : Nat) : State :=
  { s.set (hdrApply pg) 1 i with genAt := Map.put ((hdrApply pg).addr i 0) (s.cnt + 1) s.genAt }

/-- APPLY of a page was written below the boundary of the tick that begins (R703). -/
def State.applies (s : State) (pg : Page) (i : Nat) : Bool :=
  s.flag (hdrApply pg) i && decide (Map.get s.genAt ((hdrApply pg).addr i 0) 0 ≤ s.tickAt s.tt.tick)

/-- A value that `w` wrote at `at_` takes effect at the boundary of the tick that begins: it was observed below the boundary (R62, R76), and
is not the owning function's on a page whose HOLD is 1 and whose APPLY is not set (R701 to R703). -/
def State.dueNow (s : State) (pg : Page) (i w at_ : Nat) : Bool :=
  decide (at_ < s.tickAt s.tt.tick) && !(w == s.owner pg i && s.flag (hdrHold pg) i && !s.applies pg i)

/-- A pending value that takes effect at this boundary. -/
def State.falls (s : State) (q : Pend) : Bool := s.dueNow q.fld.page q.inst q.writer q.at_

/-- The pages whose GEN the unit rules of R635 govern. -/
def Page.unitGen : Page → Bool
  | .core | .blp | .pwrg | .dbgg => true
  | .pkgi | .ht | .tt | .pkgb | .str | .fe | .apt | .ixp | .ring | .prog | .felt | .gx | .sol | .blg | .cal
  | .pwrt | .memg | .memt | .ledg | .ledt | .isog | .isot | .dbgw | .blt | .sb => false

/-- One pending value takes effect (R699); a value that differs advances GEN, on a unit's page only where R635 names it (R706). -/
def State.applyPend (s : State) (q : Pend) : State :=
  if s.get q.fld q.inst q.idx = q.value then s
  else (s.set q.fld q.value q.inst q.idx).onlyIf (!q.fld.page.unitGen || decide (q.fld = BL_PORT_CTL_LANE_SIDE) || decide (q.fld = PWR_CAP_MW)) (fun t => t.bumpGen q.fld.page q.inst)

/-- The register entry `e` is an APPLY bit that was written below the boundary of the tick that begins. -/
def State.applyBit (s : State) (e : Nat × Nat) : Bool :=
  e.1 / 32 % 0x1000 == 0x1C && e.1 % 32 == 0 && decide (Map.get s.genAt (e.1 / 32) 0 ≤ s.tickAt s.tt.tick)

/-- Every pending value that falls due takes effect together, and APPLY clears (R699, R703). TT_ CTL.ENABLE waits for step 3 (R62, R63). -/
def State.applyTicked (s : State) : State :=
  let due := fun (q : Pend) => s.falls q && !decide (q.fld = TT_CTL_ENABLE)
  let t := (s.pend.filter due).foldl State.applyPend { s with pend := s.pend.filter (fun q => !due q) }
  { t with regs := t.regs.filter (fun e => !s.applyBit e) }

/-! ## Reach (R127, R600, R695, R709) -/

/-- What a party may do on a page: nothing, read, write the fields marked for tenancy 0, write. -/
inductive Reach where
  | none | read | marked | full
deriving DecidableEq, Repr

/-- Function `f` is enabled: the physical function 0, and VF f while VF Enable is 1 and NumVFs reaches it (R127). -/
def State.fnEnabled (s : State) (f : Nat) : Bool := f == 0 || (s.vfEnable && f ≤ s.numVfs)

/-- The reach of a party on a page (R709). -/
def State.reachOf (s : State) (p : Party) (pg : Page) (i : Nat) : Reach :=
  match p with
  | .sb => .full
  | .fn f =>
    if !s.fnEnabled f then .none
    else if pg.perTenancy || pg.bound then
      (if s.owner pg i = f then .full else if f.val = 0 then .marked else .none)
    else if f.val = 0 then .full
    else match pg with
      | .pkgi | .ht | .tt => .read
      | .pkgb | .str | .fe | .apt | .ixp | .core | .ring | .prog | .felt | .gx | .sol | .blg | .blp | .cal | .pwrg | .pwrt
      | .memg | .memt | .ledg | .ledt | .isog | .isot | .dbgg | .dbgw | .blt | .sb => .none

/-- A refused access is counted on the ISO_ page of the tenancy that made it (R600). -/
def State.denyFn (s : State) (t : Nat) : State :=
  ((s.bump ISO_T_PAGE_DENIED t).bump ISO_DENIED).raise ISOT_INT_STAT_DENIED t

/-- A refused register access of a party; the signal box is never refused. -/
def State.deny (s : State) (p : Party) : State :=
  match p with
  | .fn f => s.denyFn f
  | .sb => s

/-- A write of a register was ignored by R697: the bit that the page, or its chapter, names for it is set. -/
def State.refusal (s : State) (pg : Page) (i off : Nat) : State :=
  match pg with
  | .apt => s.raise APT_INT_STAT_CFG_REFUSED i
  | .ixp => s.raise IXP_INT_STAT_CFG_REFUSED i
  | .blg => s.raise BLG_INT_STAT_CFG_REFUSED
  | .str => if off = 0x100 || 0x140 ≤ off then s.raise STR_INT_STAT_RANGE_REFUSED i else s
  | .fe => if 0x200 ≤ off then s.raise FE_INT_STAT_REEL_CFG_REFUSED else s
  | .core => s.raise CORE_INT_STAT_SIDE_REFUSED i
  | .gx => if off = 0x10C || off = 0x110 then s.raise GX_INT_STAT_QUOTA_REFUSED
    else if off ≤ 0x108 then s.raise GX_INT_STAT_CMD_REFUSED i else s
  | .sol => if off = 0x140 then s.raise SOL_INT_STAT_CMD_REFUSED i else s
  | .isot => s.raise ISOG_INT_STAT_RES_REFUSED
  | .pkgi | .ht | .tt | .pkgb | .ring | .prog | .felt | .blp | .cal | .pwrg | .pwrt | .memg | .memt | .ledg | .ledt | .isog | .dbgg | .dbgw
  | .blt | .sb => s

/-- A word carries what every field of a register reads, pending or in force (R697). -/
def State.sameWord (s : State) (pg : Page) (i off v : Nat) : Bool :=
  if off = 0x24 then v % 64 == s.owner pg i
  else pg.rows.all (fun r => r.fld.off != off || (r.acc != .rw && r.acc != .rwt) || bits v r.fld.lo r.fld.w == s.shown r.fld i || bits v r.fld.lo r.fld.w == s.get r.fld i)

/-- A write that the qualifier of a field forbids `p`: refused, counted for a host function and marked on the page, unless the word `w`
at its offset carries what the register reads (R600, R697). -/
def State.barred (s : State) (p : Party) (pg : Page) (i : Nat) (w : Option (Nat × Nat)) : State :=
  match w with
  | none => s.deny p
  | some x => if s.sameWord pg i x.1 x.2 then s else (s.deny p).refusal pg i x.1

/-- `g`, where `p` may write a field of the page with qualifier `own`; an access out of reach is refused and counted (R600, R695, R697,
R709). No page answers before SD_READY (R719). -/
def State.access (s : State) (p : Party) (pg : Page) (i : Nat) (own : Owner) (g : State → State) (w : Option (Nat × Nat) := none) : State :=
  if !s.pkg.sdUp then s
  else match s.reachOf p pg i with
    | .none => s.deny p
    | .read => s
    | .marked => if own = .fn0 then g s else s
    | .full =>
      match own, p with
      | .page, _ | .sb, .sb => g s
      | .fn0, .fn f => if f.val = 0 then g s else s.barred p pg i w
      | .fn0, .sb | .sb, .fn _ => s.barred p pg i w

/-- A read of a page within reach does `g`; any other read returns zero (R709, R719). -/
def State.reading (s : State) (p : Party) (pg : Page) (i : Nat) (g : State → State) : State :=
  if !s.pkg.sdUp then { s with readData := 0 }
  else match s.reachOf p pg i with
    | .none => { s.deny p with readData := 0 }
    | .read | .marked | .full => g s

/-- Latch a value of an RO-L register for one party (R696). -/
def State.latch (s : State) (p : Party) (f : Fld) (v : Nat) (i : Nat := 0) (j : Nat := 0) : State :=
  { s with latches := Map.put (two 40 * Party.num p + f.key i j) (v % two f.w) s.latches }

/-- What a read of an RO-L register returns to one party (R696). -/
def State.latched (s : State) (p : Party) (f : Fld) (i : Nat := 0) (j : Nat := 0) : Nat :=
  Map.get s.latches (two 40 * Party.num p + f.key i j) (f.reset i)

/-- The value a read returns. -/
def State.returns (s : State) (v : Nat) : State := { s with readData := v }

/-! ## What the signal box sends (R640, R642) -/

/-- The signal box firmware runs: STAGE 1 to 4, and no restart under way (R649, R669). -/
def State.sbUp (s : State) : Bool := 1 ≤ s.get SB_STAT_STAGE && s.get SB_STAT_STAGE ≤ 4 && !s.flag SB_STAT_RESTARTING

/-- A message leaves the management endpoint. -/
def State.send (s : State) (b : List Byte) : State := { s with sb := { s.sb with sent := b :: s.sb.sent } }

/-- A PlatformEventMessage to the registered receiver (R642); its first byte says what it reports: 1 an error record, 2 a power mode,
3 an outcome, 4 a disagreement, 5 a failed boot. -/
def State.notify (s : State) (kind : Nat) (b : List Byte) : State :=
  if s.sbUp && s.sb.receiver.isSome then s.send (BitVec.ofNat 8 kind :: b) else s

/-! ## Free values -/

/-- Draw the number of the next free value. -/
def State.draw (s : State) : Nat × State := (s.draws, { s with draws := s.draws + 1 })

end Sys2Proof.Machine
end

