-- ==== Sys2Proof/Machine/MemOps.lean ====
section
/-! DEFINITION. Machine/MemOps.lean: error records and counts, and stores into the byte memories over damaged words
(13_memory_integrity.md, R536 to R563, R572). -/
namespace Sys2Proof.Machine

/-! ## Stores and tags (R536, R538) -/

/-- Codes of R536 of the byte memories, and the bytes of their words or blocks. -/
def Space.store : Space → Nat
  | .sram => 1
  | .felt => 2
  | .dram => 10
def Space.word : Space → Nat
  | .sram => 8
  | .felt => 8
  | .dram => 32

/-- The address of a damaged word in its byte memory. -/
def Damage.place (d : Damage) : Nat :=
  if d.store = 1 then 16777216 * d.unit + d.addr else if d.store = 2 then 65536 * d.unit + d.addr else d.addr

/-- The item a damaged word of stores 4, 5, 6 and 8 belongs to: 4 and 8 a slot, 5 a row's key, 6 a packet's key. -/
def Damage.itemOf (d : Damage) : Nat := d.item.getD (Config.storeItem d.store d.addr)

/-- Keys of a row of the prefetch store and of a packet of the reorder store. -/
def PfRow.key (r : PfRow) : Nat := r.row + two 32 * (r.table + 16 * r.tenancy)
def pktKey (k : Packet) : Nat := k.seq + 65536 * (k.src.val + 32 * k.kind)

/-- `a` lies in the `n` bytes from `b`. -/
def inSpan (a b n : Nat) : Bool := b ≤ a && a < b + n

/-- The tenancy whose LPDDR5X area holds an address (R536): a reel allocation, a table window, an image window. -/
def State.dramTag (s : State) (a : Nat) : Nat :=
  let reel := s.get FE_REEL_BASE_LO * two 14 + s.get FE_REEL_BASE_HI * two 32
  let ten := fun (i : Nat) => (List.range 64).find? (fun t => inSpan i (s.get STR_RANGE_BASE t) (s.get STR_RANGE_COUNT t))
  let reels := s.slots.map (fun e => (e.1, e.2.audio.baseBlock, e.2.audio.blocks)) ++ s.cmds.map (fun c => (c.slot, c.res.base, c.res.blocks))
  match reels.find? (fun x => inSpan a (reel + 16384 * x.2.1) (16384 * x.2.2)) with
  | some x => (ten x.1).getD 0xFF
  | none =>
    ((List.range 64).find? (fun t =>
      inSpan a (s.get GX_WIN_BASE_LO t * two 20 + s.get GX_WIN_BASE_HI t * two 32) (s.get GX_WIN_SIZE t * two 20) ||
      inSpan a (s.get STR_IMG_BASE_LO t * two 20 + s.get STR_IMG_BASE_HI t * two 32) (s.get STR_IMG_SIZE t * two 20))).getD 0xFF

/-- The tenancy tag of a word (R536); 0xFF for none. -/
def State.memTag (s : State) (d : Damage) : Nat :=
  let store := d.store
  let unit := d.unit
  let addr := d.addr
  if store = 1 then
    ((s.images.find? (fun e => e.2.any (fun m => m.sections.any (fun x => x.core == unit && inSpan addr x.off x.len)))).map
      (fun e => e.1)).getD 0xFF
  else if store = 2 then
    let p := Map.get s.felt unit {}
    if p.state = 0 then 0xFF else p.tenancy
  else if store = 3 then
    ((s.sol.handles.find? (fun e => inSpan addr (65536 * e.2.base) (65536 * e.2.units))).map (fun e => e.1 / 4)).getD 0xFF
  else if store = 4 then ((s.iso.held.find? (fun e => e.1 % 8192 == d.itemOf)).map (fun e => e.2.1)).getD 0xFF
  else if store = 5 then ((s.gx.prefetch.find? (fun r => r.key == d.itemOf)).map (fun r => r.tenancy)).getD 0xFF
  else if store = 6 then ((s.bl.reorder.find? (fun k => pktKey k == d.itemOf)).map (fun k => k.tenancy.val)).getD 0xFF
  else if store = 8 then
    ((List.range 64).find? (fun t => inSpan d.itemOf (s.get STR_RANGE_BASE t) (s.get STR_RANGE_COUNT t))).getD 0xFF
  else if store = 10 then s.dramTag addr
  else 0xFF

/-! ## Records and counts (R540, R558 to R560) -/

/-- ACTION and SOURCE codes of R558. -/
def acNONE : Nat := 0
def acCORRECTED : Nat := 1
def acSUBSTITUTED : Nat := 2
def acROW_FAULT : Nat := 3
def acRUN_FAULT : Nat := 4
def acDROPPED : Nat := 5
def acSOLVE_ENDED : Nat := 6
def acEP_SENT : Nat := 7
def acEXPORT_FAILED : Nat := 8
def acIMPORT_REFUSED : Nat := 9
def acFATAL : Nat := 10
def srRUN_READ : Nat := 1
def srRMW : Nat := 2
def srPATROL : Nat := 3
def srREEL : Nat := 4
def srGATHER : Nat := 5
def srUPDATE : Nat := 6
def srSOLVER : Nat := 7
def srEXPORT : Nat := 8
def srCOPY : Nat := 9
def srPCIE_WRITE : Nat := 10
def srRETURN_PASS : Nat := 11
def srIMPORT : Nat := 12
def srFRONT_END : Nat := 13

/-- What becomes of an error (R558): its action, slot (0xFFFF for none), ARG and source. -/
structure Verdict where
  action : Nat := 0
  slot : Nat := 0xFFFF
  arg : Nat := 0
  source : Nat := 0

/-- The unit and address a record gives of a word (R558). -/
def recordUnit (d : Damage) : Nat := if d.store = 1 then d.unit else if d.store = 10 then (Config.dramChannel d.addr).val else 0
def recordAddr (d : Damage) : Nat := if d.store = 2 then 65536 * d.unit + d.addr else d.addr

/-- Write an error record, or count it lost (R558, R559). -/
def State.logError (s : State) (cls : Nat) (d : Damage) (v : Verdict) : State :=
  let w := s.get MEM_LOG_WR
  if (w + two 32 - s.get MEM_LOG_RD) % two 32 = 256 then (s.bumpSat MEM_LOG_LOST).raise MEMG_INT_STAT_LOG_FULL
  else
    let unit := if d.store = 2 then s.actor.getD 0 else recordUnit d
    let b := record [(8, s.cnt), (1, cls), (1, d.store), (1, s.memTag d), (1, v.action), (2, unit), (2, v.slot),
      (8, recordAddr d), (4, v.arg), (1, v.source), (3, 0)]
    let u := { s.set MEM_LOG_WR (w + 1) with mem := { s.mem with log := Map.put (w % 256) b s.mem.log } }
    u.onlyIf (decide (2 ≤ cls)) (fun v => v.notify 1 b)

/-- A CE is counted, and recorded while LOG_CE is 1 (R540, R558, R560). -/
def State.countCE (s : State) (d : Damage) (source : Nat) : State :=
  let t := s.memTag d
  let s := (s.bumpSat (if d.store = 10 then MEM_CE_DRAM else MEM_CE_SRAM)).raise MEMG_INT_STAT_CE
  let s := s.onlyIf (decide (t < 64)) (fun u => u.bumpSat MEM_T_CE t)
  let n := s.mem.ceTick + 1
  let s := { s with mem := { s.mem with ceTick := n } }
  let s := s.onlyIf (s.get MEM_CE_THR == n) (fun u => u.raise MEMG_INT_STAT_CE_STORM)
  s.onlyIf (s.flag MEMG_CTL_LOG_CE) (fun u => u.logError 1 d { action := acCORRECTED, arg := d.bit, source := source })

/-- A UE is counted and recorded (R543, R558). -/
def State.countUE (s : State) (d : Damage) (v : Verdict) : State :=
  let t := s.memTag d
  let s := (s.bumpSat MEM_UE).raise MEMG_INT_STAT_UE
  (s.onlyIf (decide (t < 64)) (fun u => (u.bumpSat MEM_T_UE t).raise MEMT_INT_STAT_UE t)).logError 2 d v

/-- Change the list of damaged words; a write-back of a word that has been written since is abandoned (R540, R564). -/
def State.setDamage (s : State) (l : List Damage) : State :=
  let back := s.mem.back.filter (fun b => l.any (fun d => d.store == b.1 && d.unit == b.2.1 && d.addr == b.2.2))
  { s with mem := { s.mem with damage := l, back := back } }

/-! ## Stores (R541, R548, R549, R563, R572) -/

/-- The damaged word shares a byte with `n` bytes from `a`; and lies wholly within them. -/
def Damage.touches (d : Damage) (sp : Space) (a n : Nat) : Bool := d.store == sp.store && d.place < a + n && a < d.place + sp.word
def Damage.covered (d : Damage) (sp : Space) (a n : Nat) : Bool := d.store == sp.store && a ≤ d.place && d.place + sp.word ≤ a + n

/-- One damaged word that a store reaches: a whole write clears it; a partial write corrects and counts a correctable one, and marks
and counts an uncorrectable one (R548, R549, R563). -/
def State.healOne (s : State) (sp : Space) (a n : Nat) (v : Verdict) (d : Damage) : State :=
  let keep := s.mem.damage.filter (fun x => decide (x ≠ d))
  if d.covered sp a n then s.setDamage keep
  else if d.kind = 1 then
    ((s.setDamage keep).bumpSat MEM_RMW_CE).countCE d srRMW
  else ((s.setDamage (keep ++ [{ d with kind := 3 }])).bumpSat MEM_RMW_UE).countUE d { v with source := srRMW }

/-- A word address of a byte memory as a damaged word. -/
def damageAt (sp : Space) (a kind bit : Nat) : Damage :=
  let u := if sp = .sram then a / 16777216 else if sp = .felt then a / 65536 else 0
  let o := if sp = .sram then a % 16777216 else if sp = .felt then a % 65536 else a
  { store := sp.store, unit := u, addr := o, kind := kind, bit := bit }

/-- The unit that an injection into this store names is the one written (R572). -/
def State.injectUnit (s : State) (sp : Space) (a : Nat) : Nat :=
  if sp = .sram then a / 16777216 else if sp = .felt then s.actor.getD 64 else (Config.dramChannel a).val

/-- An armed injection is used by a whole write (R572). -/
def State.inject (s : State) (sp : Space) (a n : Nat) : State :=
  let w := roundUp a sp.word
  if !s.flag MEM_INJECT_ARM || s.get MEM_INJECT_STORE != sp.store || a + n < w + sp.word || s.get MEM_INJECT_UNIT != s.injectUnit sp w then s
  else
    let d := s.draw
    let k := if s.flag MEM_INJECT_KIND then 2 else 1
    (d.2.set MEM_INJECT_ARM 0).setDamage (d.2.mem.damage ++ [damageAt sp w k (Config.flippedBit d.1 % (8 * sp.word))])

/-- What a store of `n` bytes from `a` does to damaged words; `tell` is what becomes of a partial write over an uncorrectable one. -/
def State.healWith (s : State) (sp : Space) (a n : Nat) (tell : Damage → Verdict) : State :=
  let hit := s.mem.damage.filter (fun d => d.touches sp a n)
  if n = 0 then s else (hit.foldl (fun u d => u.healOne sp a n (tell d) d) s).inject sp a n
def State.heal (s : State) (sp : Space) (a n : Nat) (v : Verdict) : State := s.healWith sp a n (fun _ => v)

/-- Store bytes from `a`. -/
def State.wrWith (s : State) (sp : Space) (a : Nat) (data : List Byte) (tell : Damage → Verdict) : State :=
  let t := s.healWith sp a data.length tell
  { t with post := .wr sp a data :: t.post }
def State.wr (s : State) (sp : Space) (a : Nat) (data : List Byte) (v : Verdict := {}) : State := s.wrWith sp a data (fun _ => v)

/-- Store `n` zero bytes from `a`. -/
def State.wrZero (s : State) (sp : Space) (a n : Nat) : State :=
  let t := s.heal sp a n {}
  { t with post := .zero sp a n :: t.post }

/-! ## Reads -/

/-- A byte range reads uncorrectable somewhere (R541). -/
def State.poisoned (s : State) (sp : Space) (a n : Nat) : Bool := s.mem.damage.any (fun d => 2 ≤ d.kind && d.touches sp a n)

/-- The uncorrectable words that a store of `n` bytes from `a` covers in part (R549). -/
def State.partBad (s : State) (sp : Space) (a n : Nat) : List Damage :=
  s.mem.damage.filter (fun d => 2 ≤ d.kind && d.touches sp a n && !d.covered sp a n)

/-- The uncorrectable words that a range touches. -/
def State.poisonIn (s : State) (sp : Space) (a n : Nat) : List Damage :=
  s.mem.damage.filter (fun d => 2 ≤ d.kind && d.touches sp a n)

/-- A demand read of a range: each correctable word is corrected, counted, and waits for its write-back (R540); a word that waits
already is counted once. -/
def State.correct (s : State) (hit : Damage → Bool) (source : Nat) : State :=
  (s.mem.damage.filter (fun d => d.kind == 1 && hit d && !s.mem.back.contains (d.store, d.unit, d.addr))).foldl (fun u d =>
    ({ u with mem := { u.mem with back := u.mem.back ++ [(d.store, d.unit, d.addr)] } }).countCE d source) s
def State.demand (s : State) (sp : Space) (a n : Nat) : State := s.correct (fun d => d.touches sp a n) srRUN_READ

/-- Bytes of a range with those of uncorrectable words as zero (R544, R568). -/
def State.rdClean (s : State) (sp : Space) (a n : Nat) : List Byte :=
  let bad := s.poisonIn sp a n
  if bad.isEmpty then s.rdBytes sp a n
  else (List.range n).map (fun i => if bad.any (fun d => d.touches sp (a + i) 1) then 0 else s.rd sp (a + i))

/-! ## Items of the stores that are not byte memories (R536, R543, R546, R572) -/

/-- An item of store `st` is placed: its space is zeroed first, and an armed injection is used by it. Its place in the store is a free
value. -/
def State.placeItem (s : State) (st item : Nat) : State :=
  let s := s.setDamage (s.mem.damage.filter (fun d => !(d.store == st && d.itemOf == item)))
  if !s.flag MEM_INJECT_ARM || s.get MEM_INJECT_STORE != st then s
  else
    let d := s.draw
    let x : Damage := { store := st, unit := 0, addr := 8 * ((Config.freeWord d.1 0).toNat % 32768), kind := if s.flag MEM_INJECT_KIND then 2 else 1,
                        bit := Config.flippedBit d.1 % 64, item := some item }
    (d.2.set MEM_INJECT_ARM 0).setDamage (d.2.mem.damage ++ [x])

/-- An item is read: correctable words are corrected (R540); the answer is an uncorrectable one, if it has any. -/
def State.readItem (s : State) (st item source : Nat) : State × Option Damage :=
  (s.correct (fun d => d.store == st && d.itemOf == item) source,
   s.mem.damage.find? (fun d => d.store == st && 2 ≤ d.kind && d.itemOf == item))

/-- A read of the LPDDR5X block at `a`, as link ECC finds it (R539): a corrected error is counted; where the retry fails too, the block is an
uncorrectable one of this read, and its contents stay as they are. -/
def State.linkRead (s : State) (a : Nat) (link : LinkEcc) (v : Verdict) : State :=
  match link with
  | .good | .retried => s
  | .corrected => s.bumpSat MEM_LINK_CE
  | .failed => s.countUE (damageAt .dram (a / 32 * 32) 2 0) v

/-- Every uncorrectable word of a range is counted and recorded. -/
def State.meet (s : State) (sp : Space) (a n : Nat) (v : Verdict) : State := (s.poisonIn sp a n).foldl (fun u d => u.countUE d v) s

/-- Copy `n` bytes; the destination words of poisoned words are written with the mark (R542). -/
def State.copyBytes (s : State) (sp : Space) (a : Nat) (sq : Space) (b n : Nat) (v : Verdict := {}) : State :=
  let bad := (s.poisonIn sp a n).map (fun d => damageAt sq ((b + (max d.place a - a)) / sq.word * sq.word) 3 0)
  let s := (s.demand sp a n).meet sp a n { source := srCOPY }
  let s := s.wr sq b (s.rdBytes sp a n) v
  s.setDamage (s.mem.damage.filter (fun d => !bad.any (fun x => x.store == d.store && x.place == d.place)) ++ bad)

end Sys2Proof.Machine
end

