-- ==== Sys2Proof/Machine/FeltOps.lean ====
section
/-! DEFINITION. Machine/FeltOps.lean: felt pages, their counts, page lists and holds (08_attention_and_felt.md, R335 to R346). -/
namespace Sys2Proof.Machine

/-- A slot. -/
def State.slot (s : State) (i : Nat) : Slot := Map.get s.slots i {}

/-- Change a slot. -/
def State.modSlot (s : State) (i : Nat) (f : Slot → Slot) : State := { s with slots := Map.put i (f (s.slot i)) s.slots }

/-- The committed bank of the full model and the other one (R93). -/
def Slot.bank (q : Slot) (c : Nat) : CacheBank := if c = 0 then q.bankA else q.bankB
def Slot.committed (q : Slot) : CacheBank := q.bank q.cur
def Slot.other (q : Slot) : CacheBank := q.bank (1 - q.cur)
def Slot.setBank (q : Slot) (c : Nat) (b : CacheBank) : Slot := if c = 0 then { q with bankA := b } else { q with bankB := b }

/-- CUR flips while the view of the caches stays: a keyword chunk's commit (R93, R94). -/
def Slot.flip (q : Slot) : Slot := { q with cur := 1 - q.cur, bankA := q.bankB, bankB := q.bankA }

/-- The directory record of a felt page (R338). -/
def State.page (s : State) (p : Nat) : FeltPage := Map.get s.felt p {}

/-- Change a page's record. -/
def State.modPage (s : State) (p : Nat) (f : FeltPage → FeltPage) : State := { s with felt := Map.put p (f (s.page p)) s.felt }

/-- The ledger's own counters (R575). -/
def State.ledger (s : State) (f : Led → Led) : State := { s with led := f s.led }

/-- The number at a key of a count table plus `n`. -/
def Map.plus (m : Map Nat) (k : Nat) (n : Int) : Map Nat := m.put k ((m.get k 0 : Int) + n).toNat

/-- A page gains a reference (R341); the change travels to the stream die's counter (R578). -/
def State.gainRef (s : State) (p : Nat) : State :=
  let t := (s.page p).tenancy
  (s.modPage p (fun q => { q with ref := q.ref + 1, state := 1 })).ledger (fun l => { l with opens := l.opens ++ [(t, 1)] })

/-- A page loses a reference; at 0 it is RELEASING (R338, R341). -/
def State.loseRef (s : State) (p : Nat) : State :=
  let t := (s.page p).tenancy
  (s.modPage p (fun q => { q with ref := q.ref - 1, state := if q.ref ≤ 1 then 2 else 1 })).ledger
    (fun l => { l with opens := l.opens ++ [(t, -1)] })

/-- Each page of a list gains or loses a reference. -/
def State.gainRefs (s : State) (l : List Nat) : State := l.foldl State.gainRef s
def State.loseRefs (s : State) (l : List Nat) : State := l.foldl State.loseRef s

/-- Holds on the pages of a list begin and end (R342). -/
def State.holdPages (s : State) (l : List Nat) : State :=
  l.foldl (fun t p => t.modPage p (fun q => { q with hold := q.hold + 1 })) s
def State.unholdPages (s : State) (l : List Nat) : State :=
  l.foldl (fun t p => t.modPage p (fun q => { q with hold := q.hold - 1 })) s

/-- Pages of a tenancy that are LIVE or RELEASING (R339), and pages in a state. -/
def State.feltUsed (s : State) (t : Nat) : Nat := (s.felt.filter (fun e => e.2.state != 0 && e.2.tenancy == t)).length
def State.feltIn (s : State) (st : Nat) : Nat := (s.felt.filter (fun e => e.2.state == st)).length

/-- Pages in the felt (R338). -/
def feltPages : Nat := 2048

/-- Bytes of a page. -/
def feltPageBytes : Nat := 65536

/-- The lowest-numbered FREE page (R339). -/
def State.freePage (s : State) : Option Nat := (List.range feltPages).find? (fun p => (s.page p).state == 0)

/-- A page can be allocated to a tenancy (R339, R367). -/
def State.canAlloc (s : State) (t : Nat) : Bool := s.freePage.isSome && decide (s.feltUsed t < s.get FELT_QUOTA t)

/-- An allocation that fails (R339). -/
def State.feltFull (s : State) (t : Nat) : State := (s.bump FELT_FULL_EVENTS t).raise FELT_INT_STAT_FELT_FULL t

/-- Allocate a page to a tenancy: it reads zero, with REF 1 and HOLD 0 (R339). -/
def State.allocPage (s : State) (t : Nat) : State × Option Nat :=
  match s.freePage with
  | none => (s.feltFull t, none)
  | some p =>
    if s.canAlloc t then
      let s := s.modPage p (fun _ => { state := 1, ref := 1, hold := 0, tenancy := t, shared := false })
      let s := s.ledger (fun l => { l with opens := l.opens ++ [(t, 1)], live := l.live.plus t 1, free := l.free - 1 })
      ((s.wrZero .felt (feltPageBytes * p) feltPageBytes).bump FELT_ALLOCS t, some p)
    else (s.feltFull t, none)

/-- Pages with no reference and no hold become FREE at a boundary (R338). -/
def State.sweepPages (s : State) : State :=
  s.felt.foldl (fun t e =>
    if e.2.state != 0 && e.2.ref == 0 && e.2.hold == 0 then
      (t.modPage e.1 (fun q => { q with state := 0, shared := false })).ledger
        (fun l => { l with live := l.live.plus e.2.tenancy (-1), free := l.free + 1 })
    else t) s

/-- The chunk's working list: a copy of the committed list, each page gaining 1 (R341). -/
def State.formWorking (s : State) (i : Nat) : State :=
  let q := s.slot i
  if q.working then s
  else
    let s := s.gainRefs q.committed.pages
    s.modSlot i (fun q =>
      let b := { q.other with pages := q.committed.pages, dlen := q.committed.dlen }
      let q := q.setBank (1 - q.cur) b
      { q with working := true })

/-- A chunk that does not commit: each page of its working list loses 1 (R94, R341). -/
def State.dropWorking (s : State) (i : Nat) : State :=
  let q := s.slot i
  let s := if q.working then s.loseRefs q.other.pages else s
  s.modSlot i (fun q =>
    let b := { q.other with pages := [], dlen := 0 }
    let q := q.setBank (1 - q.cur) b
    { q with working := false, decA := none, encA := none })

/-- Both lists empty, each page losing 1 (R341). -/
def State.dropLists (s : State) (i : Nat) : State :=
  let q := s.slot i
  let s := (s.loseRefs q.bankA.pages).loseRefs q.bankB.pages
  s.modSlot i (fun q =>
    let a := { q.bankA with pages := [], dlen := 0 }
    let b := { q.bankB with pages := [], dlen := 0 }
    { q with bankA := a, bankB := b, working := false, decA := none, encA := none })

/-- Both banks' FILL become zero and HEAD is kept (R337). -/
def State.clearFill (s : State) (i : Nat) : State :=
  s.modSlot i (fun q =>
    let a := { q.bankA with fill := 0 }
    let b := { q.bankB with fill := 0 }
    { q with bankA := a, bankB := b })

/-- After a DEMOTE the last TRANSCRIBE chunk has ended: lists and fill go (R101, R337, R341). -/
def State.demoteEnd (s : State) (i : Nat) : State := ((s.dropLists i).clearFill i).modSlot i (fun q => { q with demoting := false })

end Sys2Proof.Machine
end

