-- ==== Sys2Proof/Machine/RingOps.lean ====
section
/-! DEFINITION. Machine/RingOps.lean: ring indices, credits, device-written descriptors and write-backs (03_host_interface.md). -/
namespace Sys2Proof.Machine

/-- RING_CFG.TYPE codes. -/
def ringSUBMIT : Nat := 0
def ringCOMPLETE : Nat := 1
def ringEVENT : Nat := 2
def ringCOMMAND : Nat := 3

/-- Codes of RING_ERR (R159, R163, R139). -/
def errDB_RANGE : Nat := 1
def errDB_DISABLED : Nat := 2
def errFETCH : Nat := 3
def errVF_DISABLED : Nat := 5

/-- N of R130. -/
def State.ringN (s : State) (r : Nat) : Nat := two (s.get RING_CFG_LOG2_SIZE r)

/-- The ring is ACTIVE. -/
def State.ringActive (s : State) (r : Nat) : Bool := s.get RING_STAT_STATE r == 1

/-- a − b modulo 2³² (R131). -/
def idxSub (a b : Nat) : Nat := (a + two 32 - b % two 32) % two 32

/-- Written and not returned (COMPLETE, EVENT), posted and not consumed (SUBMIT, COMMAND) (R135). -/
def State.written (s : State) (r : Nat) : Nat := idxSub (s.get RING_DEV_IDX r) (s.get RING_HOST_IDX r)
def State.posted (s : State) (r : Nat) : Nat := idxSub (s.get RING_HOST_IDX r) (s.get RING_DEV_IDX r)

/-- A COMPLETE credit is free (R135, R136). -/
def State.creditFree (s : State) (r : Nat) : Bool := s.ringActive r && s.written r + s.get RING_HELD r < s.ringN r

/-- Reserve a COMPLETE credit (R136). -/
def State.reserveCredit (s : State) (r : Nat) : State := s.set RING_HELD (s.get RING_HELD r + 1) r

/-- A ring's state beyond its registers. -/
def State.ring (s : State) (r : Nat) : Ring := Map.get s.rings r {}
def State.modRing (s : State) (r : Nat) (f : Ring → Ring) : State := { s with rings := Map.put r (f (s.ring r)) s.rings }

/-- Bus address of position i mod N of a ring (R131), and of its write-back record (R132). -/
def State.descAddr (s : State) (r i : Nat) : Nat :=
  s.get RING_BASE_LO r * two 12 + s.get RING_BASE_HI r * two 32 + i % s.ringN r * 64
def State.wbAddr (s : State) (r : Nat) : Nat := s.get RING_WB_LO r * 8 + s.get RING_WB_HI r * two 32

/-- S of R147 and the address of the result slot of index i. -/
def State.resultSize (s : State) (r : Nat) : Nat := 256 * two (s.get RING_CFG_STRIDE r)
def State.resultAddr (s : State) (r i : Nat) : Nat :=
  s.get RING_RES_LO r * two 12 + s.get RING_RES_HI r * two 32 + i % s.ringN r * s.resultSize r

/-- THRESHOLD is set and its counts start again (R155). -/
def State.threshold (s : State) (r : Nat) : State :=
  (s.modRing r (fun q => { q with wbs := 0, holdFrom := none })).raise RING_INT_STAT_THRESHOLD r

/-- Something has been written: `n` counts towards RING_WMARK.COUNT, which it reaches where it has not been at or above it since the count last
fired, and the holdoff runs with the value in force at its first descriptor (R155, R168). -/
def State.towardThreshold (s : State) (r n : Nat) : State :=
  let c := s.get RING_WMARK r
  let reached := decide (c ≠ 0) && decide (c ≤ n)
  if reached && !(s.ring r).fired then (s.threshold r).modRing r (fun q => { q with fired := true })
  else s.modRing r (fun q => { q with fired := reached, holdFrom := some (q.holdFrom.getD (s.cnt, s.get RING_HOLDOFF r)) })

/-- PHASE of index i (R133). -/
def State.phase (s : State) (r i : Nat) : Nat := if i / s.ringN r % 2 = 0 then 1 else 0

/-- Write a 64-byte descriptor at the device index and advance it (R131, R133, R140); in FATAL none is written (R557). -/
def State.putDesc (s : State) (r : Nat) (d : List Byte) (note : Note) : State :=
  if s.mem.halted then s else
  let i := s.get RING_DEV_IDX r
  let s := s.store { fn := s.owner .ring r, kind := .descriptor, addr := s.descAddr r i,
                     data := patch (fit 64 d) 0x3F (toLe 1 (s.phase r i)), note := note }
  let s := (s.set RING_DEV_IDX (i + 1) r).bump RING_DESCS r
  s.towardThreshold r (s.written r)

/-- Advance past a consumed descriptor and write the index back (R132); a SUBMIT ring that empties sets EMPTY (R155). -/
def State.consume (s : State) (r : Nat) : State :=
  let i := s.get RING_DEV_IDX r + 1
  let s := (s.set RING_DEV_IDX i r).bump RING_DESCS r
  let s := s.store { fn := s.owner .ring r, kind := .index, addr := s.wbAddr r, data := toLe 4 i ++ zeros 4 }
  let s := s.modRing r (fun q => { q with stalled := false, stamps := q.stamps.filter (fun e => idxSub e.1 i != 0) })
  s.onlyIf (s.get RING_CFG_TYPE r == ringSUBMIT && s.posted r == 0) (fun t => t.raise RING_INT_STAT_EMPTY r)

/-- The stamp of the doorbell that covers the next descriptor (R142). -/
def State.stamp (s : State) (r : Nat) : Nat :=
  match (s.ring r).stamps with
  | e :: _ => e.2
  | [] => s.cnt

/-- EVENT: one EVENT_LOST descriptor for the losses so far (R137, R148). -/
def State.writeLost (s : State) (r : Nat) : State :=
  let n := s.get RING_HELD r
  let tick := s.cnt / s.periodNs
  (s.set RING_HELD 0 r).putDesc r
    (record [(1, 9), (1, 0), (2, 0), (4, 0), (8, s.cnt), (8, tick), (8, 0), (8, n), (8, 0), (8, 0)]) .none

/-- Write an EVENT descriptor, or count it lost where only the last free one is left (R137). -/
def State.putEvent (s : State) (r : Nat) (d : List Byte) : State :=
  if !s.ringActive r then s
  else if s.ringN r ≤ s.written r + 1 then
    ((s.bump RING_EV_LOST r).bumpSat RING_HELD r).raise RING_INT_STAT_EVENT_LOST r
  else s.putDesc r d .none

/-- An event of a stream (R148). -/
def State.event (s : State) (i kind tick sample arg0 arg1 : Nat) (flags : Nat := 0) : State :=
  let q := s.slot i
  s.putEvent q.par.eventRing
    (record [(1, kind), (1, flags), (2, i), (4, q.epoch), (8, s.cnt), (8, tick), (8, sample), (8, arg0), (8, arg1), (8, q.par.userTag)])

/-- A command is done: its write-back is written, and the oldest command not done moves on (R134, R144, R145), also on a ring in ERROR
(R163). The count of write-backs starts again at each THRESHOLD. -/
def State.writeBack (s : State) (r idx value time epoch status : Nat) (irq : Bool) : State :=
  if s.get RING_STAT_STATE r = 0 then s
  else
    let s := s.store { fn := s.owner .ring r, kind := .writeBack, addr := s.descAddr r idx + 0x28,
                       data := record [(8, value), (8, time), (4, epoch), (1, status), (2, 0), (1, 1)] }
    let s := s.modRing r (fun q =>
      let out := (q.out.map (fun e => if e.1 = idx then (e.1, true) else e)).dropWhile (fun e => e.2)
      { q with wbs := q.wbs + 1, out := out, fired := false })
    let s := s.set RING_HELD ((s.ring r).out.filter (fun e => !e.2)).length r
    if irq then s.threshold r else s.towardThreshold r (s.ring r).wbs

/-- The index of the oldest command not done, or the device index (R134). -/
def State.oldestOpen (s : State) (r : Nat) : Nat :=
  match (s.ring r).out with
  | e :: _ => e.1
  | [] => s.get RING_DEV_IDX r

/-- Cut a piece of data into requests of at most `w` bytes. -/
def pieces (w fuel a : Nat) (d : List Byte) : List (Nat × List Byte) :=
  match fuel with
  | 0 => []
  | n + 1 => if d.isEmpty then [] else (a, d.take w) :: pieces w n (a + w) (d.drop w)

/-- A function's payload size in bytes: 128, 256 or 512 (R126). -/
def payloadBytes (c : FnCfg) : Nat := 128 * two c.payload

/-- Queue data as memory writes of at most the function's payload size (R126, R151, R152). -/
def State.storeData (s : State) (fn : Nat) (kind : StoreKind) (a : Nat) (d : List Byte) (note : Note) : State :=
  let c := (Map.get s.fns fn {}).cfg
  (pieces (payloadBytes c) (d.length / payloadBytes c + 1) a d).foldl
    (fun t p => t.store { fn := fn, kind := kind, addr := p.1, data := p.2, ro := c.ro, note := note }) s

/-- The mode is STANDBY (R509); FATAL has met its tick boundary (R557). -/
def State.standby (s : State) : Bool := s.get PWRG_STAT_MODE == 3
def State.fatal (s : State) : Bool := s.mem.halted

/-- The block consumes descriptors: outside STANDBY and FATAL, the ring ACTIVE with something posted, its function's Bus Master
Enable set (R153, R167, R557), and its tenancy not stopped by the ledger (R582). -/
def State.canConsume (s : State) (r : Nat) : Bool :=
  s.ringActive r && s.posted r != 0 && s.linkUp && s.mayRequest (s.owner .ring r) &&
  !s.flag LEDT_STAT_STOPPED (s.owner .ring r) && !s.standby && !s.fatal

end Sys2Proof.Machine
end

