-- ==== Sys2Proof/Machine/HouseTime.lean ====
section
/-! DEFINITION. Machine/HouseTime.lean: the house-time unit (01_timetable.md, R31 to R44, R64 to R70). -/
namespace Sys2Proof.Machine

/-- States of HT_ STAT.STATE. -/
def htUNSET : Nat := 0
def htACQUIRE : Nat := 1
def htLOCKED : Nat := 2
def htHOLDOVER : Nat := 3
def htFREERUN : Nat := 4

/-- The loop values the registers hold. -/
def State.loopRegs (s : State) : LoopVals :=
  { kpShift := s.get HT_LOOP_KP_SHIFT, kiShift := s.get HT_LOOP_KI_SHIFT, lockNs := s.get HT_LOCK_LOCK_NS,
    lockCnt := s.get HT_LOCK_LOCK_CNT, slewPpb := s.get HT_SLEW_MAX, winNs := s.get HT_PPS_WIN,
    delayNs := s.getS HT_PPS_DELAY, drift := s.get HT_HOLD_DRIFT, maxNs := s.get HT_HOLD_MAX_NS }

/-- The loop values in force: the old ones while R78 keeps them. -/
def State.loopVals (s : State) : LoopVals := s.ht.old.getD s.loopRegs

/-- The unit enters a state: leaving LOCKED counts a loss, and the state's own bit is set (R37 to R40, R70). -/
def State.htEnter (s : State) (new : Nat) : State :=
  let old := s.get HT_STAT_STATE
  if old = new then s
  else
    let s := s.onlyIf (old == htLOCKED) (fun t => (t.bump HT_LOCK_LOSSES).raise HT_INT_STAT_LOCK_LOST)
    let s := s.setGen HT_STAT_STATE new
    if new = htLOCKED then
      { ((s.set HT_STAT_EVER_LOCKED 1).raise HT_INT_STAT_LOCKED) with ht := { s.ht with beyond := 0 } }
    else if new = htACQUIRE then { s with ht := { s.ht with inLock := 0, beyond := 0 } }
    else
      let s := { s with ht := { s.ht with old := none, pair := if old = htHOLDOVER || old = htFREERUN then s.ht.pair else none } }
      if new = htHOLDOVER then s.raise HT_INT_STAT_HOLDOVER
      else if new = htFREERUN then s.raise HT_INT_STAT_FREERUN
      else s

/-- ACQUIRE begins a new history of corrections; after HOLDOVER or FREERUN the first edge reloads S_k (R39, assumption 12). -/
def State.beginAcquire (s : State) (reload : Bool) : State :=
  let s := s.htEnter htACQUIRE
  let s := { s with ht := { s.ht with hist := [], reload := reload, holdFrom := none, refFreerun := false } }
  (s.set HT_HOLD_SECONDS 0).set HT_HOLD_BOUND_NS 0

/-- The whole second nearest to (c − d) ÷ 10⁹ (R35). -/
def nearestSecond (c d : Int) : Int := rneDiv (c - d) 1000000000

/-- The phase error of a capture (R35). -/
def phaseError (c d : Int) : Int := c - (nearestSecond c d * 1000000000 + d)

/-- The loop's unclamped correction × 2^(KP + KI), in 1/256 ppb, for phase error `e` and S_k in 1/256 ns (R36). -/
def loopScaled (v : LoopVals) (e S : Int) : Int :=
  -(256 * e * (two v.kiShift : Int) + S * (two v.kpShift : Int))

/-- The loop at an accepted edge (R36, R39). DEDUCED (assumption 12): on the edge that reloads S_k the reloaded value stands even where the
clamp acts, since R39 puts it in the place of S_{k−1} + e_k and R36 holds back only what an update would have added. -/
def State.loopStep (s : State) (v : LoopVals) (e : Int) : State :=
  let S' := if s.ht.reload then -(s.getS HT_FREQ_ADJ * (two v.kiShift : Int)) else s.ht.integ + 256 * e
  let u := loopScaled v e S'
  let sc := two (v.kpShift + v.kiShift)
  let lim : Int := 256 * (v.slewPpb : Int)
  let clamped := decide (lim * (sc : Int) < u.natAbs)
  let y := if clamped then (if 0 < u then lim else -lim) else rneDiv u sc
  let S := if clamped && !s.ht.reload then s.ht.integ else S'
  let s := (s.setS HT_FREQ_ADJ y).set HT_STAT_SLEWING (b2n clamped)
  { s with ht := { s.ht with integ := S, reload := false, hist := (y :: s.ht.hist).take 64 } }

/-- Lock and loss of lock at an accepted edge (R37). ACQUIRE begins a new history, with the correction of the edge that enters it (R39). -/
def State.lockStep (s : State) (v : LoopVals) (e : Int) : State :=
  if s.get HT_STAT_STATE = htACQUIRE then
    let n := if e.natAbs ≤ v.lockNs then s.ht.inLock + 1 else 0
    let s := { s with ht := { s.ht with inLock := n } }
    if v.lockCnt ≤ n then s.htEnter htLOCKED else s
  else if s.get HT_STAT_STATE = htLOCKED then
    let n := if 4 * v.lockNs < e.natAbs then s.ht.beyond + 1 else 0
    let s := { s with ht := { s.ht with beyond := n } }
    if 2 ≤ n then { s.htEnter htACQUIRE with ht := { (s.htEnter htACQUIRE).ht with hist := s.ht.hist.take 1 } } else s
  else s

/-- The counter is set (R43, R44): boundaries the step passes over do not run, and the next one is the first at or after it. -/
def State.stepCounter (s : State) (v : Nat) : State :=
  (State.renumberTicks { s with cnt := v, frac := 0, ht := { s.ht with stepTick := some (ceilDiv v s.periodNs) },
                                pkg := { s.pkg with t0 := s.pkg.t0 + ((v : Int) - s.cnt) } }).stepPending

/-- A refused arm (R43, R68). -/
def State.refuseArm (s : State) : State := (s.bump HT_TOD_REFUSED).raise HT_INT_STAT_TOD_REFUSED

/-- A pending arm at an accepted edge captured at `c` (R43); whether the counter was stepped. -/
def State.armStep (s : State) (v : LoopVals) (c : Nat) : State × Bool :=
  match s.ht.arm with
  | none => (s, false)
  | some a =>
    if c < a.at_ + 1000 then (s, false)
    else
      let s := { s.set HT_STAT_TOD_PENDING 0 with ht := { s.ht with arm := none } }
      if s.running then
        (if nearestSecond c v.delayNs = (a.secs : Int) then (s.bump HT_TOD_CONFIRMS, false) else (s.refuseArm, false))
      else
        let t := (a.secs : Int) * 1000000000 + v.delayNs
        if t < 0 then (s.refuseArm, false)
        else
          let s := s.stepCounter t.toNat
          let s := s.onlyIf (s.get HT_STAT_STATE == htUNSET) (fun u => u.beginAcquire false)
          (s.raise HT_INT_STAT_TOD_APPLIED, true)

/-- An accepted edge captured at `c` with phase error `e` (R35 to R39, R43, R78). After a step the edge instant reads the
second exactly, so its capture is the new counter value and its phase error 0 (assumption 13). -/
def State.acceptEdge (s : State) (v : LoopVals) (c : Nat) (e : Int) : State :=
  let r := (s.bump HT_PPS_EDGES).armStep v c
  let c := if r.2 then r.1.cnt else c
  let e := if r.2 then 0 else e
  let s := (r.1.set2 HT_PPS_CAP_LO HT_PPS_CAP_HI c).setS HT_PHASE_ERR e
  let s := s.onlyIf (s.get HT_STAT_STATE == htACQUIRE || s.get HT_STAT_STATE == htLOCKED)
    (fun t => (t.loopStep v e).lockStep v e)
  { s with ht := { s.ht with lastEdge := some s.cnt, old := none, pair := none } }

/-- Two consecutive edges of HOLDOVER or FREERUN end it (R38). -/
def edgePair (v : LoopVals) (prev : Option (Nat × Int)) (c : Nat) (e : Int) : Bool :=
  match prev with
  | none => false
  | some (c0, e0) =>
    decide (((c : Int) - c0 - 1000000000).natAbs ≤ v.winNs) && decide ((e - e0).natAbs ≤ v.winNs)

/-- A marking edge captured at `c` (R35 to R39). DEDUCED (assumption 12): where R38 and R69 meet, R38 is taken by its letter: once
EVER_LOCKED is 1, ACQUIRE accepts no edge beyond HT_PPS_WIN, also after the pair that ended HOLDOVER with a larger phase error. -/
def State.markEdge (s : State) (c : Nat) : State :=
  let v := s.loopVals
  let e := phaseError c v.delayNs
  let st := s.get HT_STAT_STATE
  if st = htHOLDOVER || st = htFREERUN then
    if edgePair v s.ht.pair c e && (!s.ht.refFreerun || s.flag HT_STAT_REF_OK) then
      (s.beginAcquire true).acceptEdge v c e
    else { s with ht := { s.ht with pair := if s.ht.refFreerun && !s.flag HT_STAT_REF_OK then none else some (c, e) } }
  else if s.flag HT_STAT_EVER_LOCKED && (st == htACQUIRE || st == htLOCKED) && v.winNs < e.natAbs then
    (s.bump HT_PPS_SPURIOUS).raise HT_INT_STAT_PPS_SPURIOUS
  else s.acceptEdge v c e

/-- The capture of an edge: the counter with the unit's uncertainty of ± 2 ns (R737), a free value. -/
def State.capture (s : State) : Nat × State :=
  let d := s.draw
  (s.cnt + (Config.captureErr d.1).val - 2, d.2)

/-- PPS_EDGE. A pulse shorter than 20 ns is ignored (R737), and so is an edge while PPS_EN is 0 or of the other polarity. -/
def execPpsEdge (dt : Nat) (fall : Bool) (width : Nat) (s : State) : Out :=
  let t := s.elapse dt
  s.done (if t.flag HT_CTL_PPS_EN && t.flag HT_CTL_PPS_FALL == fall && 20 ≤ width
    then t.capture.2.markEdge t.capture.1 else t)

/-- The arm write (R42, R68). -/
def State.armTod (s : State) (p : Party) : State :=
  let secs := s.get2 HT_STAGE_SEC_LO HT_STAGE_SEC_HI
  if 18446744072 < secs then s.refuseArm
  else
    let s := s.onlyIf s.ht.arm.isSome (fun t => t.raise HT_INT_STAT_TOD_OVERRIDDEN)
    let sb := decide (p = .sb)
    { (s.set HT_STAT_TOD_PENDING 1).set HT_STAT_ARM_SOURCE (b2n sb) with
      ht := { s.ht with arm := some { secs := secs, sbArmed := sb, at_ := s.cnt } } }

/-- TOD_ARM (R42). -/
def execTodArm (dt : Nat) (p : Party) (s : State) : Out :=
  s.done ((s.elapse dt).access p .ht 0 .page (fun t => t.armTod p))

/-- The mean of the corrections kept, rounded by R16 (R39). -/
def meanCorrection (l : List Int) (y : Int) : Int := if l.isEmpty then y else rneDiv (l.foldl (· + ·) 0) l.length

/-- HOLDOVER begins: the rate is frozen at the mean of the last 64 corrections (R39). DESIGN CHOICE (assumption 12): SLEWING is 0 from here
on, because the frozen rate is no clamped correction; R36 speaks of accepted edges only. -/
def State.enterHoldover (s : State) : State :=
  let s := (s.bump HT_PPS_MISSING).setS HT_FREQ_ADJ (meanCorrection s.ht.hist (s.getS HT_FREQ_ADJ))
  let s := (s.set HT_STAT_SLEWING 0).htEnter htHOLDOVER
  { s with ht := { s.ht with holdFrom := some s.cnt } }

/-- PPS_MISSING: 1.5 s after the last accepted edge (R39); before EVER_LOCKED a missing edge changes nothing. -/
def execPpsMissing (s : State) : Out :=
  s.done (match s.ht.lastEdge with
    | some c =>
      if s.flag HT_STAT_EVER_LOCKED && (s.get HT_STAT_STATE == htACQUIRE || s.get HT_STAT_STATE == htLOCKED)
      then (s.reach (c + 1500000000)).enterHoldover else s
    | none => s)

/-- B(t) of R40 in ns, rounded by R16, and whether it exceeds the threshold. -/
def holdBound (drift t : Nat) : Nat := (rneDiv ((14400 * t + drift * t * t : Nat) : Int) 7200).toNat
def holdExceeds (drift maxNs t : Nat) : Bool := 7200 * maxNs < 14400 * t + drift * t * t

/-- A whole second of holdover completes (R40). -/
def State.holdSecond (s : State) (h : Nat) : State :=
  let t := s.get HT_HOLD_SECONDS + 1
  let v := s.loopVals
  let s := s.reach (h + t * 1000000000)
  let s := (s.set HT_HOLD_SECONDS t).set HT_HOLD_BOUND_NS (min (holdBound v.drift t) (two 32 - 1))
  if s.get HT_STAT_STATE = htHOLDOVER && holdExceeds v.drift v.maxNs t then s.htEnter htFREERUN else s

/-- HOLDOVER_SECOND (R40). -/
def execHoldoverSecond (s : State) : Out :=
  s.done (match s.ht.holdFrom with
    | some h => if s.get HT_STAT_STATE = htHOLDOVER || s.get HT_STAT_STATE = htFREERUN then s.holdSecond h else s
    | none => s)

/-- REF_IN is lost (R70). DESIGN CHOICE (assumption 12): a FREERUN entered here from ACQUIRE or LOCKED goes on at the last correction applied,
with SLEWING as it stood; R39's mean is stated for HOLDOVER alone. -/
def State.refInLost (s : State) : State :=
  let s := (s.set HT_STAT_REF_OK 0).raise HT_INT_STAT_REF_LOST
  if s.get HT_STAT_STATE = htUNSET then s
  else
    let s := s.htEnter htFREERUN
    { s with ht := { s.ht with refFreerun := true, pair := none } }

/-- REF_LOST (R70). -/
def execRefLost (dt : Nat) (s : State) : Out :=
  s.done ((s.elapse dt).onlyIf ((s.elapse dt).flag HT_STAT_REF_OK) State.refInLost)

/-- REF_RETURN (R70): the counting clock switches back without a step; edges count from here. -/
def execRefReturn (dt : Nat) (s : State) : Out :=
  let t := s.elapse dt
  s.done (if t.flag HT_STAT_REF_OK || !t.pkg.powered then t else { t.set HT_STAT_REF_OK 1 with ht := { t.ht with pair := none } })

/-- A read of HT_CNT_LO latches every house-time field from one counter value (R64). `readData` is what the 8-byte read returns, HT_CNT_HI from
that same latch above HT_CNT_LO (R693); a 4-byte read returns its low 32 bits. -/
def State.readCnt (s : State) (p : Party) : State :=
  let c := s.cnt
  let s := s.latch p HT_CNT_HI (c / two 32)
  let s := s.latch p HT_TOD_NS (c % 1000000000)
  let s := s.latch p HT_TOD_SEC_LO (c / 1000000000)
  let s := s.latch p HT_TOD_SEC_HI (c / 1000000000 / two 32)
  s.returns (c % two 64)

/-- HT_CNT_LO_READ (R64). -/
def execHtCntLoRead (dt : Nat) (p : Party) (s : State) : Out :=
  s.done ((s.elapse dt).reading p .ht 0 (fun t => t.readCnt p))

/-- HT_PPS_CAP_LO and the half it latches. -/
def State.readCap (s : State) (p : Party) : State := (s.latch p HT_PPS_CAP_HI (s.get HT_PPS_CAP_HI)).returns (s.get HT_PPS_CAP_LO)

/-- HT_PPS_CAP_LO_READ (R64). -/
def execHtPpsCapLoRead (dt : Nat) (p : Party) (s : State) : Out := s.done ((s.elapse dt).reading p .ht 0 (fun t => t.readCap p))

end Sys2Proof.Machine
end

