-- ==== Sys2Proof/Machine/Timetable.lean ====
section
/-! DEFINITION. Machine/Timetable.lean: the tick period, timetable images and their checks (01_timetable.md, R45 to R61, R71, R75). -/
namespace Sys2Proof.Machine

/-- The tick number and index of R45 read together (R64). -/
def State.readTick (s : State) (p : Party) : State :=
  let m := s.cnt / s.periodNs
  let s := s.latch p TT_TICK_HI (m / two 32)
  let s := s.latch p TT_TICK_INDEX (s.cnt % 1000000000 / s.periodNs)
  s.returns (m % two 32)

/-- TT_TICK_LO_READ (R64). -/
def execTtTickLoRead (dt : Nat) (p : Party) (s : State) : Out :=
  s.done ((s.elapse dt).reading p .tt 0 (fun t => t.readTick p))

/-- The tick period changes at once; tick numbering follows it (R71). -/
def State.setPeriod (s : State) (c : Nat) : State :=
  let s := (s.set TT_PERIOD c).set TT_STAT_PERIOD c
  State.renumberTicks { s with ht := { s.ht with stepTick := none } }

/-- A write of TT_PERIOD: refused while RUNNING and for the value 3 (R71). -/
def State.writePeriod (s : State) (value : Nat) : State :=
  let c := bits value 0 2
  if c = 3 || s.running then s.raise TT_INT_STAT_PERIOD_REFUSED
  else if c = s.get TT_PERIOD then s
  else s.setPeriod c

/-- TT_PERIOD_WRITE (R71). -/
def execTtPeriodWrite (dt : Nat) (p : Party) (value : Nat) (s : State) : Out :=
  s.done ((s.elapse dt).access p .tt 0 .page (fun t => t.writePeriod value))

/-- Codes of TT_IMG_STAT.ERROR (R60, R61, R75, R79). -/
def ttBAD_MAGIC : Nat := 1
def ttBAD_VERSION : Nat := 2
def ttBAD_CRC : Nat := 3
def ttPERIOD : Nat := 4
def ttBOUNDS : Nat := 5
def ttOWNER : Nat := 6
def ttLATE : Nat := 7
def ttABANDONED : Nat := 8
def ttFETCH : Nat := 9

/-- A refusal or an abandonment is recorded and counted (R60, R75). -/
def State.ttRefuse (s : State) (code : Nat) : State :=
  ((s.set TT_IMG_STAT_ERROR code).bump TT_IMG_REFUSED).raise TT_INT_STAT_IMG_REFUSED

/-- The pending image is gone. -/
def State.ttClear (s : State) : State :=
  { (s.set TT_STAT_IMG_PENDING 0).set TT_IMG_STAT_STATE 0 with tt := { s.tt with pend := none } }

/-- The pending image, if any, is abandoned (R75). -/
def State.ttAbandon (s : State) : State := if s.tt.pend.isSome then s.ttClear.ttRefuse ttABANDONED else s

/-- TT_IMG_CMD.LOAD: an address whose bits [5:0] are not zero fetches nothing (R61, R757). DESIGN CHOICE (assumption 54): such a LOAD loads no
second image, so an image already pending stays pending and R75 abandons nothing. -/
def State.ttLoad (s : State) : State :=
  if s.get TT_IMG_ADDR_LO % 64 != 0 then s.ttRefuse ttBOUNDS
  else
    let s := s.ttAbandon
    { (s.set TT_STAT_IMG_PENDING 1).set TT_IMG_STAT_STATE 1 with
      tt := { s.tt with pend := some { at_ := s.get2 TT_IMG_AT_LO TT_IMG_AT_HI, len := s.get TT_IMG_LEN } } }

/-- TT_IMG_LOAD (R61). -/
def execTtImgLoad (dt : Nat) (p : Party) (s : State) : Out := s.done ((s.elapse dt).access p .tt 0 .page State.ttLoad)

/-- TT_IMG_ABANDON (R75). -/
def execTtImgAbandon (dt : Nat) (p : Party) (s : State) : Out := s.done ((s.elapse dt).access p .tt 0 .page State.ttAbandon)

/-- A run record of an image (R59). -/
def parseRun (b : List Byte) (off : Nat) : RunRec :=
  { program := le b off 4, tenancy := le b (off + 4) 1, slots := le b (off + 5) 1, lane := le b (off + 6) 1,
    coreMask := le b (off + 8) 8, budget := le b (off + 0x10) 4, cls := le b (off + 0x14) 2, maxRows := le b (off + 0x16) 2 }

/-- The content of an image (R59). -/
def parseTt (b : List Byte) : TtImage :=
  let L := le b 8 1
  { period := le b 6 1, mode := le b 7 1, cycle := L, id := le b 0xC 4,
    ownerMain := (List.range 64).map (fun j => le b (0x40 + j) 1),
    ownerListen := (List.range 64).map (fun j => le b (0x80 + j) 1),
    slotTable := (List.range (128 * L)).map (fun k => (le b (0xC0 + 8 * k) 4, le b (0xC4 + 8 * k) 2)),
    runs := (List.range (le b 0xA 2)).map (fun r => parseRun b (0xC0 + 1024 * L + 32 * r)) }

/-- Core cycles per slot under a period code (R47). -/
def slotCycles (c : Nat) : Nat := 187500 * two c

/-- A run record obeys the bounds of R60 by itself. -/
def runOk (period : Nat) (r : RunRec) : Bool :=
  r.tenancy ≤ 63 && 1 ≤ r.slots && r.slots ≤ 64 && r.lane ≤ 1 && r.budget ≤ r.slots * slotCycles period &&
  r.coreMask != 0 && (if r.lane = 0 then r.coreMask % 16 == 0 else r.coreMask < 16) && 1 ≤ r.maxRows && r.maxRows ≤ 8192

/-- Every placement of an image: lane, slot and run record. -/
def TtImage.placements (i : TtImage) : List (Nat × Nat × RunRec) :=
  (List.range (128 * i.cycle)).flatMap (fun k =>
    let e := i.slotTable.getD k (0, 0)
    ((i.runs.drop e.1).take e.2).map (fun r => (k / 64 % 2, k % 64, r)))

/-- The slot-table entries name records that exist (R60). -/
def TtImage.entriesOk (i : TtImage) : Bool := i.slotTable.all (fun e => e.2 = 0 || e.1 + e.2 ≤ i.runs.length)

/-- The owner of a slot of a lane (R55). -/
def TtImage.ownerOf (i : TtImage) (lane slot : Nat) : Nat := (if lane = 0 then i.ownerMain else i.ownerListen).getD slot 255

/-- The bounds of R60 beyond the lengths. -/
def TtImage.boundsOk (i : TtImage) : Bool :=
  (i.cycle = 1 || i.cycle = 2 || i.cycle = 4 || i.cycle = 8) && i.mode ≤ 1 && 1 ≤ i.runs.length && i.runs.length ≤ 4096 &&
  i.entriesOk && i.runs.all (runOk i.period) &&
  i.placements.all (fun q => q.1 == q.2.2.lane && q.2.1 + q.2.2.slots ≤ 64) &&
  i.ownerMain.all (fun o => o ≤ 63 || o = 255) && i.ownerListen.all (fun o => o ≤ 63 || o = 255)

/-- In fixed mode every slot a run spans is its tenancy's (R60). -/
def TtImage.ownersOk (i : TtImage) : Bool :=
  i.mode == 1 || i.placements.all (fun q => (List.range q.2.2.slots).all (fun k => i.ownerOf q.1 (q.2.1 + k) == q.2.2.tenancy))

/-- The first check of R60 that `b`, fetched for a TT_IMG_LEN of `len`, fails; 0 for none. -/
def ttCheck (b : List Byte) (len period : Nat) : Nat :=
  let i := parseTt b
  if le b 0 4 ≠ 0x4D495454 then ttBAD_MAGIC
  else if le b 4 2 ≠ 1 then ttBAD_VERSION
  else if le b 0x10 4 ≠ len || len ≠ 192 + 1024 * le b 8 1 + 32 * le b 0xA 2 || 139456 < len then ttBOUNDS
  else if !crcOk (fit len b) 0x14 then ttBAD_CRC
  else if i.period ≠ period then ttPERIOD
  else if !i.boundsOk then ttBOUNDS
  else if !i.ownersOk then ttOWNER
  else 0

/-- Fetch and validation end (R60, R61). -/
def State.ttValidated (s : State) (q : TtPend) (img : Option (List Byte)) : State :=
  match img with
  | none => s.ttClear.ttRefuse ttFETCH
  | some b =>
    let c := ttCheck b q.len (s.get TT_PERIOD)
    if c ≠ 0 then s.ttClear.ttRefuse c
    else if q.at_ ≠ 0 && s.tickAt q.at_ ≤ s.cnt then s.ttClear.ttRefuse ttLATE
    else { s.set TT_IMG_STAT_STATE 3 with tt := { s.tt with pend := some { q with img := some (parseTt b) } } }

/-- TT_IMG_VALIDATED (R60): nothing happens where no image is being fetched. -/
def execTtImgValidated (dt : Nat) (img : Option (List Byte)) (s : State) : Out :=
  let t := s.elapse dt
  s.done (match t.tt.pend with
    | some q => if q.img.isNone && t.mayRequest 0 then t.ttValidated q img else t
    | none => t)

end Sys2Proof.Machine
end

