-- ==== Sys2Proof/Machine/Pools.lean ====
section
/-! DEFINITION. Machine/Pools.lean: loaded images of a class, core SRAM allocations and reel allocations (R196, R259, R266, R267). -/
namespace Sys2Proof.Machine

/-- Slots in a tenancy's range (R80), and the tenancy whose range holds a slot. -/
def State.inRange (s : State) (t i : Nat) : Bool :=
  s.get STR_RANGE_BASE t ≤ i && i < s.get STR_RANGE_BASE t + s.get STR_RANGE_COUNT t
def State.tenancyOf (s : State) (i : Nat) : Nat := ((List.range 64).find? (fun t => s.inRange t i)).getD 0

/-- The loaded images of a tenancy. -/
def State.imagesOf (s : State) (t : Nat) : List Image := Map.get s.images t []

/-- The image a run record names. -/
def State.image (s : State) (t program : Nat) : Option Image := (s.imagesOf t).find? (fun m => m.id == program)

/-- The chain of a stream class on a lane (R267). -/
def State.chain (s : State) (t cls lane : Nat) : List Image :=
  (s.imagesOf t).filter (fun m => m.cls == cls && m.lane == lane && !m.unloading)

/-- The family of an identifier (R259), and that of a class. -/
def family (id : Nat) : Nat := id / 256
def State.classFamily (s : State) (t cls lane : Nat) : Option Nat := (s.chain t cls lane).head?.map (fun m => family m.id)

/-- A class is served by a run of the tenancy in the active timetable image (R87). -/
def State.served (s : State) (t cls lane : Nat) : Bool :=
  match s.tt.active with
  | some i => i.runs.any (fun r => r.tenancy == t && r.lane == lane && r.cls == cls)
  | none => false

/-- Address ranges (offset, length). -/
abbrev Span := Nat × Nat

/-- Pools of one kind of a class's chain on a core (R260, R266). -/
def pools (chain : List Image) (kind core : Nat) : List Span :=
  chain.flatMap (fun m => (m.sections.filter (fun x => x.kind == kind && x.core == core)).map (fun x => (x.off, x.len)))

/-- Bytes of a frame: row header, feature area, two banks (R266). -/
def Alloc.frame (a : Alloc) : Nat := 64 + a.feat + 2 * a.bank

/-- The core allocations of slots (R266), and with them those that accepted ADMITs have reserved (R87). -/
def State.slotAllocs (s : State) : List Alloc := s.slots.flatMap (fun e => [e.2.home, e.2.listen].flatMap Option.toList)
def State.allocs (s : State) : List Alloc := s.slotAllocs ++ s.cmds.flatMap (fun c => [c.res.home, c.res.listen].flatMap Option.toList)

/-- Ranges of a core that allocations hold. -/
def spansOn (l : List Alloc) (core : Nat) : List Span :=
  (l.filter (fun a => a.core == core)).flatMap (fun a => [(a.off, a.frame), (a.cacheOff, a.cacheLen)])
def State.taken (s : State) (core : Nat) : List Span := spansOn s.allocs core

/-- Two ranges share a byte. -/
def Span.meets (x y : Span) : Bool := x.1 < y.1 + y.2 && y.1 < x.1 + x.2 && x.2 != 0 && y.2 != 0

/-- The lowest 64-byte multiple at or after the starts offered at which `n` bytes lie in one pool and meet nothing taken. -/
def firstFit (ps taken : List Span) (n : Nat) : Option Nat :=
  let starts := ps.map (fun p => p.1) ++ taken.map (fun x => roundUp (x.1 + x.2) 64)
  let good := starts.filter (fun a => ps.any (fun p => p.1 ≤ a && a + n ≤ p.1 + p.2) && !taken.any (fun x => Span.meets (a, n) x))
  good.foldl (fun m a => some (match m with | none => a | some b => min a b)) none

/-- Bytes of the pools that nothing holds (R266). -/
def freeBytes (ps taken : List Span) : Nat :=
  let total := (ps.map (fun p => p.2)).foldl (· + ·) 0
  let held := (taken.filter (fun x => ps.any (fun p => Span.meets p x))).map (fun x => x.2)
  total - held.foldl (· + ·) 0

/-- An allocation on one core, if every part fits (R266). -/
def State.tryCore (s : State) (chain : List Image) (core feat bank cache : Nat) : Option Alloc :=
  let used := s.taken core
  let a : Alloc := { core := core, off := 0, feat := feat, bank := bank, cacheLen := cache }
  match firstFit (pools chain 6 core) used a.frame with
  | none => none
  | some off =>
    let a := { a with off := off }
    if cache = 0 then some a
    else match firstFit (pools chain 5 core) ((off, a.frame) :: used) cache with
      | none => none
      | some c => some { a with cacheOff := c }

/-- Insert a core in order of most free pool bytes, the lowest-numbered first on a tie (R266). -/
def insertCore (x : Nat × Nat) : List (Nat × Nat) → List (Nat × Nat)
  | [] => [x]
  | y :: l => if y.1 < x.1 then x :: y :: l else y :: insertCore x l

/-- An allocation on the first candidate core that can hold every part (R266). -/
def State.allocCore (s : State) (chain : List Image) (feat bank cache : Nat) : Option Alloc :=
  let cores := (List.range 64).filter (fun c => !(pools chain 6 c).isEmpty)
  let keyed := cores.map (fun c => (freeBytes (pools chain 6 c ++ pools chain 5 c) (s.taken c), c))
  let order := keyed.foldl (fun l x => insertCore x l) []
  order.findSome? (fun x => s.tryCore chain x.2 feat bank cache)

/-- Frames per chunk of C ticks (R191), and bytes of its feature area (R266). -/
def State.framesPerChunk (s : State) (c : Nat) : Nat := c * s.periodNs / 10000000
def State.featBytes (s : State) (c beams : Nat) : Nat := roundUp (s.framesPerChunk c * beams * 320) 64

/-- SRAM address of an offset on a core. -/
def sramAt (core off : Nat) : Nat := 16777216 * core + off

/-- Zero what an allocation holds (R87, R561). -/
def State.zeroAlloc (s : State) (a : Alloc) : State :=
  (s.wrZero .sram (sramAt a.core a.off) a.frame).wrZero .sram (sramAt a.core a.cacheOff) a.cacheLen

/-- LPDDR5X address of a block of the reel area (R195). -/
def State.reelBase (s : State) : Nat := s.get FE_REEL_BASE_LO * two 14 + s.get FE_REEL_BASE_HI * two 32
def State.reelBlock (s : State) (b : Nat) : Nat := s.reelBase + 16384 * b

/-- REEL_FMT of a FORMAT code (R194), bytes per reel sample, and blocks of a stream's reel (R196). -/
def reelFmt (format : Nat) : Nat := if format = 1 || format = 5 || format = 6 then 0 else 1
def reelBytes (format : Nat) : Nat := if reelFmt format = 0 then 2 else 4
def reelBlocks (format channels : Nat) : Nat := 1 + (if reelFmt format = 0 then 6 else 12) * channels

/-- The reels of slots, and those that accepted ADMITs have reserved: base block and blocks (R87, R196). -/
def State.reels (s : State) : List Span :=
  (s.slots.map (fun e => (e.2.audio.baseBlock, e.2.audio.blocks)) ++ s.cmds.map (fun c => (c.res.base, c.res.blocks))).filter (fun x => x.2 != 0)

/-- The lowest-numbered run of free reel blocks that is long enough (R196). -/
def State.allocReel (s : State) (n : Nat) : Option Nat :=
  let starts := 0 :: s.reels.map (fun x => x.1 + x.2)
  let good := starts.filter (fun b => b + n ≤ s.get FE_REEL_SIZE && !s.reels.any (fun x => Span.meets (b, n) x))
  good.foldl (fun m a => some (match m with | none => a | some b => min a b)) none

/-- Zero everything a reservation holds (R87, R196, R561). -/
def State.zeroReserved (s : State) (r : Reserved) : State :=
  (([r.home, r.listen].flatMap Option.toList).foldl State.zeroAlloc s).wrZero .dram (s.reelBlock r.base) (16384 * r.blocks)

/-- A slot takes what was reserved for it (R87, R196). -/
def Slot.give (q : Slot) (r : Reserved) : Slot :=
  let a := { q.audio with baseBlock := r.base, blocks := r.blocks, bank := 0, bound := false, weights := [] }
  { q with home := r.home, listen := r.listen, family := r.family, audio := a }

end Sys2Proof.Machine
end

