-- ==== Sys2Proof/Machine/Reel.lean ====
section
/-! DEFINITION. Machine/Reel.lean: ingress formats, placement on the grid, the resampler and its clock loop, beams, features and
the reel (04_audio_front_end.md, R170 to R200). -/
namespace Sys2Proof.Machine

def State.modAudio (s : State) (i : Nat) (f : Audio → Audio) : State := s.modSlot i (fun q => { q with audio := f q.audio })

/-- Samples per tick, and per chunk (R48, R88). -/
def State.perTick (s : State) : Nat := s.periodNs / 62500
def State.perChunk (s : State) (q : Slot) : Nat := q.par.chunk * s.perTick
/-- First internal sample of chunk k (R88). -/
def State.chunkFirst (s : State) (q : Slot) (k : Nat) : Nat := q.par.anchor * s.perTick + k * s.perChunk q
def State.chunkLast (s : State) (q : Slot) (k : Nat) : Nat := s.chunkFirst q k + s.perChunk q - 1

/-! ## Ingress formats (R170 to R173) -/

/-- Bytes per sample of a FORMAT code. -/
def sampleBytes (format : Nat) : Nat :=
  if format = 1 then 2 else if format = 2 then 3 else if format = 3 || format = 4 then 4 else 1

/-- G.711 expansion (R172). -/
def ulaw (b : Nat) : Int :=
  let c := 255 - b
  signed (bit c 7) ((c % 16 * 8 + 132) * two (c / 16 % 8) - 132)
def alaw (b : Nat) : Int :=
  let c := b ^^^ 0x55
  let e := c / 16 % 8
  signed (!bit c 7) (if e = 0 then c % 16 * 16 + 8 else (c % 16 * 16 + 264) * two (e - 1))

/-- The fp32 value of a sample, and whether it was substituted (R170, R173). -/
def normalise (format raw : Nat) : Nat × Bool :=
  if format = 4 then
    if fp32.isNan raw then (0, true)
    else match fp32.dec raw with
      | .nan => (0, true)
      | .inf s => (fp32.enc (.fin s 1 0), true)
      | .fin s m e =>
        if (Fv.fin false 1 0).lt (.fin false m e) then (fp32.enc (.fin s 1 0), true)
        else if bits raw 23 8 = 0 then (0, false) else (raw, false)
  else if format = 1 then (fp32.enc (Fv.fixed (toS 16 raw) 15), false)
  else if format = 5 then (fp32.enc (Fv.fixed (ulaw raw) 15), false)
  else if format = 6 then (fp32.enc (Fv.fixed (alaw raw) 15), false)
  else (fp32.enc (Fv.fixed (toS 24 (raw % two 24)) 23), false)

/-- The frames of a buffer: one fp32 value per channel, and how many were substituted (R171, R173). -/
def parseFrames (format ch frames : Nat) (b : List Byte) : List (List Nat) × Nat :=
  let n := sampleBytes format
  let all := (List.range frames).map (fun i => (List.range ch).map (fun c => normalise format (le b ((i * ch + c) * n) n)))
  (all.map (fun f => f.map Prod.fst), ((all.flatMap id).filter (fun x => x.2)).length)

/-! ## Placement (R174 to R177) -/

/-- A reference position as a fraction, in ns. -/
structure Pos where
  num : Int
  den : Nat

/-- The anchors on either side of a source position: r(x) (R175). `X` has 56 fraction bits. Before the oldest anchor the nominal
rate holds, as it does beyond the newest (assumption 20). -/
def refPos (rate : Nat) (X : Int) : List Anchor → Pos
  | [] => ⟨0, 1⟩
  | [a] => ⟨a.q * (two 56 : Int) + (X - (a.j : Int) * (two 56 : Int)) * 1000000000, two 56 * rate⟩
  | a :: b :: l =>
    if X < (a.j : Int) * (two 56 : Int) then
      ⟨a.q * (two 56 : Int) + (X - (a.j : Int) * (two 56 : Int)) * 1000000000, two 56 * rate⟩
    else if X < (b.j : Int) * (two 56 : Int) then
      let n := b.j - a.j
      ⟨a.q * ((n * two 56 : Nat) : Int) + (X - (a.j : Int) * (two 56 : Int)) * (b.q - a.q), n * two 56 * rate⟩
    else refPos rate X (b :: l)

/-- The source position, with 56 fraction bits, whose reference position is `t` ns (R182). -/
def srcPos (rate : Nat) (t : Int) : List Anchor → Int
  | [] => 0
  | [a] => (a.j : Int) * (two 56 : Int) + rneDiv ((t * (rate : Int) - a.q) * (two 56 : Int)) 1000000000
  | a :: b :: l =>
    let T := t * (rate : Int)
    if T < a.q then (a.j : Int) * (two 56 : Int) + rneDiv ((T - a.q) * (two 56 : Int)) 1000000000
    else if T < b.q then
      (a.j : Int) * (two 56 : Int) + rneDiv ((T - a.q) * (((b.j - a.j) * two 56 : Nat) : Int)) (b.q - a.q).toNat
    else srcPos rate t (b :: l)

/-- q_exp: the reference position of the next frame, in 1/RATE ns (R176). -/
def Audio.expected (a : Audio) : Option Int :=
  match a.anchors.getLast? with
  | none => none
  | some c => some (c.q + ((a.nextFrame : Int) - c.j) * 1000000000)

/-- floor(d × ρ0 + 0.5) for a distance d in 1/RATE ns (R176, R177). -/
def toFrames (d : Int) : Nat := ((2 * d + 1000000000) / 2000000000).toNat

/-- Append frames; the first of them becomes an anchor at `q`, if given. -/
def Audio.append (a : Audio) (fs : List (List Nat)) (q : Option Int) : Audio :=
  let a := match q with
    | some q => if fs.isEmpty then a else { a with anchors := a.anchors ++ [Anchor.mk a.nextFrame q] }
    | none => a
  { a with frames := a.frames ++ (List.range fs.length).map (fun i => (a.nextFrame + i, fs.getD i [])), nextFrame := a.nextFrame + fs.length }

/-- Zero frames of `ch` channels. -/
def zeroFrames (ch n : Nat) : List (List Nat) := List.replicate n (List.replicate ch 0)

/-- Zero frames inserted are counted (R176 to R178). -/
def State.gapFrames (s : State) (t n : Nat) : State :=
  if n = 0 then s else (s.bump FE_GAP_FRAMES t 0 n).raise FE_INT_STAT_GAP t

/-- Frames of a descriptor whose reference position is at or before `limit`, from the first on. -/
def framesUpTo (q0 limit : Int) (n : Nat) : Nat :=
  if limit < q0 then 0 else min n ((limit - q0) / 1000000000 + 1).toNat

/-- The frames of an AUDIO descriptor are placed (R176, R177, R202, R203). -/
def State.placeFrames (s : State) (i sample : Nat) (fs : List (List Nat)) : State :=
  let q := s.slot i
  let t := s.tenancyOf i
  let rate := q.par.rate
  let unit : Int := 62500 * (rate : Int)
  let q0 : Int := (sample : Int) * unit
  let early := framesUpTo q0 (((q.audio.begin_ : Int) - 32) * unit - 1) fs.length
  match q.audio.expected with
  | none =>
    let s := s.onlyIf (early != 0) (fun u => (u.bump FE_LATE_FRAMES t 0 early).raise FE_INT_STAT_LATE_FRAMES t)
    s.modAudio i (fun a => a.append (fs.drop early) (some (q0 + (early : Int) * 1000000000)))
  | some e =>
    let d := q0 - e
    if unit ≤ d then
      let n := toFrames d
      (s.modAudio i (fun a => (a.append (zeroFrames q.par.channels n) none).append fs (some q0))).gapFrames t n
    else if d ≤ -unit then
      let late := max early (framesUpTo q0 (q.audio.horizon * unit) fs.length)
      let drop := max late (min fs.length (toFrames (-d)))
      let s := s.onlyIf (late != 0) (fun u => (u.bump FE_LATE_FRAMES t 0 late).raise FE_INT_STAT_LATE_FRAMES t)
      let s := s.bump FE_OVERLAP_FRAMES t 0 (drop - late)
      s.modAudio i (fun a => a.append (fs.drop drop) (some (q0 + (drop : Int) * 1000000000)))
    else s.modAudio i (fun a => a.append fs (some q0))

/-- A ring-fed chunk that becomes complete has its full length (R177): zero frames up to its last sample `e`. -/
def State.fillChunk (s : State) (i e : Nat) : State :=
  let q := s.slot i
  let unit : Int := 62500 * (q.par.rate : Int)
  let from_ := match q.audio.expected with
    | some x => x
    | none => (q.audio.begin_ : Int) * unit
  let fresh := q.audio.expected.isNone
  let s := s.modAudio i (fun a => { a with horizon := max a.horizon (e : Int) })
  if (e : Int) * unit < from_ then s
  else
    let n := toFrames (((e : Int) + 1) * unit - from_)
    (s.modAudio i (fun a => a.append (zeroFrames q.par.channels n) (if fresh then some from_ else none))).gapFrames (s.tenancyOf i) n

/-! ## The resampler (R179, R180) -/

/-- Entry i of the kernel table for 2 f_c = m Hz (R179). -/
def kernelValue (m i : Nat) : Nat :=
  if 4096 ≤ i then 0
  else if m = 16000 && i % 256 = 0 then (if i = 0 then fp32.enc (.fin false 1 0) else 0)
  else
    let win := qOne * 42 / 100 + cosPi i 4096 / 2 + cosPi (2 * i) 4096 * 8 / 100
    let z := (m * i : Nat)
    let sinc := if i = 0 then qOne else qDiv (sinPi z 4096000) (qPi * (z : Int) / 4096000)
    fp64.convert fp32 (fp64.enc (qFv (qMul (qMul sinc win) qOne * (m : Int) / 16000)))

/-- The table of 4,097 entries (R179), and those of the two values that m takes: 16,000, and 8,000 for a source at 8 kHz (R171). -/
def kernelTable (m : Nat) : Array Nat := (Array.range 4097).map (kernelValue m)
def kernelTable16 : Array Nat := kernelTable 16000
def kernelTable8 : Array Nat := kernelTable 8000
def kernelEntry (rate i : Nat) : Nat := if 16000 ≤ rate then kernelTable16.getD i 0 else kernelTable8.getD i 0

/-- h(τ) for |τ| = n ÷ d, by linear interpolation in fp32 (R179). -/
def kernelAt (rate : Nat) (n d : Nat) : Nat :=
  let p := n * 256
  let i := p / d
  if 4096 ≤ i then 0
  else
    let a := kernelEntry rate i
    if p % d = 0 then a
    else
      let f := fp32.enc ((Fv.fin false (p % d) 0).div 23 (.fin false d 0))
      fp32.addB a (fp32.mulB f (fp32.subB (kernelEntry rate (i + 1)) a))

/-- ρ0 with 56 fraction bits (R180). -/
def rho0 (rate : Nat) : Nat := (rneDiv ((rate * two 56 : Nat) : Int) 16000).toNat

/-- The source frames internal sample with source position `phi` is formed from (R180). -/
def framesNear (rho : Nat) (phi : Int) : List Int :=
  let lo := (phi - 16 * (rho : Int)) / (two 56 : Int)
  let hi := (phi + 16 * (rho : Int)) / (two 56 : Int) + 1
  ((List.range (hi - lo + 1).toNat).map (fun (i : Nat) => lo + (i : Int))).filter
    (fun j => decide ((phi - j * (two 56 : Int)).natAbs < 16 * rho))

/-- y(s) of one channel (R180); a frame that is not held counts as zero. -/
def resample (a : Audio) (rate c : Nat) : Nat :=
  let rho := rho0 rate
  let acc := (framesNear rho a.phi).foldl (fun acc j =>
    if j < 0 then acc
    else match Map.find a.frames j.toNat with
      | none => acc
      | some f => fp32.addB acc (fp32.mulB (f.getD c 0) (kernelAt rate (a.phi - j * (two 56 : Int)).natAbs rho))) 0
  fp32.mulB (fp32.enc ((Fv.fin false 16000 0).div 23 (.fin false rate 0))) acc

/-! ## The reel (R194 to R198) -/

/-- LPDDR5X address of sample s of channel c of a slot (R196). -/
def State.reelAt (s : State) (q : Slot) (n c : Nat) : Nat :=
  s.reelBlock (q.audio.baseBlock + 1) + (n % 49152 * q.par.channels + c) * reelBytes q.par.format

/-- The stored form of a value (R194). -/
def reelStore (format y : Nat) : List Byte :=
  if reelFmt format = 0 then toLe 2 (ofS 16 (satS 16 ((fp32.dec y).mul (.fin false 1 15)).toInt)) else toLe 4 y

/-- Whether the slot records (R197). -/
def State.records (s : State) (q : Slot) : Bool :=
  !s.standby && q.audio.blocks != 0 &&
  (q.state == .listen || q.state == .transcribe || q.state == .draining || q.state == .parked)

/-- Record one internal sample (R197). -/
def State.recordSample (s : State) (i n : Nat) (ys : List Nat) : State :=
  let q := s.slot i
  if !s.records q then s
  else
    let s := s.wr .dram (s.reelAt q n 0) (ys.flatMap (reelStore q.par.format)) { slot := i }
    s.modAudio i (fun a => { a with oldest := if n = a.nextRec then a.oldest else n, nextRec := n + 1 })

/-- What a reel read returns for one channel of sample n, limited below by `old` (R198). -/
def State.reelRead (s : State) (q : Slot) (old n c : Nat) : Nat :=
  let a := s.reelAt q n c
  let w := reelBytes q.par.format
  if n < old || q.audio.nextRec ≤ n || s.poisoned .dram a w then 0
  else if w = 2 then fp32.enc (Fv.fixed (toS 16 (s.rdLe .dram a 2)) 15) else s.rdLe .dram a 4

/-- Sample n is held: OLDEST ≤ n < NEXT (R198). -/
def Slot.holds (q : Slot) (old n : Nat) : Bool := old ≤ n && n < q.audio.nextRec

/-- A damaged word holds a sample of the range that the reel holds. -/
def State.reelHit (s : State) (q : Slot) (old first n : Nat) (d : Damage) : Bool :=
  (List.range n).any (fun k => q.holds old (first + k) && d.touches .dram (s.reelAt q (first + k) 0) (q.par.channels * reelBytes q.par.format))

/-- Samples from `first` on, of every channel, that the reel holds and that read as zero for poison (R198, R213). -/
def State.reelZeros (s : State) (q : Slot) (old first n : Nat) : Nat :=
  ((List.range n).map (fun k => if q.holds old (first + k) then
    ((List.range q.par.channels).filter (fun c => s.poisoned .dram (s.reelAt q (first + k) c) (reelBytes q.par.format))).length else 0)).foldl (· + ·) 0

/-- The reel is read from sample `first` on, below `old` not: correctable words are corrected, and each uncorrectable one is substituted by
zero and recorded, every sample it holds counted (R198, R540, R543). -/
def State.readReel (s : State) (i old first n : Nat) : State :=
  let q := s.slot i
  let t := s.tenancyOf i
  let hit := s.reelHit q old first n
  let bad := s.mem.damage.filter (fun d => 2 ≤ d.kind && hit d)
  let s := bad.foldl (fun (u : State) d => u.countUE d { action := acSUBSTITUTED, slot := i, source := srREEL }) (s.correct hit srREEL)
  s.onlyIf (!bad.isEmpty) (fun u => (u.bump FE_REEL_POISON t 0 (u.reelZeros q old first n)).raise FE_INT_STAT_REEL_POISON t)

/-- A range of samples is read for a replay or an image: those the reel does not hold read zero and are counted (R198). -/
def State.countReads (s : State) (i old first n : Nat) : State :=
  let q := s.slot i
  let nz := ((List.range n).filter (fun k => !q.holds old (first + k))).length
  (s.readReel i old first n).bump FE_REPLAY_ZERO (s.tenancyOf i) 0 nz

/-! ## Beams and features (R188 to R193) -/

/-- The current weight bank of a slot: CHANNELS, TAPS and the address of its block (R189, R196). -/
def State.bankAddr (s : State) (q : Slot) (bank : Nat) : Nat := s.reelBlock q.audio.baseBlock + 8192 * bank

/-- The weight block current for a slot; empty for the default weights (R188, R190). -/
def State.weightsNow (s : State) (q : Slot) : List Byte := if q.audio.bound then s.rdBytes .dram (s.bankAddr q q.audio.bank) 2064 else []

/-- The weight block that sample n meets: live, the one that was current for it (R190); in a replay, the one current when the chunk runs (R200). -/
def State.weightsFor (s : State) (q : Slot) (live : Bool) (n : Nat) : List Byte :=
  match if live then (q.audio.weights.filter (fun w => n < w.1)).getLast? else none with
  | some w => w.2
  | none => s.weightsNow q

/-- TAPS of a weight block, and w[b][c][t] for streams of `ch` channels (R188, R189). -/
def beamTaps (w : List Byte) : Nat := if w.isEmpty then 1 else le w 8 1
def beamWeight (w : List Byte) (ch b c t : Nat) : Nat :=
  if w.isEmpty then fp32.enc ((Fv.fin false 1 0).div 23 (.fin false ch 0)) else le w (0x10 + ((b * ch + c) * beamTaps w + t) * 4) 4

/-- z_b(s) (R188): live, samples before processing began read as zero; a replay reads the reel by R198. -/
def State.beamSample (s : State) (q : Slot) (live : Bool) (old b n : Nat) : Nat :=
  let w := s.weightsFor q live n
  ((List.range q.par.channels).flatMap (fun c => (List.range (beamTaps w)).map (fun t => (c, t)))).foldl (fun acc ct =>
    if n < ct.2 || (live && n - ct.2 < q.audio.begin_) then acc
    else fp32.addB acc (fp32.mulB (beamWeight w q.par.channels b ct.1 ct.2) (s.reelRead q old (n - ct.2) ct.1))) 0

/-- mel point i as 1 + f_i ÷ 700, in logarithms (R192). -/
def melLog (i : Nat) : Int := (qLn 72 0 - qLn 70 0) * (81 - (i : Int)) / 81 + (qLn 830 0 - qLn 70 0) * (i : Int) / 81

/-- f_i in Hz, fixed point (R192). -/
def melHz (i : Nat) : Int := 700 * ((qExp (melLog i)).toQ - qOne)

/-- cos and sin of 2πj ÷ 512, and the window of R192, as tables. -/
def cosTable : Array Int := (Array.range 512).map (fun (j : Nat) => cosPi (2 * (j : Int)) 512)
def sinTable : Array Int := (Array.range 512).map (fun (j : Nat) => sinPi (2 * (j : Int)) 512)
def windowTable : Array Int := (Array.range 400).map (fun (i : Nat) => qOne / 2 - cosPi (2 * (i : Int)) 400 / 2)

/-- The power of bin k of 400 windowed samples, fixed point (R192). -/
def binPower (ys : List Int) (k : Nat) : Int :=
  let sum := fun (g : Array Int) => (ys.foldl (fun (a : Int × Nat) y => (a.1 + qMul y (g.getD (k * a.2 % 512) 0), a.2 + 1)) (0, 0)).1
  let re := sum cosTable
  let im := sum sinTable
  qMul re re + qMul im im

/-- The powers of bins 0 to 256 of 400 samples (R192). -/
def powers (xs : List Int) : List Int :=
  let ys := (xs.foldl (fun (a : List Int × Nat) x => (qMul x (windowTable.getD a.2 0) :: a.1, a.2 + 1)) ([], 0)).1.reverse
  (List.range 257).map (binPower ys)

/-- The weight of filter n at bin k (R192). -/
def melWeight (n k : Nat) : Int :=
  let f := (k : Int) * 3125 * qOne / 100
  let a := melHz n
  let b := melHz (n + 1)
  let c := melHz (n + 2)
  if a ≤ f && f ≤ b then qDiv (f - a) (b - a) else if b ≤ f && f ≤ c then qDiv (c - f) (c - b) else 0

/-- The weights of filter n, bin by bin. -/
def melTable : Array (List Int) := (Array.range 80).map (fun n => (List.range 257).map (melWeight n))

/-- The reference value of feature n of a frame with these powers (R192). -/
def featureRef (ps : List Int) (n : Nat) : Int :=
  let e := (List.zipWith qMul (melTable.getD n []) ps).foldl (· + ·) 0
  let v := max e (qOne / (two 24 : Int))
  qLn v.toNat (-192)

/-- A feature: a free value within ±0.001 of the reference (R193). -/
def featureNear (ref : Int) (draw : Nat) : Nat :=
  let x := fp32.enc (qFv (ref + Config.featureDelta draw * qOne / 1000000000))
  if ((fp32.dec x).toQ - ref).natAbs * 1000 ≤ qOne.toNat then x else fp32.enc (qFv ref)

/-- The features of chunk samples `first` on: frame by frame and beam by beam, 80 values each (R191). -/
def State.chunkFeatures (s : State) (i : Nat) (live : Bool) (old first frames beams : Nat) : List Nat × State :=
  let q := s.slot i
  let vals := (List.range (frames * beams)).flatMap (fun fb =>
    let f := fb / beams
    let b := fb % beams
    let xs := (List.range 400).map (fun k =>
      if first + 160 * f + k < 240 then 0 else (fp32.dec (s.beamSample q live old b (first + 160 * f + k - 240))).toQ)
    let ps := powers xs
    (List.range 80).map (fun n => featureNear (featureRef ps n) (s.draws + fb * 80 + n)))
  (vals, { s with draws := s.draws + 80 * frames * beams })

/-- BEAMS of the programs of a stream's classes (R188). -/
def State.beams (s : State) (i : Nat) (trans : Bool) : Nat :=
  let q := s.slot i
  match s.chain (s.tenancyOf i) (if trans then q.par.transClass else q.par.listenClass) (if trans then 0 else 1) with
  | m :: _ => m.beams
  | [] => 1

/-- Produce a chunk's features from the reel, live or in a replay, and keep them for the couch link (R193, R200). -/
def State.featureChunk (s : State) (i k : Nat) (live trans : Bool) (old : Nat) : State :=
  let q := s.slot i
  let first := s.chunkFirst q k
  let s := s.onlyIf live (fun u => u.readReel i old first (s.perChunk q))
  let r := s.chunkFeatures i live old first (s.framesPerChunk q.par.chunk) (s.beams i trans)
  r.2.modAudio i (fun a => { a with feats := Map.put k r.1 a.feats })

/-! ## The clock loop (R182 to R186) -/

/-- L(n) in 1/256 sample (R182). -/
def Audio.levelAt (a : Audio) (rate n : Nat) : Int :=
  let p := refPos rate a.phi a.anchors
  rneDiv (((n : Int) * 62500 * (p.den : Int) - p.num) * 256) (62500 * p.den)

/-- 1 ÷ corrections are held in 1/(2²⁹ × 15,625) (R183). -/
def corrUnit : Nat := two 29 * 15625

/-- The loop of a TRACK stream at a hop end (R183). -/
def trackStep (a : Audio) (rate kp ki step range : Nat) : Audio :=
  let I := a.integ + a.err
  let c := 3125 * (a.err * (two (16 - kp) : Int) + I * (two (16 - ki) : Int))
  let ds : Int := (step * two 23 : Nat)
  let dr : Int := (range * two 23 : Nat)
  let c1 := clampI (a.corr - ds) (a.corr + ds) c
  let c2 := clampI (-dr) dr c1
  let lim := decide (c1 ≠ c) || decide (c2 ≠ c1)
  { a with integ := if lim then a.integ else I, corr := c2, slewing := lim,
           rho := (rneDiv ((rho0 rate : Int) * ((corrUnit : Int) + c2)) corrUnit).toNat }

/-- A TRACK stream becomes unlocked (R184). -/
def State.unlock (s : State) (i : Nat) : State :=
  let t := s.tenancyOf i
  let was := (s.slot i).audio.lock
  let s := s.modAudio i (fun a => { a with lock := false, lockCnt := 0, unlockCnt := 0 })
  s.onlyIf was (fun u => (u.bump FE_LOCK_LOSSES t).raise FE_INT_STAT_LOCK_LOST t)

/-- Lock and loss of lock at a hop end (R184). -/
def State.lockTrack (s : State) (i : Nat) : State :=
  let t := s.tenancyOf i
  let thr := s.get FE_LOCK_THR t
  let a := (s.slot i).audio
  if a.lock then
    let n := if 4 * thr < a.err.natAbs then a.unlockCnt + 1 else 0
    if 4 ≤ n then s.unlock i else s.modAudio i (fun a => { a with unlockCnt := n })
  else
    let n := if a.err.natAbs ≤ thr then a.lockCnt + 1 else 0
    s.modAudio i (fun a => { a with lockCnt := n, lock := decide (s.get FE_LOCK_CNT t ≤ n), unlockCnt := 0 })

/-- Re-centring of a TRACK stream whose error exceeds 8 samples (R185). -/
def State.recentre (s : State) (i : Nat) : State :=
  let t := s.tenancyOf i
  let q := s.slot i
  let n := rneDiv (q.audio.err * (rho0 q.par.rate : Int)) (256 * two 56)
  let s := (s.modAudio i (fun a => { a with phi := a.phi + n * (two 56 : Int), gapTo := if n < 0 then min a.gapTo a.nextFrame else a.gapTo })).unlock i
  (s.bump FE_RECENTRES t).raise FE_INT_STAT_RECENTRE t

/-- Level and error at sample n (R182); before the first anchor, the level at which ϕ will be placed. -/
def State.measure (s : State) (i n : Nat) : State :=
  let q := s.slot i
  let l := if q.audio.anchors.isEmpty then q.audio.lag else q.audio.levelAt q.par.rate n
  s.modAudio i (fun a => { a with level := l, err := l - 4096 })

/-- CLOCK_FORBIDDEN (R186): the stream faults at the next boundary with the chunk that holds sample n; every such hop end is counted. -/
def State.clockForbidden (s : State) (i n : Nat) : State :=
  let t := s.tenancyOf i
  let q := s.slot i
  let k := (n - s.chunkFirst q 0) / s.perChunk q
  let s := s.onlyIf q.faultDue.isNone (fun u => u.modSlot i (fun q => { q with faultDue := some (2, k) }))
  (s.bump FE_CLOCK_FORBIDDEN t).raise FE_INT_STAT_CLOCK_FORBIDDEN t

/-- What follows at the last sample of a hop (R182 to R186). -/
def State.hopEnd (s : State) (i n : Nat) : State :=
  let q := s.slot i
  let t := s.tenancyOf i
  if q.par.locked then s.onlyIf (decide (2048 < q.audio.err.natAbs)) (fun u => u.clockForbidden i n)
  else
    let s := s.modAudio i (fun a => trackStep a q.par.rate (s.get FE_LOOP_KP_SHIFT t) (s.get FE_LOOP_KI_SHIFT t)
      (s.get FE_SLEW_STEP_PPM t) (s.get FE_SLEW_RANGE_PPM t))
    s.lockTrack i

/-- Frames that the next sample needs and that are not present are counted once (R178); those before the first frame accepted are not (R177). -/
def State.countMissing (s : State) (i : Nat) : State :=
  let q := s.slot i
  let a := q.audio
  let need := (framesNear (rho0 q.par.rate) a.phi).filter (fun j => (a.gapTo : Int) ≤ j)
  let miss := need.filter (fun j => (Map.find a.frames j.toNat).isNone)
  match need.getLast? with
  | some j => (s.modAudio i (fun a => { a with gapTo := j.toNat + 1 })).gapFrames (s.tenancyOf i) miss.length
  | none => s

/-- The anchors that positions from frame `low` on need. -/
def trimAnchors (low : Nat) : List Anchor → List Anchor
  | a :: b :: l => if b.j ≤ low then trimAnchors low (b :: l) else a :: b :: l
  | l => l

/-- The held frames of a port whose reference positions are b − 32 or later (R177), and their anchors. -/
def Audio.keepFrom (rate b : Nat) (a : Audio) : Audio :=
  let fr := a.frames.filter (fun e =>
    let p := refPos rate ((e.1 : Int) * (two 56 : Int)) a.anchors
    decide (((b : Int) - 32) * 62500 * (p.den : Int) ≤ p.num))
  match fr with
  | [] => { a with frames := [], anchors := [], gapTo := a.nextFrame }
  | e :: _ => { a with frames := fr, anchors := trimAnchors e.1 a.anchors, gapTo := e.1 }

/-- A port's frames from sample b − 32 on are kept; those before it that no earlier processing has read are dropped as late (R177). -/
def State.acceptFrom (s : State) (i b : Nat) : State :=
  let q := s.slot i
  let t := s.tenancyOf i
  let kept := q.audio.keepFrom q.par.rate b
  let late := if q.audio.active then 0 else q.audio.early + (q.audio.frames.length - kept.frames.length)
  let s := s.onlyIf (late != 0) (fun u => (u.bump FE_LATE_FRAMES t 0 late).raise FE_INT_STAT_LATE_FRAMES t)
  s.modAudio i (fun a => { a.keepFrom q.par.rate b with early := 0 })

/-- Processing begins at chunk boundary b (R177, R182): a port's frames from b − 32 on are kept, a ring's begin anew. -/
def State.beginProcessing (s : State) (i b : Nat) : State :=
  let r := rho0 (s.slot i).par.rate
  let s := if (s.slot i).par.portFed then s.acceptFrom i b
    else s.modAudio i (fun a => { a with frames := [], anchors := [], nextFrame := 0, gapTo := 0 })
  s.modAudio i (fun a => { a with
    begin_ := b, next := b, horizon := (b : Int) - 1, active := true, phiSet := false, lag := 4096, rho := r, integ := 0, corr := 0, lock := false, lockCnt := 0, unlockCnt := 0, slewing := false, feats := [], clocks := [], weights := [] })

/-- ϕ is set to the source position with r = b − 16 (R182). -/
def State.setPhi (s : State) (i : Nat) : State :=
  let q := s.slot i
  if q.audio.phiSet || q.audio.anchors.isEmpty then s
  else
    let x := srcPos q.par.rate (((q.audio.next : Int) * 256 - q.audio.lag) * 62500 / 256) q.audio.anchors
    s.modAudio i (fun a => { a with phi := x, phiSet := true })

/-- The clock loop as it stands. -/
def Audio.clock (a : Audio) : ClockAt := { next := a.next, rho := a.rho, integ := a.integ, level := a.level, err := a.err, lock := a.lock }

/-- The clock loop after the last sample before `n` (R187). -/
def Audio.clockAt (a : Audio) (n : Nat) : ClockAt := (a.clocks.find? (fun x => x.next == n)).getD a.clock

/-- The last sample of a chunk has been produced: the clock loop is kept as it stands (R187). -/
def State.keepClock (s : State) (i : Nat) : State :=
  let q := s.slot i
  s.onlyIf ((q.audio.next - s.chunkFirst q 0) % s.perChunk q == 0) (fun u =>
    u.modAudio i (fun a => { a with clocks := (a.clock :: a.clocks).take 64 }))

/-- The lowest frame that a later sample may need: 64 samples behind the position and the newest frame, for a re-centring repeats frames
(R180, R185). -/
def Audio.lowFrame (rate : Nat) (a : Audio) : Nat :=
  ((min a.phi ((a.nextFrame : Int) * (two 56 : Int)) - 64 * (rho0 rate : Int)) / (two 56 : Int)).toNat

/-- Produce the next internal sample (R180, R181, R185, R197); from sample `zero` on it is padding (R104). -/
def State.produce (s : State) (i : Nat) (zero : Option Nat) : State :=
  let n := (s.slot i).audio.next
  let s := (s.setPhi i).measure i n
  let q := s.slot i
  let far := !q.par.locked && decide (2048 < q.audio.err.natAbs) && !q.audio.anchors.isEmpty
  let s := s.onlyIf far (fun u => (u.recentre i).measure i n)
  let pad := match zero with
    | some z => decide (z ≤ n)
    | none => false
  let s := s.onlyIf (q.par.portFed && !pad && !q.audio.anchors.isEmpty) (fun u => u.countMissing i)
  let q := s.slot i
  let ys := if pad || q.audio.anchors.isEmpty then List.replicate q.par.channels 0
            else (List.range q.par.channels).map (resample q.audio q.par.rate)
  let s := s.recordSample i n ys
  let s := s.onlyIf (n % 160 == 159 && !q.audio.anchors.isEmpty) (fun u => u.hopEnd i n)
  State.keepClock (i := i) <| s.modAudio i (fun a =>
    let fr := a.frames.filter (fun e => a.lowFrame q.par.rate ≤ e.1)
    { a with next := n + 1, phi := a.phi + (a.rho : Int), frames := fr })

/-- Produce samples up to and with `last`. -/
def State.produceTo (s : State) (i last : Nat) (zero : Option Nat) : Nat → State
  | 0 => s
  | n + 1 => if (s.slot i).audio.next ≤ last then (s.produce i zero).produceTo i last zero n else s

end Sys2Proof.Machine
end

