-- ==== Sys2Proof/Machine/StreamOps.lean ====
section
/-! DEFINITION. Machine/StreamOps.lean: tokens, chunks, completions, deadlines and the ends of a stream (R48 to R53, R89 to R106,
R136, R142 to R150). -/
namespace Sys2Proof.Machine

/-! ## Tokens (R81, R90, R91) -/

/-- A token pass: the state, the holder, and the epoch advanced by 1 (R82, R90). -/
def State.pass (s : State) (i : Nat) (st : SlotState) (h : Holder) : State :=
  s.modSlot i (fun q =>
    let e := (q.epoch + 1) % two 32
    let f := if st = .transcribe then true else if st = .listen then false else q.full
    { q with state := st, full := f, holder := h, epoch := e, passes := q.passes + 1 })

/-- A slot whose token has passed four times since the last tick boundary began passes it no more in that tick (R92). -/
def Slot.mayPass (q : Slot) : Bool := q.passes < 4

/-- A write dropped or refused as stale (R83, R91). -/
def State.stale (s : State) (i : Nat) : State :=
  let t := s.tenancyOf i
  ((s.modSlot i (fun q => { q with cnt := { q.cnt with stale := q.cnt.stale + 1 } })).bump STR_STALE t).raise STR_INT_STAT_STALE t

/-! ## Statuses of R146 -/

def stOK : Nat := 0
def stFAULTED : Nat := 1
def stSTOPPED : Nat := 2
def stPARKED : Nat := 3
def stTORN : Nat := 4
def stREEL : Nat := 5

/-! ## The chunk grid (R49, R50, R89, R100, R104) -/

/-- H of a tier (R89). -/
def Params.hw (p : Params) (trans : Bool) : Nat := if trans && p.transClass != 0xFFFF then p.headway else p.listenH

/-- The tick of the last sample of chunk k (R49). -/
def Slot.endTick (q : Slot) (k : Nat) : Nat := q.par.anchor + k * q.par.chunk + q.par.chunk - 1

/-- Chunk k, whose last tick is n, belongs to the catch-up in progress (R100). -/
def Slot.inCatch (q : Slot) (k n : Nat) : Bool :=
  match q.catchup with
  | some (p, k0) => k0 ≤ k && n < p + (k - k0) / q.par.rb
  | none => false

/-- Deadline tick of chunk k whose last tick is n: n + H, or D_k (R52, R89, R100). -/
def Slot.deadline (q : Slot) (k n : Nat) (trans : Bool) : Nat :=
  match q.catchup with
  | some (p, k0) =>
    if trans && q.inCatch k n then max (n + q.par.hw true) (p + q.par.hw true + (k - k0) / q.par.rb) else n + q.par.hw trans
  | none => n + q.par.hw trans

/-- The tier in force. -/
def Slot.trans (q : Slot) : Bool := q.full

/-- Start of slot j of tick m (R47), and the intake cut of tick m (R50). -/
def State.slotAt (s : State) (m j : Nat) : Nat := s.tickAt m + j * s.periodNs / 64
def State.cutAt (s : State) (m : Nat) : Nat := s.slotAt m (s.get TT_INTAKE_SLOT)

/-- The tick whose runs a chunk complete at instant `c` joins (R50). -/
def State.intakeTick (s : State) (c : Nat) : Nat :=
  let m := c / s.periodNs
  if c < s.cutAt m then m else m + 1

/-- The intake cut of tick m has been taken. -/
def State.cutPast (s : State) (m : Nat) : Bool := m < s.tt.tick || (m == s.tt.tick && s.get TT_INTAKE_SLOT < s.tt.nextSlot)

/-- The first chunk of which nothing joins any run: after the final chunk, or at an export (R104, R107). -/
def Slot.limit (q : Slot) : Option Nat :=
  match q.exp, q.finalChunk with
  | some x, _ => some ((x.tick - q.par.anchor) / q.par.chunk)
  | none, some f => some (f + 1)
  | none, none => none

/-- A new record for chunk k. -/
def State.newChunk (s : State) (q : Slot) (k : Nat) (trans replay : Bool) : Chunk :=
  let padded := q.finalChunk == some k && (match q.stopTick with
    | some t => (t - q.par.anchor) % q.par.chunk != 0
    | none => false)
  let n := if padded then q.stopTick.getD 0 - 1 else q.endTick k
  { k := k, n := n, zeroFrom := if padded then some (q.stopTick.getD 0 * s.perTick) else none, final := padded,
    trans := trans, replay := replay, mark := trans && q.inCatch k n, deadline := q.deadline k n trans }

/-- Chunks of the slot run, or wait to: in LISTEN, TRANSCRIBE and DRAINING, and in PARKED before an export tick (R81, R107). -/
def Slot.runs (q : Slot) : Bool :=
  q.state == .listen || q.state == .transcribe || q.state == .draining || (q.state == .parked && q.exp.isSome)

/-- Records exist for every chunk up to `k` that may run. -/
def State.ensure (s : State) (i k : Nat) : State :=
  let q := s.slot i
  let top := match q.limit with
    | some l => min (k + 1) l
    | none => k + 1
  let new := (List.range (top - q.next)).map (fun j => s.newChunk q (q.next + j) q.trans false)
  s.onlyIf q.runs (fun t => t.modSlot i (fun q => { q with chunks := q.chunks ++ new, next := max q.next top }))

/-- Drop the records that `gone` picks: the first chunk so dropped that is no replay has not run, and is the next (R103, R108). -/
def Slot.prune (q : Slot) (gone : Chunk → Bool) : Slot :=
  { q with
    chunks := q.chunks.filter (fun c => !gone c)
    next := (q.chunks.filter (fun c => gone c && !c.replay)).foldl (fun n c => min n c.k) q.next }

/-- Change the records that satisfy `c`. -/
def State.modChunks (s : State) (i : Nat) (c : Chunk → Bool) (f : Chunk → Chunk) : State :=
  s.modSlot i (fun q => { q with chunks := q.chunks.map (fun x => if c x then f x else x) })

/-- The record is that of chunk k of a tier, replayed or not. -/
def Chunk.same (a b : Chunk) : Bool := a.k == b.k && a.trans == b.trans && a.replay == b.replay

/-- Records not yet joined and not ended. -/
def Chunk.isOpen (c : Chunk) : Bool := c.joined.isNone && c.status.isNone

/-! ## Completions (R145 to R150) -/

/-- Key of a chunk in the result store. -/
def resKey (i k : Nat) : Nat := i + 8192 * k

/-- Units of the result store that a chunk holds are free again (R605). -/
def State.freeResult (s : State) (i k : Nat) : State := { s with iso := { s.iso with held := Map.del (resKey i k) s.iso.held } }

/-- The cause R52 records: 0 INTAKE when the chunk became complete at or after the intake cut of the tick before its deadline
tick, or has not, else 1 RUN; `cut` is the slot of that cut. DEDUCED (assumption 54): R74 names INTAKE for every chunk complete after its tick
has ended; where R52's test gives RUN (H of 2 or more, complete before the cut of tick n + H − 1), R52 is followed, which R74 cites. -/
def State.missCause (s : State) (cut : Nat) (c : Chunk) : Nat :=
  match c.complete with
  | some t => if c.deadline = 0 || s.slotAt (c.deadline - 1) cut ≤ t then 0 else 1
  | none => 0

/-- The completion of a chunk has been issued, or cannot be written: its record goes, and a late one is counted (R52, R104). -/
def State.issued (s : State) (i k : Nat) (trans late : Bool) : State :=
  let s := (s.freeResult i k).modSlot i (fun q =>
    let l := q.chunks.filter (fun c => !(c.k == k && c.trans == trans && c.status.isSome))
    let n := { q.cnt with late := q.cnt.late + b2n late }
    { q with chunks := l, cnt := n })
  let q := s.slot i
  let done := q.state == .draining && q.finalChunk == some k && !q.chunks.any (fun c => c.k == k)
  s.onlyIf done (fun t => t.modSlot i (fun q => { q with drained := true }))

/-- The result data of a slot in the result store holds an uncorrectable word: the request that carries it goes with EP and zero bytes in
its place (R544, R569). Which word of the data it is, is a free value. -/
def State.spoilResult (s : State) (i k a n : Nat) : State :=
  let q := s.readItem 4 i srPCIE_WRITE
  match q.2 with
  | none => q.1
  | some d =>
    if n = 0 then q.1
    else
      let w := a + 8 * (Config.resultWord d.addr % ceilDiv n 8)
      let hit := fun (x : Store) => decide (x.note = .result i k) && inSpan w x.addr x.data.length
      let l := q.1.stores.map (fun x => if hit x then { x with ep := true, data := patch x.data (w - x.addr) (zeros (min 8 (x.addr + x.data.length - w))) } else x)
      ({ q.1 with stores := l }).countUE d { action := acEP_SENT, slot := i, source := srPCIE_WRITE }

/-- Write the completion of a chunk with its results (R146, R147, R164). -/
def State.writeCompletion (s : State) (i : Nat) (c : Chunk) (st : Nat) : State :=
  let q := s.slot i
  let r := q.par.completeRing
  if !s.ringActive r || !c.credit then s.issued i c.k c.trans c.missed.isSome
  else
    let room := s.resultSize r
    let data := if st = stOK then c.result.take room else []
    let cut := st == stOK && (c.truncated || decide (room < c.result.length))
    let at_ := s.resultAddr r (s.get RING_DEV_IDX r)
    let s := (s.storeData (s.owner .ring r) .result at_ data (.result i c.k)).spoilResult i c.k at_ data.length
    let s := s.onlyIf cut (fun t => t.bump RING_TRUNCATED r)
    let s := s.set RING_HELD (s.get RING_HELD r - 1) r
    let marks := b2n c.mark * 4 + b2n c.final * 8 + b2n cut * 16
    s.putDesc r
      (record [(1, 1), (1, st), (2, i), (4, q.epoch), (8, c.k), (8, s.chunkFirst q c.k), (8, 0), (8, c.deadline),
               (8, q.par.userTag), (8, c.user), (4, data.length), (2, marks)])
      (.completion i c.k c.trans (c.missed.isSome || st == stREEL) (c.missed.getD (s.missCause (s.get TT_INTAKE_SLOT) c)))

/-- The records of one chunk of a tier whose status is decided are settled: their completion has left for the upstream path. -/
def State.settleChunk (s : State) (i : Nat) (c : Chunk) : State :=
  s.modChunks i (fun x => x.same c && x.status.isSome) (fun x => { x with stage := .settled, credit := true })

/-- Write the completions of the leading records whose status is decided (R149). One that ended before it joined a tick takes a credit
first, and waits where none is free (R136). -/
def State.flushGo (i : Nat) : List Chunk → State → State
  | [], s => s
  | c :: l, s =>
    match c.status with
    | none => s
    | some st =>
      let r := (s.slot i).par.completeRing
      if c.stage = .settled then State.flushGo i l s
      else if c.credit || !s.ringActive r then State.flushGo i l ((s.settleChunk i c).writeCompletion i c st)
      else if s.creditFree r then State.flushGo i l (((s.reserveCredit r).settleChunk i c).writeCompletion i { c with credit := true } st)
      else s

/-- Completions leave in chunk order (R149). -/
def State.flush (s : State) (i : Nat) : State := State.flushGo i (s.slot i).chunks s

/-- Bytes 0x04 to 0x0F of a row header are zeroed (R351). -/
def State.clearHeader (s : State) (a : Option Alloc) : State :=
  match a with
  | some a => s.wrZero .sram (sramAt a.core (a.off + 4)) 12
  | none => s

/-- The stream's next chunk becomes eligible for stage 0 (R267, R351). -/
def State.advance (s : State) (i : Nat) : State :=
  match (s.slot i).chunks.find? (fun c => c.status.isNone) with
  | some c =>
    if c.joined.isSome && c.stage = .waiting && (s.slot i).faultDue.isNone then
      (s.modChunks i (fun x => x.same c) (fun x => { x with stage := .eligible 0, since := s.cnt })).clearHeader
        (if c.trans then (s.slot i).home else (s.slot i).listen)
    else s
  | none => s

/-! ## Joining a tick (R50, R136, R143, R161) -/

/-- The runs of slot j of a lane in tick m (R54, R59). -/
def TtImage.runsAt (g : TtImage) (m lane j : Nat) : List RunRec :=
  let e := g.slotTable.getD ((m % g.cycle * 2 + lane) * 64 + j) (0, 0)
  (g.runs.drop e.1).take e.2

/-- Start of the first run of tick m, at or after its cut, that would take a chunk of the class at stage 0 (R143). -/
def State.firstRun (s : State) (m t lane cls : Nat) : Option Nat :=
  match s.tt.active with
  | none => none
  | some g =>
    let c := s.get TT_INTAKE_SLOT
    let hit := (List.range 64).find? (fun j => c ≤ j && (g.runsAt m lane j).any (fun r => r.tenancy == t && r.cls == cls &&
      (match s.image t r.program with
        | some x => x.stage == 0
        | none => true)))
    hit.map (s.slotAt m)

/-- Whether a chunk may still join (R104, R107). -/
def Slot.mayJoin (q : Slot) (c : Chunk) : Bool :=
  match q.state with
  | .listen | .transcribe => true
  | .draining => q.finalChunk.any (fun f => c.k ≤ f)
  | .parked => q.exp.isSome && q.limit.any (fun l => c.k < l)
  | .free | .admitted | .faulted => false

/-- A record is held for want of a credit, and counted once (R136). -/
def State.holdChunk (s : State) (i : Nat) (c : Chunk) : State :=
  let r := (s.slot i).par.completeRing
  if c.stalled then s
  else ((s.modChunks i (fun x => x.same c) (fun x => { x with stalled := true })).bump RING_STALLS r).raise RING_INT_STAT_STALL r

/-- A record takes a credit and joins the runs of tick m, or waits (R50, R136, R161). -/
def State.tryJoin (s : State) (i m : Nat) (c : Chunk) : State :=
  let q := s.slot i
  let r := q.par.completeRing
  if !q.mayJoin c then s
  else if !s.creditFree r then s.holdChunk i c
  else
    let s := s.reserveCredit r
    if c.stalled && s.chunkFirst q c.k < q.audio.oldest then
      (s.modChunks i (fun x => x.same c) (fun x => { x with credit := true, status := some stREEL })).flush i
    else
      let tier := !c.kw && (c.replay || q.trans)
      let d := if c.missed.isSome then c.deadline else q.deadline c.k c.n tier
      let s := s.modChunks i (fun x => x.same c) (fun x =>
        { x with credit := true, joined := some m, trans := tier, mark := tier && q.inCatch c.k c.n, deadline := d })
      let s := s.onlyIf (decide (c.n + 1 < m)) (fun t => (t.bump TT_LATE_INTAKE).raise TT_INT_STAT_LATE_INTAKE)
      -- the replay is one read, from 240 samples before chunk k0 (R200)
      let back := if q.catchup.any (fun p => p.2 == c.k) then 240 else 0
      let s := s.onlyIf c.replay (fun t => (t.countReads i q.audio.oldest (s.chunkFirst q c.k - back) (s.perChunk q + back)).featureChunk i c.k false tier q.audio.oldest)
      let ovr := tier && q.catchup.isSome && !q.inCatch c.k c.n
      (s.onlyIf ovr (fun t => t.modSlot i (fun q => { q with catchup := none }))).advance i

/-- Insert a record by the instant it became complete. -/
def insertByTime (x : Nat × Nat × Chunk) : List (Nat × Nat × Chunk) → List (Nat × Nat × Chunk)
  | [] => [x]
  | y :: l => if x.1 < y.1 then x :: y :: l else y :: insertByTime x l

/-- The records that wait for the cut of tick m or an earlier one, in the order in which they became complete (R136). -/
def State.joinable (s : State) (m : Nat) : List (Nat × Nat × Chunk) :=
  (s.slots.flatMap (fun e => (e.2.chunks.filter (fun c => c.isOpen && c.complete.isSome && c.made && c.joinAt ≤ m)).map
    (fun c => (c.complete.getD 0, e.1, c)))).foldl (fun l x => insertByTime x l) []

/-- The COMPLETE rings that are ACTIVE. -/
def State.completeRings (s : State) : List Nat := (List.range 512).filter (fun r => s.ringActive r && s.get RING_CFG_TYPE r == ringCOMPLETE)

/-- The intake cut of tick m (R50, R136): the credits it leaves free are those of chunks completed before it whose audio comes later. -/
def State.takeIntake (s : State) (m : Nat) : State :=
  let s := (s.joinable m).foldl (fun t x => t.tryJoin x.2.1 m x.2.2) s
  s.completeRings.foldl (fun (u : State) r => u.modRing r (fun q => { q with cutFree := u.ringN r - u.written r - u.get RING_HELD r })) s

/-- A record whose audio has come after the cut of its tick joins it where a credit was free at that cut (R136, R143). -/
def State.lateJoin (s : State) (i : Nat) (c : Chunk) : State :=
  let r := (s.slot i).par.completeRing
  if !(s.slot i).mayJoin c then s
  else if (s.ring r).cutFree = 0 then s.holdChunk i c
  else (s.modRing r (fun q => { q with cutFree := q.cutFree - 1 })).tryJoin i s.tt.tick c

/-- The first run of tick m that would take a record of the slot has started. -/
def State.runStarted (s : State) (i m : Nat) : Bool :=
  let q := s.slot i
  match s.firstRun m (s.tenancyOf i) (if q.trans then 0 else 1) (if q.trans then q.par.transClass else q.par.listenClass) with
  | some f => f < s.cnt
  | none => false

/-- A chunk whose samples are all in the device waits for its tick, or for the tick after it where the first run that would take it has started
(R143); `ring` counts a chunk so moved. One whose tick is past waits for the present one, by the same test. -/
def State.awaitIntake (s : State) (i : Nat) (c : Chunk) (at_ : Nat) (ring : Option Nat) : State :=
  let moves := fun (m : Nat) => ring.isSome && at_ < s.cnt && s.runStarted i m
  let m0 := s.intakeTick at_
  let late := moves m0
  let m1 := max s.tt.tick (if late then m0 + 1 else m0)
  let m := if late && moves m1 then m1 + 1 else m1
  let s := s.onlyIf late (fun u => u.bump RING_FETCH_LATE (ring.getD 0))
  let s := s.modChunks i (fun x => x.same c) (fun x => { x with joinAt := m })
  if s.cutPast m then
    match (s.slot i).chunks.find? (fun x => x.same c) with
    | some x => s.lateJoin i x
    | none => s
  else s

/-- The samples of the record's chunk are in the device at instant `at_` (R50): produced, and waiting for the intake. -/
def State.chunkComplete (s : State) (i : Nat) (c : Chunk) (at_ user : Nat) (ring : Option Nat) : State :=
  let q := s.slot i
  let s := s.onlyIf (!q.par.portFed) (fun t =>
    (t.fillChunk i (s.chunkLast q c.k)).produceTo i (s.chunkLast q c.k) c.zeroFrom (s.perChunk q))
  let s := s.featureChunk i c.k true q.trans (min q.audio.oldest (s.slot i).audio.oldest)
  let s := s.modChunks i (fun x => x.same c) (fun x => { x with complete := some at_, user := user, made := true })
  s.awaitIntake i c at_ ring

/-- Chunks up to `k` become complete at the stamp of a doorbell (R142). -/
def State.completeUpTo (s : State) (i k stamp user ring : Nat) : State :=
  let s := s.ensure i k
  ((s.slot i).chunks.filter (fun c => !c.replay && c.complete.isNone && c.status.isNone && c.k ≤ k)).foldl
    (fun t c => t.chunkComplete i c stamp user (some ring)) s

/-! ## The deadline check (R52) -/

/-- A deadline miss of one record (R52). -/
def State.missOne (s : State) (cut i : Nat) (c : Chunk) : State :=
  let cause := s.missCause cut c
  let t := s.tenancyOf i
  let s := s.modChunks i (fun x => x.same c) (fun x => { x with missed := some cause })
  let s := s.modSlot i (fun q => { q with cnt := { q.cnt with misses := q.cnt.misses + 1 } })
  (((s.bump TT_MISS_TOTAL).bump TT_MISS 0 t).bump (if cause = 0 then TT_MISS_INTAKE else TT_MISS_RUN)).raise TT_INT_STAT_DEADLINE_MISS

/-- The deadline check of one slot at the boundary of tick m; a chunk completed FAULTED is no miss (R102). -/
def State.checkSlot (s : State) (m cut i : Nat) : State :=
  let q := s.slot i
  let last := (m - q.par.anchor) / q.par.chunk
  let s := s.onlyIf (q.par.anchor + q.par.chunk ≤ m) (fun t => t.ensure i (last - 1))
  let s := s.onlyIf q.finalChunk.isSome (fun t => t.ensure i (q.finalChunk.getD 0))
  ((s.slot i).chunks.filter (fun c => c.missed.isNone && c.status != some stFAULTED && c.deadline ≤ m)).foldl (fun t c => t.missOne cut i c) s

/-- Step 4 of R62; `cut` is the intake slot of the tick that ended. -/
def State.deadlineCheck (s : State) (m cut : Nat) : State := s.slots.foldl (fun t e => t.checkSlot m cut e.1) s

/-! ## The end of a stream's chunks (R102, R106, R115, R124) -/

/-- Give a status to the records that `hit` picks, and drop the others that have none (R102, R106, R115). -/
def State.endChunks (s : State) (i st : Nat) (hit : Chunk → Bool) (every : Bool) : State :=
  let kept := fun (c : Chunk) => decide (c.stage = .settled) || (c.status.isSome && !every)
  let s := s.modSlot i (fun q => q.prune (fun c => !kept c && !hit c))
  let s := s.modChunks i (fun c => !kept c) (fun c => { c with status := some st, result := [] })
  (s.dropWorking i).flush i

/-- A stored completion of a chunk that has not been issued is turned into TORN_DOWN without results (R166). -/
def Store.torn (i : Nat) (x : Store) : Option Store :=
  match x.note with
  | .completion j k _ _ _ => if j = i && k < two 64 then some { x with data := patch (patch x.data 1 [BitVec.ofNat 8 stTORN]) 0x38 (zeros 4) } else some x
  | .result j _ => if j = i then none else some x
  | .transfer _ _ | .none => some x

/-- A stream fault at the boundary of tick m (R102). A slot that an EXPORT has parked stays PARKED, and the image holds its last committed
state (R82, R107; assumption 55). -/
def State.faultSlot (s : State) (i m code k : Nat) : State :=
  let q := s.slot i
  if !q.runs then s.modSlot i (fun q => { q with faultDue := none })
  else
    let t := s.tenancyOf i
    let s := (s.ensure i k).modSlot i (fun q => { q with fault := code, faultDue := none, held := false, wake := none, promoteAt := none })
    let s := s.onlyIf (q.state != .parked) (fun u => u.pass i .faulted .ring)
    let s := s.event i 4 m 0 code k
    let s := (s.modSlot i (fun q => { q with cnt := { q.cnt with faults := q.cnt.faults + 1 } })).bump STR_FAULTS t
    let s := s.raise STR_INT_STAT_FAULT t
    let s := s.endChunks i stFAULTED (fun c => c.joined.isSome || c.k == k) false
    let s := s.onlyIf q.demoting (fun u => u.demoteEnd i)
    s.modSlot i (fun q => { q with stopTick := none, finalChunk := none, catchup := none, demoteNext := false })

/-- A stream fault is met in this tick: the slot faults at the next boundary with chunk k (R102). -/
def State.faultAt (s : State) (i code k : Nat) : State :=
  if (s.slot i).faultDue.isSome then s else s.modSlot i (fun q => { q with faultDue := some (code, k) })

/-- The stream of the slot ends: a bind that waits for it will be refused (R211). -/
def State.loseBinds (s : State) (i : Nat) : State :=
  { s with binds := s.binds.map (fun e => (e.1, if e.2.slot = i then { e.2 with gone := true } else e.2)) }

/-- The slot is FREE and everything it held is released (R105); the token passes to the scheduler. -/
def State.freeSlot (s : State) (i : Nat) : State :=
  let s := (s.dropLists i).loseBinds i
  let q := s.slot i
  s.modSlot i (fun _ => { epoch := (q.epoch + 1) % two 32, passes := q.passes + 1 })

/-! ## Refusals and effects of stream commands (R83, R145) -/

def cBAD_STATE : Nat := 1
def cNOT_OWNER : Nat := 2
def cSTALE_EPOCH : Nat := 3
def cOUT_OF_RANGE : Nat := 4
def cLATE : Nat := 5
def cBAD_PARAM : Nat := 6
def cNO_CLASS : Nat := 7
def cPORT_H1 : Nat := 8
def cNO_SRAM : Nat := 9
def cNO_REEL : Nat := 10
def cFELT_FULL : Nat := 11
def cIMPORT_FORMAT : Nat := 12
def cIMPORT_PROGRAM : Nat := 13
def cIMPORT_PERIOD : Nat := 14
def cTORN_DOWN : Nat := 15
def cCANCELLED : Nat := 16
def cNOOP : Nat := 17

/-- The write-back of a command, with the slot's epoch as it stands (R144, R145). -/
def State.cmdDone (s : State) (ring idx slot value status flags : Nat) : State :=
  s.writeBack ring idx value s.cnt (s.slot slot).epoch status (bit flags 0)

/-- A refusal: counted and recorded on the STR_ page of the ring's tenancy (R83); the interrupt follows the write-back it announces
(R149). -/
def State.cmdRefuse (s : State) (ring idx slot code flags : Nat) : State :=
  let t := s.owner .ring ring
  let s := ((s.bump STR_REFUSED t).set STR_LAST_REFUSE_SLOT slot t).set STR_LAST_REFUSE_CODE code t
  let s := (s.cmdDone ring idx slot 0 code flags).raise STR_INT_STAT_REFUSED t
  s.onlyIf (code == cSTALE_EPOCH) (fun u => (u.bump STR_STALE t).raise STR_INT_STAT_STALE t)

end Sys2Proof.Machine
end

