-- ==== Sys2Proof/Machine/Rings.lean ====
section
/-! DEFINITION. Machine/Rings.lean: doorbells, SUBMIT descriptors, ring errors, thresholds and upstream stores (R126 to R167). -/
namespace Sys2Proof.Machine

/-- A doorbell is rejected (R159): counted, and recorded with the value written where the ring's state says so. -/
def State.badDoorbell (s : State) (r code value : Nat) : State :=
  let s := s.bump RING_DB_BAD r
  let s := s.onlyIf (code != 0) (fun t => (t.set RING_ERR code r).set RING_ERR_IDX value r)
  s.raise RING_INT_STAT_DB_BAD r

/-- A doorbell value is within the ring's indices (R134). -/
def State.doorbellOk (s : State) (r v : Nat) : Bool :=
  let n := s.ringN r
  let ty := s.get RING_CFG_TYPE r
  idxSub v (s.get RING_HOST_IDX r) ≤ n &&
  (if ty = ringSUBMIT then idxSub v (s.get RING_DEV_IDX r) ≤ n
   else if ty = ringCOMMAND then idxSub v (s.oldestOpen r) ≤ n
   else idxSub (s.get RING_DEV_IDX r) v ≤ n)

/-- Credits of a COMPLETE ring are free again: completions that waited for one leave (R136). -/
def State.flushRing (s : State) (r : Nat) : State :=
  (s.slots.filter (fun e => e.2.par.completeRing == r && e.2.chunks.any (fun c => c.status.isSome))).foldl (fun t e => t.flush e.1) s

/-- An accepted doorbell: the host index, its stamp, and an EVENT_LOST descriptor that had waited for room (R134, R137, R142). -/
def State.acceptDoorbell (s : State) (r v : Nat) : State :=
  let moved := s.get RING_HOST_IDX r != v
  let ty := s.get RING_CFG_TYPE r
  let s := (s.set RING_HOST_IDX v r).bump RING_DB_WRITES r
  let s := s.onlyIf ((s.ring r).fired && s.written r < s.get RING_WMARK r) (fun t => t.modRing r (fun q => { q with fired := false }))
  let s := s.onlyIf (moved && (ty == ringSUBMIT || ty == ringCOMMAND))
    (fun t => t.modRing r (fun q => { q with stamps := q.stamps ++ [(v, t.cnt)] }))
  let s := s.onlyIf (moved && ty == ringCOMPLETE) (fun t => t.flushRing r)
  s.onlyIf (moved && ty == ringEVENT && s.get RING_HELD r != 0) (fun t => t.writeLost r)

/-- The bytes of a doorbell write that its byte enables carry, the others taken as zero (R159). -/
def enabledBytes (value be : Nat) : Nat :=
  (List.range 4).foldl (fun v i => if bit be i then v + bits value (8 * i) 8 * two (8 * i) else v) 0

/-- A doorbell write through the bound function (R134, R159). -/
def State.doorbell (s : State) (r value be : Nat) : State :=
  let v := enabledBytes value be
  let st := s.get RING_STAT_STATE r
  if st = 0 then s.badDoorbell r errDB_DISABLED v
  else if st = 2 then s.badDoorbell r 0 v
  else if be % 16 != 15 || !s.doorbellOk r v then s.badDoorbell r errDB_RANGE v
  else s.acceptDoorbell r v

/-- An access to a doorbell page through the bound function: RING_DB at offset 0 takes a doorbell and reads the device index; every other offset
reads zero and ignores writes (R169, R708). -/
def State.dbAccess (s : State) (r off : Nat) (a : DbAccess) : State :=
  match a with
  | .write value be => if off = 0 then s.doorbell r value be else s
  | .read => s.returns (if off = 0 then s.get RING_DEV_IDX r else 0)

/-- An access to a doorbell page through another function: counted, a write discarded, a read zero (R160, R600). -/
def State.dbDenied (s : State) (f : Nat) (a : DbAccess) : State :=
  let s := (s.bump ISO_T_DB_DENIED f).raise ISOT_INT_STAT_DENIED f
  match a with
  | .write _ _ => s
  | .read => s.returns 0

/-- DOORBELL_WRITE (R134, R159, R160, R169): an access to a doorbell page. -/
def execDoorbellWrite (dt : Nat) (f : Fin 64) (ring : Fin 512) (off : Nat) (a : DbAccess) (s : State) : Out :=
  let t := s.elapse dt
  s.done (if !t.pkg.sdUp then (match a with
      | .write _ _ => t
      | .read => t.returns 0)
    else if t.owner .ring ring = f then t.dbAccess ring off a
    else t.dbDenied f a)

/-! ## SUBMIT descriptors (R141 to R143, R146, R147, R162) -/

/-- Reasons of R162. -/
def subSLOT : Nat := 1
def subSTATE : Nat := 2
def subLENGTH : Nat := 3
def subOPCODE : Nat := 4
def subFETCH : Nat := 5

/-- The descriptor's slot is in range and names the ring (R141). -/
def State.submitNames (s : State) (r i : Nat) : Bool :=
  let q := s.slot i
  s.inRange (s.owner .ring r) i && (q.state == .free || (!q.par.portFed && q.par.submitRing == r))

/-- The first check of R141 and R162 that an AUDIO descriptor fails; 0 for none. -/
def State.submitCheck (s : State) (r : Nat) (d : List Byte) (audio : Option (List Byte)) : Nat :=
  let q := s.slot (le d 2 2)
  let frames := le d 0x18 4
  if le d 0 1 ≠ 1 then subOPCODE
  else if !s.submitNames r (le d 2 2) then subSLOT
  else if q.state == .free || q.state == .admitted then subSTATE
  else if frames = 0 || le d 4 4 ≠ frames * sampleBytes q.par.format * q.par.channels then subLENGTH
  else if audio.isNone then subFETCH
  else 0

/-- The status of a SUBMIT that no chunk run consumes (R102, R104, R107, R146). -/
def State.submitKind2 (s : State) (d : List Byte) : Option Nat :=
  let q := s.slot (le d 2 2)
  match q.state with
  | .faulted => some stFAULTED
  | .parked => some stPARKED
  | .draining => if q.stopTick.any (fun t => t * s.perTick ≤ le d 0x10 8) then some stSTOPPED else none
  | .free | .admitted | .listen | .transcribe => none

/-- The chunk of a SAMPLE_INDEX, if the grid has one (R142). -/
def State.chunkOf (s : State) (q : Slot) (sample : Nat) : Option Nat :=
  if sample < s.chunkFirst q 0 then none else some ((sample - s.chunkFirst q 0) / s.perChunk q)

/-- A rejected SUBMIT (R162): the interrupt follows the event it announces (R149). -/
def State.submitBad (s : State) (r : Nat) (d : List Byte) (code : Nat) : State :=
  let i := le d 2 2
  let idx := s.get RING_DEV_IDX r
  let named := s.submitNames r i && (s.slot i).state != .free
  let s := s.bump RING_SUBMIT_BAD r
  (s.onlyIf named (fun t => t.event i 8 (t.cnt / t.periodNs) (le d 0x10 8) code idx)).raise RING_INT_STAT_SUBMIT_BAD r

/-- Chunks that the descriptor makes complete (R142): its own with END set, and every earlier one. -/
def State.submitCompletes (s : State) (r : Nat) (d : List Byte) (own : Bool) : State :=
  let i := le d 2 2
  let q := s.slot i
  if !(q.state == .listen || q.state == .transcribe || q.state == .draining || q.state == .parked) || !q.audio.active then s
  else match s.chunkOf q (le d 0x10 8) with
    | none => s
    | some k =>
      if own && bit (le d 1 1) 0 then s.completeUpTo i k (s.stamp r) (le d 0x20 8) r
      else if k = 0 then s else s.completeUpTo i (k - 1) (s.stamp r) (le d 0x20 8) r

/-- A KIND 2 completion (R146, R147). Its deadline tick is that of its chunk in the tier in force (assumption 21). -/
def State.kind2 (s : State) (d : List Byte) (st : Nat) : State :=
  let i := le d 2 2
  let q := s.slot i
  let k := (s.chunkOf q (le d 0x10 8)).getD 0
  s.putDesc q.par.completeRing
    (record [(1, 2), (1, st), (2, i), (4, q.epoch), (8, k), (8, s.chunkFirst q k), (8, 0), (8, q.endTick k + q.par.hw q.trans),
             (8, q.par.userTag), (8, le d 0x20 8), (4, 0), (2, 0)])
    (.completion i (two 64) q.trans false 0)

/-- An accepted AUDIO descriptor: its frames are placed (R173, R176). -/
def State.takeAudio (s : State) (d b : List Byte) : State :=
  let i := le d 2 2
  let q := s.slot i
  let t := s.tenancyOf i
  let r := parseFrames q.par.format q.par.channels (le d 0x18 4) b
  let s := s.onlyIf (r.2 != 0) (fun u => (u.bump FE_FLOAT_FIXED t 0 r.2).raise FE_INT_STAT_FLOAT_FIXED t)
  s.placeFrames i (le d 0x10 8) r.1

/-- A SUBMIT descriptor is consumed (R141 to R147, R162). -/
def State.submit (s : State) (r : Nat) (d : List Byte) (audio : Option (List Byte)) : State :=
  let code := s.submitCheck r d audio
  if code ≠ 0 then
    let s := s.submitBad r d code
    let s := s.onlyIf (s.submitNames r (le d 2 2)) (fun t => t.submitCompletes r d true)
    s.consume r
  else match s.submitKind2 d with
    | some st =>
      let cr := (s.slot (le d 2 2)).par.completeRing
      if s.creditFree cr then ((s.kind2 d st).submitCompletes r d false).consume r
      else if (s.ring r).stalled then s
      else ((s.modRing r (fun q => { q with stalled := true })).bump RING_STALLS cr).raise RING_INT_STAT_STALL cr
    | none => ((s.takeAudio d (audio.getD [])).submitCompletes r d true).consume r

/-- SUBMIT_AUDIO: the descriptor at the device index of a SUBMIT ring that may be consumed. A NOP among them is consumed. -/
def execSubmitAudio (dt : Nat) (ring : Fin 512) (desc : List Byte) (audio : Option (List Byte)) (s : State) : Out :=
  let t := s.elapse dt
  s.done (if t.canConsume ring && t.get RING_CFG_TYPE ring = ringSUBMIT
    then (if le desc 0 1 = 2 then t.consume ring else t.submit ring desc audio) else t)

/-- SUBMIT_NOP (R141). -/
def execSubmitNop (dt : Nat) (ring : Fin 512) (s : State) : Out :=
  let t := s.elapse dt
  s.done (if t.canConsume ring && t.get RING_CFG_TYPE ring = ringSUBMIT then t.consume ring else t)

/-- DESCRIPTOR_FETCH_ERROR (R163). -/
def execDescriptorFetchError (dt : Nat) (ring : Fin 512) (s : State) : Out :=
  let t := s.elapse dt
  let ty := t.get RING_CFG_TYPE ring
  s.done (if t.canConsume ring && (ty = ringSUBMIT || ty = ringCOMMAND) then
      (((t.set RING_STAT_STATE 2 ring).set RING_ERR errFETCH ring).set RING_ERR_IDX (t.get RING_DEV_IDX ring) ring).raise
        RING_INT_STAT_ERROR ring
    else t)

/-- THRESHOLD_HOLDOFF (R155). -/
def execThresholdHoldoff (ring : Fin 512) (s : State) : Out :=
  s.done (match (s.ring ring).holdFrom with
    | some (t0, us) => if us = 0 || !s.ringActive ring then s else (s.reach (t0 + 1000 * us)).threshold ring
    | none => s)

/-- Vectors of a function whose pending bit is set and that may now be sent are sent (R154, R708). -/
def State.msixFlush (s : State) (f : Nat) : State :=
  (List.range 65).foldl (fun (u : State) k =>
    let key := 1024 * f + 512 + k
    if Map.get u.msix key 0 = 1 && !u.msixMasked f k then ({ u with msix := Map.del key u.msix }).msixSend f k else u) s

/-- The host writes a function's configuration space: Bus Master Enable and what goes with it (R126, R153, R154). -/
def State.configure (s : State) (f : Nat) (en : Bool) (cfg : FnCfg) : State :=
  ({ s with fns := Map.put f { s.fnState f with bme := en, cfg := cfg } s.fns }).msixFlush f

/-- BUS_MASTER_ENABLE_CHANGE (R126, R153). -/
def execBusMasterEnableChange (dt : Nat) (f : Fin 64) (w : CfgWrite) (s : State) : Out :=
  let t := s.elapse dt
  s.done (if t.fnEnabled f && !(t.fnState f).flr then t.configure f w.en w.cfg else t)

/-! ## Upstream stores (R150 to R153) -/

/-- Upstream write-out buffers, all and those one function may hold (R151, R152). -/
def upBuffers : Nat := 64
def fnBuffers : Nat := 16

/-- The function granted next: round robin among functions with a store that waits and may enter a buffer (R152, R153). -/
def State.nextFn (s : State) : Option Nat :=
  ((List.range 64).map (fun k => (s.lastGrant + 1 + k) % 64)).find?
    (fun f => s.mayRequest f && s.stores.any (fun x => x.fn == f && !x.up) &&
      (s.stores.filter (fun x => x.fn == f && x.up)).length < fnBuffers)

/-- The first store that `p` picks, and the others. -/
def takeStore (p : Store → Bool) : List Store → Option (Store × List Store)
  | [] => none
  | x :: l => if p x then some (x, l) else (takeStore p l).map (fun r => (r.1, x :: r.2))

/-- One buffer is granted to the oldest waiting store of the function whose turn it is; buffered stores stand first, in the order of their
grants. -/
def State.grantOne (s : State) : State :=
  match s.nextFn with
  | none => s
  | some f =>
    match takeStore (fun x => x.fn == f && !x.up) s.stores with
    | none => s
    | some (x, l) =>
      { s with stores := l.filter (fun y => y.up) ++ { x with up := true } :: l.filter (fun y => !y.up), lastGrant := f }

/-- Every free buffer is granted to a waiting store (R151, R152). -/
def State.grantStores (s : State) : State :=
  (List.range (upBuffers - (s.stores.filter (fun x => x.up)).length)).foldl (fun u _ => u.grantOne) s

/-- A store is committed to the PCIe transmit queue at this instant: a completion takes its DONE_TIME and its late mark (R150). -/
def Store.commit (x : Store) (now period : Nat) : Store × Bool :=
  match x.note with
  | .completion _ _ _ late cause =>
    let l := late || le x.data 0x20 8 * period ≤ now
    let m := le x.data 0x3C 1 + (if l then 1 + 2 * cause else 0)
    ({ x with data := patch (patch x.data 0x18 (toLe 8 now)) 0x3C (toLe 1 m) }, l)
  | .result _ _ | .transfer _ _ | .none => (x, false)

/-- What follows the issue of a store: the record of a completed chunk goes (R51, R104). -/
def State.afterIssue (s : State) (x : Store) (late : Bool) : State :=
  match x.note with
  | .completion i k tr _ _ => if k < two 64 then s.issued i k tr late else s
  | .result _ _ | .transfer _ _ | .none => s

/-- An armed injection into the write-out buffers meets the store that leaves (R544, R572): one bit is corrected, two send it with EP and
zero bytes in the word's place. The word is a free value. -/
def State.spoilStore (s : State) (x : Store) : State × Store :=
  if !s.flag MEM_INJECT_ARM || s.get MEM_INJECT_STORE != 7 || x.data.length < 8 then (s, x)
  else
    let d := s.draw
    let w := 8 * ((Config.freeWord d.1 0).toNat % (x.data.length / 8))
    let dam : Damage := { store := 7, unit := 0, addr := w, kind := if s.flag MEM_INJECT_KIND then 2 else 1, bit := Config.flippedBit d.1 % 64 }
    let u := d.2.set MEM_INJECT_ARM 0
    if dam.kind = 1 then (u.countCE dam srPCIE_WRITE, x)
    else (u.countUE dam { action := acEP_SENT, source := srPCIE_WRITE }, { x with ep := true, data := patch x.data w (zeros 8) })

/-- The store that has held its buffer longest leaves it (R151). -/
def State.leaveBuffer (s : State) : State :=
  match takeStore (fun x => x.up) s.stores with
  | none => s
  | some (x, l) =>
    let r := s.spoilStore (x.commit s.cnt s.periodNs).1
    let late := (x.commit s.cnt s.periodNs).2
    let s : State := { r.1 with stores := l, txq := (s.cnt, { r.2 with up := false }) :: s.txq }
    (s.onlyIf r.2.ep (fun t => t.bumpSat MEM_EP_SENT)).afterIssue x late

/-- Free buffers are granted, and one store leaves (R151, R152). -/
def State.issueStore (s : State) : State := s.grantStores.leaveBuffer

end Sys2Proof.Machine
end

