-- ==== Sys2Proof/Machine/Streams.lean ====
section
/-! DEFINITION. Machine/Streams.lean: stream commands as they are observed, and as they take effect at a boundary (R80 to R108,
R115, R116). -/
namespace Sys2Proof.Machine

def opADMIT : Nat := 1
def opSTART : Nat := 2
def opSTOP : Nat := 3
def opPROMOTE : Nat := 4
def opDEMOTE : Nat := 5
def opEXPORT : Nat := 6
def opIMPORT : Nat := 7
def opRESUME : Nat := 8
def opRESTART : Nat := 9
def opRELEASE : Nat := 10

/-- The number of the next tick boundary (R44, R62). -/
def State.nextTick (s : State) : Nat := s.ht.stepTick.getD (s.tt.tick + 1)

/-! ## Admission (R86, R87, R89, R220) -/

/-- The frame rate a port declares, and the FORMAT code of its samples (R216, R218). -/
def rateOf (code : Nat) : Nat := [8000, 16000, 22050, 24000, 32000, 44100, 48000].getD code 0
def State.portRate (s : State) (p : Nat) : Nat := rateOf (if p < 8 then s.get APT_CFG_RATE p else s.get IXP_CFG_RATE (p - 8))
def State.portFormat (s : State) (p : Nat) : Nat := if p < 8 && s.get APT_CFG_WIDTH p = 0 then 1 else 3
/-- The direction of data line d of an AP port (R214): 0 off, 1 in, 2 out. -/
def State.lineDir (s : State) (p d : Nat) : Nat :=
  s.get (if d = 0 then APT_LINES_DIR0 else if d = 1 then APT_LINES_DIR1 else if d = 2 then APT_LINES_DIR2 else APT_LINES_DIR3) p
/-- The input channels that a slot mask selects (R219). -/
def State.selected (s : State) (p mask : Nat) : List Nat :=
  if p < 8 then (maskList mask 8).filter (fun c => s.lineDir p (c / 2) == 1) else maskList mask 2
/-- M of R219. -/
def State.portMask (s : State) (p : Nat) : Nat := if p < 8 then s.get APT_SLOTMASK p else s.get IXP_SLOTMASK (p - 8)
def State.portM (s : State) (p : Nat) : Nat := (s.selected p (s.portMask p)).length
def State.portOwner (s : State) (p : Nat) : Nat := if p < 8 then s.owner .apt p else s.owner .ixp (p - 8)

/-- The binding of R220 is allowed. -/
def State.portOk (s : State) (t : Nat) (b : Params) : Bool :=
  let p := b.port % 16
  p < 10 && b.port < 128 && s.portOwner p == t && b.port / 16 % 8 + b.channels ≤ s.portM p &&
  b.format == s.portFormat p && b.rate == s.portRate p

/-- The stream parameter record (R86), headways and defaults resolved (R89). -/
def parseParams (b : List Byte) : Params :=
  let fl := le b 2 2
  let h := le b 5 1
  { portFed := bit fl 0, locked := bit fl 1, transcribe := bit fl 2, autoPromote := bit fl 3, autoDemote := bit fl 4,
    chunk := le b 4 1, headway := h, channels := le b 6 1, format := le b 7 1, rate := le b 8 4, listenClass := le b 0xC 2,
    transClass := le b 0xE 2, anchor := le b 0x10 8, submitRing := le b 0x18 2, completeRing := le b 0x1A 2, eventRing := le b 0x1C 2,
    port := le b 0x1E 1, listenH := if le b 0x1F 1 = 0 then h else le b 0x1F 1,
    preroll := if le b 0x20 2 = 0 then 500 else le b 0x20 2, rb := if le b 0x22 1 = 0 then 4 else le b 0x22 1, userTag := le b 0x28 8 }

/-- A ring is of a type and bound to tenancy t (R87, R144). -/
def State.ringIs (s : State) (r ty t : Nat) : Bool := r < 512 && s.get RING_CFG_TYPE r == ty && s.owner .ring r == t

/-- The rings a stream names are of the types its fields name and belong to its function (R87, R144). -/
def State.ringsOk (s : State) (t : Nat) (p : Params) : Bool :=
  (p.portFed || s.ringIs p.submitRing ringSUBMIT t) && s.ringIs p.completeRing ringCOMPLETE t && s.ringIs p.eventRing ringEVENT t

/-- The record's own values are in range (R86, R89, R170). -/
def paramsOk (b : List Byte) (p : Params) : Bool :=
  le b 0 2 == 1 && le b 2 2 < 32 && (p.chunk == 1 || p.chunk == 2 || p.chunk == 4 || p.chunk == 8) &&
  1 ≤ p.headway && p.headway ≤ 8 && 1 ≤ p.channels && p.channels ≤ 8 && 1 ≤ p.format && p.format ≤ 6 &&
  [8000, 16000, 22050, 24000, 32000, 44100, 48000].contains p.rate && p.listenH ≤ 8 && p.preroll ≤ 2000 && p.rb ≤ 8 &&
  le b 0x23 5 == 0 && le b 0x30 16 == 0 && !(p.transcribe && p.transClass == 0xFFFF)

/-- A port-fed stream with a headway of 1 (R89). -/
def Params.portH1 (p : Params) : Bool := p.portFed && (p.listenH == 1 || (p.headway == 1 && p.transClass != 0xFFFF))

/-- The allocations of R266 for a stream of tenancy t, where its classes' pools can hold them. -/
def State.homeFor (s : State) (t : Nat) (p : Params) : Option (Option Alloc) :=
  if p.transClass = 0xFFFF then some none
  else match s.chain t p.transClass 0 with
    | [] => none
    | m :: l => (s.allocCore (m :: l) (s.featBytes p.chunk m.beams) m.rstate m.encCache).map some
def State.listenFor (s : State) (t : Nat) (p : Params) : Option Alloc :=
  match s.chain t p.listenClass 1 with
  | [] => none
  | m :: l => s.allocCore (m :: l) (s.featBytes p.chunk m.beams) m.kwstate 0

/-- The first own check of ADMIT that fails; 0 for none (R84, R87). DEDUCED (assumption 55): R87 names no code for an anchor tick that has begun
or a parameter record whose fetch ended in an error; both are BAD_PARAM. -/
def State.admitCheck (s : State) (t : Nat) (rec : Option (List Byte)) : Nat :=
  match rec with
  | none => cBAD_PARAM
  | some b =>
    let p := parseParams b
    if !paramsOk b p || !s.ringsOk t p || p.anchor * s.periodNs ≤ s.cnt || (p.portFed && !s.portOk t p) then cBAD_PARAM
    else if !s.served t p.listenClass 1 || (p.transClass != 0xFFFF && !s.served t p.transClass 0) then cNO_CLASS
    else if p.portH1 then cPORT_H1
    else if (s.homeFor t p).isNone || (s.listenFor t p).isNone then cNO_SRAM
    else if (s.allocReel (reelBlocks p.format p.channels)).isNone then cNO_REEL
    else 0

/-- FAMILY of a stream's program (R110). -/
def State.familyOf (s : State) (t : Nat) (p : Params) : Nat :=
  ((s.classFamily t p.transClass 0).orElse (fun _ => s.classFamily t p.listenClass 1)).getD 0

/-- What a stream reserves (R87, R196, R266). -/
def State.reservation (s : State) (t : Nat) (p : Params) : Reserved :=
  let n := reelBlocks p.format p.channels
  { home := (s.homeFor t p).getD none, listen := s.listenFor t p, family := s.familyOf t p, base := (s.allocReel n).getD 0, blocks := n }

/-- Reserve and zero what a stream needs, and give it to slot i (R112). -/
def State.reserve (s : State) (i t : Nat) (p : Params) : State :=
  let r := s.reservation t p
  (s.zeroReserved r).modSlot i (fun q => q.give r)

/-! ## Observation (R83, R132, R138) -/

/-- A COMMAND ring's next descriptor may be consumed (R138). -/
def State.canTake (s : State) (r : Nat) : Bool :=
  s.canConsume r && s.get RING_CFG_TYPE r == ringCOMMAND && s.get RING_HELD r < 256

/-- The descriptor is consumed and its command is not yet done (R132, R135). -/
def State.takeCommand (s : State) (r : Nat) : State :=
  let idx := s.get RING_DEV_IDX r
  let s := s.modRing r (fun q => { q with out := q.out ++ [(idx, false)] })
  (s.set RING_HELD (s.get RING_HELD r + 1) r).consume r

/-- The command a descriptor carries (R144); T = 0 is the first boundary after observation (R83). DEDUCED (assumption 54): that boundary's tick
number is bound here, so after a step of the counter (R44) such a command waits, or is late, by that number. -/
def State.parseCmd (s : State) (r : Nat) (d : List Byte) : StreamCmd :=
  { op := le d 0 1, slot := le d 2 2, ring := r, idx := s.get RING_DEV_IDX r,
    tick := if le d 8 8 = 0 then s.nextTick else le d 8 8, epoch := le d 4 4, addr := le d 0x10 8, len := le d 0x18 4,
    flags := le d 1 1 }

/-- The slot has an owning host ring, and it is the command's: that of the ADMIT or IMPORT that filled it, or of an ADMIT accepted for it
(R81, R83). -/
def State.owns (s : State) (c : StreamCmd) : Bool :=
  let q := s.slot c.slot
  (q.state != .free && q.cmdRing == c.ring) || s.cmds.any (fun d => d.op == opADMIT && d.slot == c.slot && d.ring == c.ring)

/-- The first of checks 1 to 4 of R83 that fails; 0 for none. -/
def State.cmdCheck (s : State) (c : StreamCmd) : Nat :=
  let q := s.slot c.slot
  let fresh := c.op == opADMIT || c.op == opIMPORT
  if !s.inRange (s.owner .ring c.ring) c.slot then cOUT_OF_RANGE
  else if !fresh && !s.owns c then cNOT_OWNER
  else if (if fresh then q.state != .free else q.epoch != c.epoch) then cSTALE_EPOCH
  else if c.tick * s.periodNs ≤ s.cnt || c.tick < s.nextTick then cLATE
  else 0

/-- A refusal of a command (R83); one that names a slot out of range is counted on the tenancy's ISO_ page too (R600). -/
def State.refuseCmd (s : State) (c : StreamCmd) (code : Nat) : State :=
  (s.onlyIf (code == cOUT_OF_RANGE) (fun t => t.denyFn (t.owner .ring c.ring))).cmdRefuse c.ring c.idx c.slot code c.flags

/-- The next descriptor of a COMMAND ring is a command with opcode `op`: it is checked and accepted or refused (R83). A descriptor
with an opcode that R144 does not list is refused with BAD_PARAM. -/
def State.observe (s : State) (r op : Nat) (d : List Byte) (own : State → StreamCmd → Nat) (accept : State → StreamCmd → State) : State :=
  if !s.canTake r then s
  else
    let c := s.parseCmd r d
    if c.op = 0 || 10 < c.op then
      let s := s.takeCommand r
      let code := s.cmdCheck c
      s.refuseCmd c (if code ≠ 0 then code else cBAD_PARAM)
    else if c.op ≠ op then s
    else
      let s := s.takeCommand r
      let code := s.cmdCheck c
      if code ≠ 0 then s.refuseCmd c code
      else
        let code := own s c
        if code ≠ 0 then s.refuseCmd c code else accept s c

/-- An accepted command waits for its tick (R83). -/
def State.await (s : State) (c : StreamCmd) : State := { s with cmds := s.cmds ++ [c] }

/-- The parameters of the stream that a command will meet: the slot's, or on a FREE slot those of the ADMIT that its ring has had accepted. -/
def State.parOf (s : State) (c : StreamCmd) : Params :=
  let q := s.slot c.slot
  if q.state != .free then q.par
  else ((s.cmds.find? (fun d => d.op == opADMIT && d.slot == c.slot && d.ring == c.ring)).map (fun d => d.par)).getD q.par

/-- The image that is to give the slot its stream has not been loaded (R112). -/
def State.unread (s : State) (c : StreamCmd) : Bool := (s.slot c.slot).imp.any (fun x => !x.loaded)

/-- T is a boundary of the stream's chunk grid (R84). -/
def State.onGrid (s : State) (c : StreamCmd) : Bool :=
  let p := s.parOf c
  !s.unread c && p.anchor ≤ c.tick && (c.tick - p.anchor) % p.chunk == 0

/-- The own check of START and RESUME (R84), which waits for T where the stream's image has still to be loaded (assumption 55). -/
def State.gridCheck (s : State) (c : StreamCmd) : Nat := if s.unread c || s.onGrid c then 0 else cBAD_PARAM

/-- The own check of PROMOTE (R84). -/
def State.promoteCheck (s : State) (c : StreamCmd) : Nat := if !s.unread c && (s.parOf c).transClass = 0xFFFF then cNO_CLASS else 0

/-- An ADMIT is accepted: what its stream needs is reserved and zeroed; the slot stays FREE until T (R82, R87). -/
def State.acceptAdmit (s : State) (c : StreamCmd) (p : Params) : State :=
  let t := s.owner .ring c.ring
  let r := s.reservation t p
  ((((s.bump STR_ADMITS t).placeItem 8 c.slot).zeroReserved r)).await { c with par := p, res := r }

/-- ADMIT (R86, R87). -/
def execAdmitStream (dt : Nat) (ring : Fin 512) (desc : List Byte) (rec : Option (List Byte)) (s : State) : Out :=
  s.done ((s.elapse dt).observe ring opADMIT desc (fun t _ => t.admitCheck (t.owner .ring ring) rec)
    (fun t c => t.acceptAdmit c (parseParams (rec.getD []))))

/-- START (R84, R103). -/
def execStart (dt : Nat) (ring : Fin 512) (desc : List Byte) (s : State) : Out :=
  s.done ((s.elapse dt).observe ring opSTART desc State.gridCheck State.await)

/-- STOP (R104). -/
def execStop (dt : Nat) (ring : Fin 512) (desc : List Byte) (s : State) : Out :=
  s.done ((s.elapse dt).observe ring opSTOP desc (fun _ _ => 0) State.await)

/-- PROMOTE (R84, R97). -/
def execPromote (dt : Nat) (ring : Fin 512) (desc : List Byte) (s : State) : Out :=
  s.done ((s.elapse dt).observe ring opPROMOTE desc State.promoteCheck State.await)

/-- DEMOTE (R101). -/
def execDemote (dt : Nat) (ring : Fin 512) (desc : List Byte) (s : State) : Out :=
  s.done ((s.elapse dt).observe ring opDEMOTE desc (fun _ _ => 0) State.await)

/-- RESUME (R84, R108). -/
def execResume (dt : Nat) (ring : Fin 512) (desc : List Byte) (s : State) : Out :=
  s.done ((s.elapse dt).observe ring opRESUME desc State.gridCheck State.await)

/-- RESTART (R103). -/
def execRestart (dt : Nat) (ring : Fin 512) (desc : List Byte) (s : State) : Out :=
  s.done ((s.elapse dt).observe ring opRESTART desc (fun _ _ => 0) State.await)

/-- RELEASE (R105). -/
def execRelease (dt : Nat) (ring : Fin 512) (desc : List Byte) (s : State) : Out :=
  s.done ((s.elapse dt).observe ring opRELEASE desc (fun _ _ => 0) State.await)

/-! ## Effects at the boundary of tick m -/

/-- The mode is SIDING (R503). -/
def State.siding (s : State) : Bool := s.get PWRG_STAT_MODE == 2

/-- The keyword state is zero whenever a stream enters LISTEN (R97). -/
def State.zeroKeyword (s : State) (i : Nat) : State :=
  match (s.slot i).listen with
  | some a => s.wrZero .sram (sramAt a.core (a.off + 64 + a.feat)) (2 * a.bank)
  | none => s

/-- The stream runs from the chunk that begins at tick m (R103, R108, R177, R512); `full` is its tier and `wake` the s_w of a
promotion held because the mode is SIDING. -/
def State.runFrom (s : State) (i m : Nat) (full : Bool) (wake : Nat) : State :=
  let q := s.slot i
  let t := s.tenancyOf i
  let k := (m - q.par.anchor) / q.par.chunk
  let skip := k - q.next
  let hold := full && s.siding
  let s := s.pass i (if full && !s.siding then .transcribe else .listen) .scheduler
  let s := s.modSlot i (fun q => { q with
    chunks := q.chunks.filter (fun c => c.status.isSome), next := max k q.next, catchup := none, promoteAt := none,
    held := hold, wake := if hold then some wake else none, stopTick := none, finalChunk := none, drained := false, demoteNext := false,
    cnt := { q.cnt with skipped := q.cnt.skipped + skip } })
  let s := (s.bump STR_SKIPPED t 0 skip).beginProcessing i (s.chunkFirst q k)
  s.onlyIf (!full || hold) (fun u => u.zeroKeyword i)

/-- STOP takes effect at the boundary of tick m (R104). -/
def State.stopAt (s : State) (i m : Nat) : State :=
  let q := s.slot i
  let kf := (m - 1 - q.par.anchor) / q.par.chunk
  let s := (s.modSlot i (fun q => { q.prune (fun c => kf < c.k && c.isOpen && !c.replay) with
    stopTick := some m, finalChunk := some kf, held := false, wake := none, promoteAt := none })).pass i .draining .scheduler
  let q := s.slot i
  let s := s.modChunks i (fun c => c.k == kf && !c.replay && c.stage != .settled) (fun c =>
    let d := s.newChunk q kf c.trans c.replay
    { c with n := d.n, zeroFrom := d.zeroFrom, final := d.final, deadline := if c.isOpen && c.missed.isNone then d.deadline else c.deadline })
  let ovr := m ≤ q.par.anchor || (kf < q.next && !(s.slot i).chunks.any (fun c => c.k == kf))
  s.onlyIf ovr (fun u => u.modSlot i (fun q => { q with drained := true }))

/-- The first chunk that is not complete (R99). -/
def Slot.firstIncomplete (q : Slot) : Nat :=
  match q.chunks.find? (fun c => !c.replay && c.complete.isNone && c.status.isNone) with
  | some c => c.k
  | none => q.next

/-- A promotion at boundary p with s_w (R97 to R100). -/
def State.promote (s : State) (i p sw : Nat) : State :=
  let q := s.slot i
  let t := s.tenancyOf i
  let first := s.chunkFirst q 0
  let base := sw - q.par.preroll * 16
  let old := q.audio.oldest
  let sr := max base (max old first)
  let clip := base < old && first < old
  let k0 := (sr - first) / s.perChunk q
  let s := (s.modSlot i (fun q => { q with held := false, wake := some sw, promoteAt := none, catchup := some (p, k0),
                                           cnt := { q.cnt with promotions := q.cnt.promotions + 1 } })).pass i .transcribe .scheduler
  let s := ((s.bump STR_PROMOTIONS t).clearFill i).event i 2 p sr 0 k0 (b2n clip)
  let s := s.onlyIf clip (fun u => u.raise STR_INT_STAT_REEL_CLIPPED t)
  let q := s.slot i
  let kc := q.firstIncomplete
  let waits := fun (c : Chunk) => c.isOpen && !c.replay
  -- the keyword tier takes no chunk any more: those complete and not joined run on the full model, be they before k0 (R95)
  let k1 := (q.chunks.filter (fun c => waits c && c.k < kc)).foldl (fun n c => min n c.k) k0
  let keep := q.chunks.filter (fun c => !waits c)
  let ks := ((List.range (kc - k1)).map (fun j => k1 + j)).filter (fun k => k0 ≤ k || q.chunks.any (fun c => c.k == k && waits c))
  let reps := ks.map (fun k =>
    let was := q.chunks.find? (fun c => c.k == k && !c.replay)
    let open_ := was.bind (fun c => if c.isOpen then some c else none)
    let d := s.newChunk q k true true
    { d with
      complete := some ((was.bind (fun c => c.complete)).getD (s.tickAt p)), joinAt := p + (k - k0) / q.par.rb, twin := open_.isNone, made := true,
      missed := open_.bind (fun c => c.missed),
      deadline := ((open_.filter (fun c => c.missed.isSome)).map (fun c => c.deadline)).getD d.deadline,
      user := (was.map (fun c => c.user)).getD 0 })
  let live := (q.chunks.filter (fun c => waits c && kc ≤ c.k)).map
    (fun c => if c.missed.isSome then c else { c with trans := true, deadline := q.deadline c.k c.n true })
  let ovr := !q.inCatch k0 (q.endTick k0)
  (s.modSlot i (fun q => { q with chunks := keep ++ reps ++ live, catchup := if ovr then none else q.catchup })).flush i

/-- A promotion falls due at boundary m: with the earliest s_w of the stream's WAKE events, or the first sample of the chunk that holds the
boundary; in SIDING it is held (R97, R98). -/
def State.promoteDue (s : State) (i m : Nat) : State :=
  let q := s.slot i
  if q.state != .listen || q.par.transClass == 0xFFFF then s
  else if s.siding then s.modSlot i (fun q => { q with held := true, promoteAt := none })
  else s.promote i m (q.wake.getD (s.chunkFirst q ((m - q.par.anchor) / q.par.chunk)))

/-- A demotion at boundary m (R101). -/
def State.demote (s : State) (i m : Nat) : State :=
  let q := s.slot i
  if q.state != .transcribe then s
  else
    let s := s.pass i .listen .scheduler
    let s := s.modSlot i (fun q => { q with
      catchup := none, held := false, wake := none, promoteAt := none, demoteNext := false,
      chunks := (q.chunks.filter (fun c => !(c.isOpen && c.replay && c.twin))).map
        (fun c => if c.isOpen then { c with kw := true, trans := false, deadline := if c.missed.isSome then c.deadline else c.n + q.par.listenH } else c) })
    let q := s.slot i
    let first := ((q.chunks.find? (fun c => c.isOpen)).map (fun c => c.k)).getD q.next
    let last := q.chunks.any (fun c => c.trans && c.joined.isSome && c.status.isNone)
    let s := (s.modSlot i (fun q => { q with demoting := last })).onlyIf (!last) (fun u => u.demoteEnd i)
    ((s.event i 3 m 0 0 first).zeroKeyword i).flush i

/-- EXPORT takes effect at its boundary (R107 step 1). -/
def State.park (s : State) (i : Nat) (c : StreamCmd) : State :=
  let old := (s.slot i).epoch
  let x : Export := { ring := c.ring, idx := c.idx, tick := c.tick, addr := c.addr, len := c.len, dev := bit c.flags 2,
                      irq := bit c.flags 0, epoch := (old + 1) % two 32, oldEpoch := old,
                      oldest := (s.slot i).audio.oldest }
  let s := (s.modSlot i (fun q => { q with exp := some x })).pass i .parked .engine
  let lim := ((s.slot i).limit).getD 0
  let s := (s.modSlot i (fun q => q.prune (fun c => lim ≤ c.k && c.isOpen && !c.replay))).modChunks i
    (fun c => lim ≤ c.k && c.joined.isSome && c.status.isNone) (fun c => { c with status := some stPARKED, result := [] })
  (s.flush i).advance i

end Sys2Proof.Machine
end

