-- ==== Sys2Proof/Machine/Migration.lean ====
section
/-! DEFINITION. Machine/Migration.lean: stream images, EXPORT and IMPORT (R72, R107 to R114, R125). -/
namespace Sys2Proof.Machine

/-- LPDDR5X address of a tenancy's image window, and its size (R109). -/
def State.imgBase (s : State) (t : Nat) : Nat := s.get STR_IMG_BASE_LO t * two 20 + s.get STR_IMG_BASE_HI t * two 32
def State.imgSize (s : State) (t : Nat) : Nat := s.get STR_IMG_SIZE t * two 20

/-- ENTRY_BYTES of a family's decoder cache, 0 where it holds none (R333, R360). -/
def State.decEntry (s : State) (t fam : Nat) : Nat :=
  (((s.imagesOf t).filter (fun m => family m.id == fam && m.decEntry != 0)).head?.map (fun m => m.decEntry)).getD 0
/-- ENTRY_BYTES, CAP and WINDOW_ENTRIES of a family's encoder cache. -/
def State.encCache (s : State) (t fam : Nat) : Option (Nat × Nat × Nat) :=
  ((s.imagesOf t).filter (fun m => family m.id == fam && m.encEntry != 0)).head?.map (fun m => (m.encEntry, m.encCap, m.encWin))

/-- A section: type, element count and bytes (R111). -/
abbrev Sect := Nat × Nat × List Byte

/-- Lay sections out from byte `off`, each on a 64-byte boundary: the entries and the bytes (R110). -/
def layout (off : Nat) : List Sect → List Byte × List Byte
  | [] => ([], [])
  | (ty, n, d) :: l =>
    if d.isEmpty then
      let r := layout off l
      (record [(2, ty), (2, 0), (4, 0), (8, 0)] ++ r.1, r.2)
    else
      let r := layout (roundUp (off + d.length) 64) l
      (record [(2, ty), (2, n), (4, off), (8, d.length)] ++ r.1, d ++ zeros (roundUp d.length 64 - d.length) ++ r.2)

/-- The pages of a committed list in logical order, entries first (R111, R359). -/
def State.feltSection (s : State) (q : Slot) (entry : Nat) : Sect :=
  let l := q.committed.pages
  let ppp := if entry = 0 then 1 else feltPageBytes / entry
  let ents := (List.range l.length).flatMap (fun k =>
    let p := l.getD k 0
    let fill := min ppp (q.committed.dlen - k * ppp) * entry
    record [(2, k), (2, b2n (s.page p).shared), (4, fill), (8, 0)])
  (3, l.length, ents ++ l.flatMap (fun p => s.rdClean .felt (feltPageBytes * p) feltPageBytes))

/-- The sections of a slot's image (R111, R187, R198, R359). -/
def State.sections (s : State) (i : Nat) (x : Export) : List Sect :=
  let q := s.slot i
  let t := s.tenancyOf i
  let resume := s.chunkFirst q (q.limit.getD 0)
  let old := max x.oldest (resume - 40960)
  let rstate := match q.home with
    | some a => s.rdClean .sram (sramAt a.core (a.off + 64 + a.feat + q.cur * a.bank)) a.bank
    | none => []
  let kw := match q.listen with
    | some a => s.rdClean .sram (sramAt a.core (a.off + 64 + a.feat + q.cur * a.bank)) a.bank
    | none => []
  let enc := match q.home with
    | some a => if a.cacheLen = 0 then [] else
        record [(4, q.committed.head), (4, q.committed.fill), (4, a.cacheLen), (4, 0)] ++ s.rdClean .sram (sramAt a.core a.cacheOff) a.cacheLen
    | none => []
  let w := reelBytes q.par.format
  let n := resume - old
  let tail := record [(8, old), (4, n), (1, q.par.channels), (1, reelFmt q.par.format)] ++ zeros 18 ++
    (List.range n).flatMap (fun k => (List.range q.par.channels).flatMap (fun c =>
      let y := s.reelRead q old (old + k) c
      if w = 2 then reelStore q.par.format y else toLe 4 y))
  let a := q.audio
  let l := a.clockAt resume
  let clock := record [(8, l.rho), (8, ofS 64 l.integ), (4, ofS 32 l.level), (4, if q.par.locked then ofS 32 l.err else 0),
                       (1, b2n (l.lock || q.par.locked))] ++ zeros 39
  let c := q.cnt
  let counters := record [(8, c.chunks), (8, c.misses), (8, c.late), (8, c.wakes), (4, c.promotions), (4, c.stale), (4, c.faults),
                          (4, c.skipped), (8, 0), (8, 0)]
  [(1, 0, rstate), (2, 0, kw), s.feltSection q (s.decEntry t q.family), (4, 0, enc), (5, 0, tail), (6, 0, clock), (7, 0, counters)]

/-- The ranges of SRAM and felt that an image copies (R111, R568). -/
def State.imageRanges (s : State) (i : Nat) : List (Space × Nat × Nat) :=
  let q := s.slot i
  (match q.home with
    | some a => [(.sram, sramAt a.core (a.off + 64 + a.feat + q.cur * a.bank), a.bank), (.sram, sramAt a.core a.cacheOff, a.cacheLen)]
    | none => []) ++
  (match q.listen with
    | some a => [(.sram, sramAt a.core (a.off + 64 + a.feat + q.cur * a.bank), a.bank)]
    | none => []) ++
  q.committed.pages.map (fun p => (.felt, feltPageBytes * p, feltPageBytes))

/-- TIME_QUALITY (R110). -/
def State.timeQuality (s : State) : Nat :=
  let st := s.get HT_STAT_STATE
  if st = htLOCKED then 0 else if st = htACQUIRE then 1 else if st = htHOLDOVER then 2 else 3

/-- The image of a slot (R110): header and body. A held promotion that no WAKE asked for carries RESUME_SAMPLE as its s_w (assumption 55). Where a word it copies is uncorrectable its CRC does not match (R568). -/
def State.imageOf (s : State) (i : Nat) (x : Export) : List Byte :=
  let q := s.slot i
  let p := q.par
  let k := q.limit.getD 0
  let lay := layout 256 (s.sections i x)
  let flags := s.timeQuality + 4 * b2n q.full + 8 * b2n p.portFed + 16 * b2n p.locked + 32 * b2n q.catchup.isSome +
    64 * b2n p.autoPromote + 128 * b2n p.autoDemote
  let wake := if q.held then q.wake.getD (s.chunkFirst q k) else if q.catchup.isSome then q.wake.getD (two 64 - 1) else two 64 - 1
  let head := record [(4, 0x4D495453), (2, 1), (2, 0x100), (8, 256 + lay.2.length), (4, 0), (4, flags), (4, Config.device),
    (1, s.tenancyOf i), (1, 0), (2, i), (4, s.periodNs), (1, p.chunk), (1, p.headway), (1, p.channels), (1, p.format), (4, p.rate),
    (2, p.listenClass), (2, p.transClass), (8, x.tick), (8, s.chunkFirst q k), (8, p.anchor), (8, k), (4, x.epoch),
    (4, 256 * q.family), (8, wake), (8, (q.catchup.getD (0, 0)).1), (8, (q.catchup.getD (0, 0)).2), (2, p.preroll), (1, p.rb),
    (1, p.listenH), (4, 0), (8, p.userTag)] ++ lay.1 ++ zeros 16
  let img := head ++ lay.2
  let bad := (s.imageRanges i).any (fun r => s.poisoned r.1 r.2.1 r.2.2)
  patch img 0x10 (toLe 4 (if bad then two 32 - 1 - crc32 img else crc32 img))

/-- The EXPORT that a command makes of its slot, as it stands. -/
def State.exportOf (s : State) (c : StreamCmd) : Export :=
  { ring := c.ring, idx := c.idx, tick := c.tick, addr := c.addr, len := c.len, dev := bit c.flags 2, irq := false,
    epoch := 0, oldEpoch := 0, oldest := (s.slot c.slot).audio.oldest }

/-- Bytes of the image that an EXPORT would write as its slot stands (R110, R111). -/
def State.imageLen (s : State) (i : Nat) (x : Export) : Nat :=
  256 + (layout 256 ((s.modSlot i (fun q => { q with exp := some x })).sections i x)).2.length

/-- The buffer of an EXPORT holds the image as its slot stands, within the window where it lies there (R84, R109). -/
def State.bufferOk (s : State) (i : Nat) (x : Export) : Bool :=
  s.imageLen i x ≤ x.len && !(x.dev && (x.addr % 64 != 0 || s.imgSize (s.owner .ring x.ring) < x.addr + x.len))

/-- The own check of EXPORT (R84, R109), made when the command is observed and again at T; it waits for T where the stream's image has still
to be loaded (assumption 55). -/
def State.exportCheck (s : State) (c : StreamCmd) : Nat :=
  if s.unread c || (s.onGrid c && s.bufferOk c.slot (s.exportOf c)) then 0 else cBAD_PARAM

/-- EXPORT (R107). -/
def execExportStream (dt : Nat) (ring : Fin 512) (desc : List Byte) (s : State) : Out :=
  s.done ((s.elapse dt).observe ring opEXPORT desc State.exportCheck State.await)

/-- An EXPORT ends and the token passes to the owning host ring (R107 step 4). -/
def State.endExport (s : State) (i : Nat) : State :=
  (s.modSlot i (fun q => { q.prune (fun c => c.status.isNone) with exp := none, next := max q.next (q.limit.getD 0) })).pass i .parked .ring

/-- The image is written, header last, and the EXPORT completes (R107 steps 3 and 4), with VALUE 0 where a word was uncorrectable (R568). An
image that the last chunks have made too long for its buffer is not written: the command is refused with BAD_PARAM (R84, assumption 55). -/
def State.writeImage (s : State) (i : Nat) (x : Export) : State :=
  let t := s.tenancyOf i
  if !s.bufferOk i x then (s.endExport i).cmdRefuse x.ring x.idx i cBAD_PARAM (b2n x.irq)
  else
    let resume := s.chunkFirst (s.slot i) ((s.slot i).limit.getD 0)
    let old := max x.oldest (resume - 40960)
    let s := s.countReads i old old (resume - old)
    let img := s.imageOf i x
    let ranges := s.imageRanges i
    let bad := ranges.any (fun r => s.poisoned r.1 r.2.1 r.2.2)
    let s := ranges.foldl (fun (u : State) r =>
      (u.demand r.1 r.2.1 r.2.2).meet r.1 r.2.1 r.2.2 { action := acEXPORT_FAILED, slot := i, source := srEXPORT }) s
    let s := if x.dev then s.wr .dram (s.imgBase t + x.addr) img
      else (s.storeData (s.owner .ring x.ring) .image (x.addr + 256) (img.drop 256) .none).storeData (s.owner .ring x.ring) .image x.addr (img.take 256) .none
    let s := s.endExport i
    let s := s.writeBack x.ring x.idx (if bad then 0 else img.length) s.cnt (s.slot i).epoch 0 x.irq
    (s.bump STR_EXPORTS t).raise STR_INT_STAT_EXPORT_DONE t

/-- EXPORT_IMAGE_WRITE (R107): once every chunk that ends before the export tick has ended. -/
def execExportImageWrite (dt : Nat) (slot : Fin 8192) (s : State) : Out :=
  let t := s.elapse dt
  let q := t.slot slot
  s.done (match q.exp with
    | some x =>
      let u := t.ensure slot ((q.limit.getD 0) - 1)
      if (u.slot slot).chunks.any (fun c => c.status.isNone) then t else u.writeImage slot x
    | none => t)

/-! ## IMPORT -/

/-- The rings an IMPORT descriptor names (R144), and its port. -/
def importParams (d : List Byte) : Params :=
  { portFed := bit (le d 1 1) 1, submitRing := le d 0x1C 2, completeRing := le d 0x1E 2, eventRing := le d 0x20 2, port := le d 0x22 1 }

/-- The rate, format and channels a port delivers to a slot whose image has not been loaded: every channel from the descriptor's group on, so
that none is lost (R114, R209). -/
def State.portGives (s : State) (p : Params) : Params :=
  if !p.portFed then p
  else
    let x := p.port % 16
    { p with rate := s.portRate x, format := s.portFormat x, channels := max 1 (s.portM x - p.port / 16 % 8) }

/-- An IMPORT is accepted: the slot is PARKED at once, with the token at the migration engine (R112 step 1); its activation waits for T. -/
def State.acceptImport (s : State) (c : StreamCmd) (p : Params) : State :=
  let t := s.owner .ring c.ring
  let x : Import := { ring := c.ring, idx := c.idx, tick := c.tick, addr := c.addr, len := c.len, dev := bit c.flags 2, irq := bit c.flags 0 }
  (((s.bump STR_ADMITS t).modSlot c.slot (fun q => { q with par := s.portGives p, cmdRing := c.ring, imp := some x })).pass c.slot .parked .engine).await c

/-- IMPORT (R112); its acceptance and a refusal pass the token twice in the tick (R92). -/
def execImportStream (dt : Nat) (ring : Fin 512) (desc : List Byte) (s : State) : Out :=
  s.done ((s.elapse dt).observe ring opIMPORT desc (fun t c => if (t.slot c.slot).passes ≤ 2 then 0 else cBAD_STATE)
    (fun t c => t.acceptImport c (importParams desc)))

/-- An IMPORT accepted earlier is refused: the slot is FREE at this instant (R82, R113). -/
def State.refuseImport (s : State) (i code : Nat) (x : Import) : State :=
  let s := s.freeSlot i
  s.cmdRefuse x.ring x.idx i code (b2n x.irq)

/-- An image's section entry: type, count, offset, length (R110). -/
def sectionAt (b : List Byte) (j : Nat) : Nat × Nat × Nat × Nat :=
  (le b (0x80 + 16 * j) 2, le b (0x82 + 16 * j) 2, le b (0x84 + 16 * j) 4, le b (0x88 + 16 * j) 8)
def sectBytes (b : List Byte) (j : Nat) : List Byte := slice b (sectionAt b j).2.2.1 (sectionAt b j).2.2.2

/-- The section entries are well formed (R113). -/
def entriesOk (b : List Byte) (len : Nat) : Bool :=
  (List.range 7).all (fun j =>
    let e := sectionAt b j
    e.1 == j + 1 && (if e.2.2.2 = 0 then e.2.1 == 0 && e.2.2.1 == 0
      else e.2.2.1 % 64 == 0 && 256 ≤ e.2.2.1 && e.2.2.1 + e.2.2.2 ≤ len && (j = 2 || e.2.1 == 0)))

/-- Header and sections pass the format checks of R113 for an image of `len` bytes. -/
def imageFormatOk (b : List Byte) (len : Nat) : Bool :=
  le b 0 4 == 0x4D495453 && le b 4 2 == 1 && le b 6 2 == 0x100 && le b 8 8 == len && len % 64 == 0 && 256 ≤ len &&
  crcOk (fit len b) 0x10 && entriesOk b len

/-- The FELT_PAGES section agrees with the family's decoder cache (R360). -/
def feltOk (b : List Byte) (entry : Nat) : Bool :=
  let n := (sectionAt b 2).2.1
  let d := sectBytes b 2
  let full := if entry = 0 then 0 else feltPageBytes / entry * entry
  (sectionAt b 2).2.2.2 == 0 ||
  (n ≤ 64 && (n == 0 || entry != 0) && (sectionAt b 2).2.2.2 == n * (16 + feltPageBytes) &&
   (List.range n).all (fun k => le d (16 * k) 2 == k && (entry == 0 || le d (16 * k + 4) 4 % entry == 0) && le d (16 * k + 4) 4 ≤ full &&
     (k + 1 == n || le d (16 * k + 4) 4 == full)))

/-- The ENC_CACHE section agrees with the family's encoder cache (R360). -/
def encOk (b : List Byte) (c : Option (Nat × Nat × Nat)) : Bool :=
  let l := (sectionAt b 3).2.2.2
  let d := sectBytes b 3
  l == 0 || (match c with
    | none => false
    | some (e, cap, win) =>
      le d 8 4 == cap * e && e != 0 && le d 0 4 % e == 0 && le d 4 4 % e == 0 && le d 0 4 < le d 8 4 && le d 4 4 ≤ win * e && l == 16 + cap * e)

/-- A tick quantity converted to this part's period (R72), where it is whole. -/
def State.convTick (s : State) (from_ v : Nat) : Option Nat :=
  if v * from_ % s.periodNs = 0 then some (v * from_ / s.periodNs) else none

/-- The parameters an image gives the importing slot, with converted tick quantities (R72); none where the conversion fails. -/
def State.importedParams (s : State) (b : List Byte) (p : Params) : Option Params :=
  let per := le b 0x20 4
  let fl := le b 0x14 4
  match s.convTick per (le b 0x24 1), s.convTick per (le b 0x25 1), s.convTick per (le b 0x73 1), s.convTick per (le b 0x40 8), s.convTick per (le b 0x30 8) with
  | some c, some h, some lh, some a, some _ =>
    if (c = 1 || c = 2 || c = 4 || c = 8) && 1 ≤ h && h ≤ 8 && 1 ≤ lh && lh ≤ 8 then
      some { p with locked := bit fl 4, transcribe := bit fl 2, autoPromote := bit fl 6, autoDemote := bit fl 7, chunk := c, headway := h,
                    channels := le b 0x26 1, format := le b 0x27 1, rate := le b 0x28 4, listenClass := le b 0x2C 2, transClass := le b 0x2E 2,
                    anchor := a, listenH := lh, preroll := le b 0x70 2, rb := le b 0x72 1, userTag := le b 0x78 8 }
    else none
  | _, _, _, _, _ => none

/-- Pages the tenancy may still allocate (R339). -/
def State.feltRoom (s : State) (t : Nat) : Nat := min (feltPages - s.feltIn 1 - s.feltIn 2) (s.get FELT_QUOTA t - s.feltUsed t)

/-- The first test of R113 an image fails, with whether its header had passed by then (R112 step 3) and the parameters it gives; code 0
for none. Sections and resources are tested after the header. -/
def State.importCheck (s : State) (t : Nat) (x : Import) (b : List Byte) (p : Params) : Nat × Bool × Params :=
  let fam := le b 0x54 4 / 256
  if !imageFormatOk b x.len then (cIMPORT_FORMAT, false, p)
  else if s.classFamily t (le b 0x2C 2) 1 ≠ some fam || (le b 0x2E 2 ≠ 0xFFFF && s.classFamily t (le b 0x2E 2) 0 ≠ some fam) then (cIMPORT_PROGRAM, false, p)
  else if !s.served t (le b 0x2C 2) 1 || (le b 0x2E 2 ≠ 0xFFFF && !s.served t (le b 0x2E 2) 0) then (cNO_CLASS, false, p)
  else match s.importedParams b p with
    | none => (cIMPORT_PERIOD, false, p)
    | some n =>
      if !s.ringsOk t n || (n.portFed && !s.portOk t n) then (cBAD_PARAM, false, p)
      else if n.portH1 then (cPORT_H1, false, p)
      else if !feltOk b (s.decEntry t fam) || !encOk b (s.encCache t fam) then (cIMPORT_FORMAT, true, p)
      else if (s.homeFor t n).isNone || (s.listenFor t n).isNone then (cNO_SRAM, true, p)
      else if (s.allocReel (reelBlocks n.format n.channels)).isNone then (cNO_REEL, true, p)
      else if s.feltRoom t < (sectionAt b 2).2.1 then (cFELT_FULL, true, p)
      else if s.tickAt x.tick ≤ s.cnt || x.tick * s.periodNs < le b 0x30 8 * le b 0x20 4 then (cLATE, true, p)
      else (0, true, n)

/-- Load the felt pages of an image into the committed list (R360). -/
def State.loadFelt (s : State) (i t : Nat) (b : List Byte) (entry : Nat) : State :=
  let n := (sectionAt b 2).2.1
  let d := sectBytes b 2
  let fill := ((List.range n).map (fun k => le d (16 * k + 4) 4)).foldl (· + ·) 0
  let s := (List.range n).foldl (fun u k =>
    match u.allocPage t with
    | (v, some pg) =>
      let v := v.wr .felt (feltPageBytes * pg) (slice d (16 * n + feltPageBytes * k) feltPageBytes)
      v.modSlot i (fun q =>
        let a := { q.bankA with pages := q.bankA.pages ++ [pg] }
        { q with bankA := a })
    | (v, none) => v) s
  s.modSlot i (fun q =>
    let a := { q.bankA with dlen := if entry = 0 then 0 else fill / entry }
    { q with bankA := a })

/-- Write the samples of REEL_TAIL into the new allocation (R200). -/
def State.loadReel (s : State) (i : Nat) (b : List Byte) (resume : Nat) : State :=
  let d := sectBytes b 4
  let q := s.slot i
  let w := reelBytes q.par.format * q.par.channels
  let old := le d 0 8
  let s := (List.range (le d 8 4)).foldl (fun u k => u.wr .dram (u.reelAt q (old + k) 0) (slice d (32 + k * w) w)) s
  s.modAudio i (fun a => { a with oldest := if d.isEmpty then resume else old, nextRec := resume })

/-- The state of an image is loaded (R112 step 2, R187, R360). -/
def State.loadImage (s : State) (i t : Nat) (b : List Byte) (p : Params) : State :=
  let fam := le b 0x54 4 / 256
  let s := ((s.modSlot i (fun q => { q with par := p, cur := 0 })).reserve i t p).modSlot i (fun q => { q with family := fam })
  let q := s.slot i
  let s := match q.home with
    | some a =>
      let at_ := sramAt a.core (a.off + 64 + a.feat)
      let r := fit a.bank (sectBytes b 0)
      let s := (s.wr .sram at_ r).wr .sram (at_ + a.bank) r
      if (sectionAt b 3).2.2.2 = 0 then s else s.wr .sram (sramAt a.core a.cacheOff) ((sectBytes b 3).drop 16)
    | none => s
  let s := match q.listen with
    | some a =>
      let at_ := sramAt a.core (a.off + 64 + a.feat)
      let r := fit a.bank (sectBytes b 1)
      (s.wr .sram at_ r).wr .sram (at_ + a.bank) r
    | none => s
  let e := sectBytes b 3
  let s := (s.loadFelt i t b (s.decEntry t fam)).modSlot i (fun q =>
    let x := { q.bankA with head := le e 0 4, fill := le e 4 4 }
    let y := { q.bankB with head := le e 0 4, fill := le e 4 4 }
    { q with bankA := x, bankB := y })
  let s := (s.beginProcessing i (le b 0x38 8)).loadReel i b (le b 0x38 8)
  let c := sectBytes b 5
  let n := sectBytes b 6
  let r := rho0 p.rate
  let s := s.modAudio i (fun a => { a with
    corr := rneDiv (((le c 0 8 : Int) - r) * (corrUnit : Int)) r
    rho := le c 0 8, integ := toS 64 (le c 8 8), lag := toS 32 (le c 0x10 4), lock := le c 0x18 1 == 1 })
  s.modSlot i (fun q => { q with
    next := le b 0x48 8, full := bit (le b 0x14 4) 2,
    cnt := { chunks := le n 0 8, misses := le n 8 8, late := le n 0x10 8, wakes := le n 0x18 8, promotions := le n 0x20 4,
             stale := le n 0x24 4, faults := le n 0x28 4, skipped := le n 0x2C 4 } })

/-- Fetch and loading end (R112, R113): the epoch follows the image's once the header has passed. -/
def State.importLoaded (s : State) (i : Nat) (x : Import) (img : Option (List Byte)) : State :=
  let t := s.owner .ring x.ring
  let outside := x.dev && (x.addr % 64 != 0 || s.imgSize t < x.addr + x.len)
  let src := if x.dev then (if outside then none else some (s.rdBytes .dram (s.imgBase t + x.addr) x.len)) else img
  match src with
  | none => s.refuseImport i cIMPORT_FORMAT x
  | some b =>
    let r := s.importCheck t x b (s.slot i).par
    let s := s.onlyIf r.2.1 (fun u => u.modSlot i (fun q => { q with epoch := (le b 0x50 4 + 1) % two 32 }))
    if r.1 ≠ 0 then s.refuseImport i r.1 x
    else
      let per := le b 0x20 4
      let catch_ := if bit (le b 0x14 4) 5 then some (ceilDiv (le b 0x60 8 * per) s.periodNs, le b 0x68 8) else none
      let wake := if le b 0x58 8 = two 64 - 1 then none else some (le b 0x58 8)
      (s.loadImage i t b r.2.2).modSlot i (fun q => { q with
        imp := some { x with loaded := true, trans := bit (le b 0x14 4) 2, catchup := catch_, wake := wake } })

/-- IMPORT_LOADED (R112, R113, R153). -/
def execImportLoaded (dt : Nat) (slot : Fin 8192) (img : Option (List Byte)) (s : State) : Out :=
  let t := s.elapse dt
  s.done (match (t.slot slot).imp with
    | some x => if x.loaded || (!x.dev && !t.mayRequest (t.owner .ring x.ring)) then t else t.importLoaded slot x img
    | none => t)

/-- IMPORT activation at the boundary of tick m (R112 step 4, R512); the keyword state is zero where it enters LISTEN (R97). -/
def State.activate (s : State) (i : Nat) (x : Import) : State :=
  let q := s.slot i
  let t := s.tenancyOf i
  let hold := x.trans && s.siding
  let sw := match x.catchup with
    | some c => s.chunkFirst q c.2 + q.par.preroll * 16
    | none => x.wake.getD (s.chunkFirst q ((x.tick - q.par.anchor) / q.par.chunk))
  let full := x.trans && !hold
  let s := (s.pass i (if full then .transcribe else .listen) .scheduler).onlyIf (!full) (fun u => u.zeroKeyword i)
  let s := s.modSlot i (fun q => { q with
    imp := none, catchup := if hold then none else x.catchup, wake := if hold then some sw else x.wake, held := hold || (!x.trans && x.wake.isSome) })
  let s := s.writeBack x.ring x.idx 0 s.cnt (s.slot i).epoch 0 x.irq
  (s.bump STR_IMPORTS t).raise STR_INT_STAT_IMPORT_DONE t

/-- The IMPORT of slot i at the boundary of its activation tick m (R112, R113). -/
def State.activateDue (s : State) (i : Nat) (x : Import) : State :=
  if x.loaded then s.activate i x else s.refuseImport i cLATE x

/-! ## Registers (R109, R125) -/

/-- A window write is taken only while no EXPORT or IMPORT of the tenancy is in progress, and where the window ends within the
capacity the part reports (R109). -/
def State.imgWindow (s : State) (t off value : Nat) : State :=
  let busy := s.slots.any (fun e => s.inRange t e.1 && (e.2.exp.isSome || e.2.imp.isSome)) ||
    s.cmds.any (fun c => c.op == opEXPORT && s.inRange t c.slot)
  let f := if off = 0x140 then STR_IMG_BASE_LO else if off = 0x144 then STR_IMG_BASE_HI else STR_IMG_SIZE
  let u := s.set f (value / two f.lo) t
  if s.sameWord .str t off value then s
  else if busy || (u.imgSize t != 0 && Config.dramMib * two 20 < u.imgBase t + u.imgSize t) then s.raise STR_INT_STAT_RANGE_REFUSED t
  else u

/-- STR_IMG_WINDOW_WRITE (R109): tenancy 0 only. -/
def execStrImgWindowWrite (dt : Nat) (p : Party) (t : Fin 64) (off value : Nat) (s : State) : Out :=
  s.done ((s.elapse dt).access p .str t .fn0
    (fun u => if off = 0x140 || off = 0x144 || off = 0x148 then u.imgWindow t off value else u) (some (off, value)))

/-- Codes of STR_VIEW_STATE (R125). -/
def SlotState.code : SlotState → Nat
  | .free => 0 | .admitted => 1 | .listen => 2 | .transcribe => 3 | .draining => 4 | .parked => 5 | .faulted => 6
def Holder.code : Holder → Nat
  | .scheduler => 0 | .ring => 1 | .engine => 2 | .signalBox => 3

/-- The next chunk number: the first chunk that has not joined a tick's runs. -/
def Slot.nextChunk (q : Slot) : Nat :=
  match q.chunks.find? (fun c => c.isOpen && !c.replay) with
  | some c => c.k
  | none => q.next

/-- STR_VIEW_STATE of a slot (R125). -/
def Slot.word (q : Slot) : Nat :=
  (q.tearing.getD q.state).code + 8 * q.holder.code + 32 * q.cur + 64 * b2n q.held + 128 * b2n q.catchup.isSome + 256 * q.fault

/-- STR_VIEW_STATE and what it latches (R125). -/
def State.viewSlot (s : State) (p : Party) (t : Nat) : State :=
  let i := s.get STR_SEL t
  if !s.inRange t i then
    ((((s.latch p STR_VIEW_EPOCH 0 t).latch p STR_VIEW_NEXT_LO 0 t).latch p STR_VIEW_NEXT_HI 0 t).latch p STR_VIEW_MISS 0 t).returns (two 31)
  else
    let q := s.slot i
    let s := s.latch p STR_VIEW_EPOCH q.epoch t
    let s := s.latch p STR_VIEW_NEXT_LO q.nextChunk t
    let s := s.latch p STR_VIEW_NEXT_HI (q.nextChunk / two 32) t
    let s := s.latch p STR_VIEW_MISS (min q.cnt.misses (two 32 - 1)) t
    s.returns q.word

/-- STR_VIEW_STATE_READ (R125). -/
def execStrViewStateRead (dt : Nat) (p : Party) (t : Fin 64) (s : State) : Out :=
  s.done ((s.elapse dt).reading p .str t (fun u => u.viewSlot p t))

end Sys2Proof.Machine
end

