-- ==== Sys2Proof/Machine/StreamTick.lean ====
section
/-! DEFINITION. Machine/StreamTick.lean: stream commands at their boundary, the ends of drains, and forced teardown (R82, R85, R91, R92, R104,
R106, R115 to R118). -/
namespace Sys2Proof.Machine

/-- The command is done with a status that is no refusal (R116, R145). -/
def State.finishCmd (s : State) (c : StreamCmd) (status : Nat) : State := s.cmdDone c.ring c.idx c.slot 0 status c.flags

/-- A STOP of the same slot and tick, observed after the START `c`, that still waits (R116). -/
def laterStop (c : StreamCmd) (rest : List StreamCmd) : Bool :=
  rest.any (fun d => d.op == opSTOP && d.slot == c.slot && d.tick == c.tick)

/-- RELEASE or RESUME moves a slot on while an EXPORT writes it or an IMPORT fills it: what the engine still had to write is stale, and its
command is done with STALE_EPOCH (R82, R91; assumption 55). -/
def State.endMove (s : State) (i : Nat) : State :=
  let q := s.slot i
  let cut := fun (u : State) (ring idx : Nat) (irq : Bool) => (u.stale i).writeBack ring idx 0 u.cnt (u.slot i).epoch cSTALE_EPOCH irq
  let s := match q.exp with
    | some x => cut s x.ring x.idx x.irq
    | none => s
  let s := match q.imp with
    | some x => cut s x.ring x.idx x.irq
    | none => s
  s.modSlot i (fun q => { q with exp := none, imp := none, chunks := q.chunks.filter (fun c => c.status.isSome) })

/-- ADMIT at T (R82, R87): the slot takes what was reserved. A slot that has left the tenancy's range is out of range (R83, R122). -/
def State.admitDue (s : State) (c : StreamCmd) : State :=
  if !s.inRange (s.owner .ring c.ring) c.slot then s.refuseCmd c cOUT_OF_RANGE
  else if (s.slot c.slot).state != .free then s.refuseCmd c cBAD_STATE
  else ((s.modSlot c.slot (fun q => { q.give c.res with par := c.par, cmdRing := c.ring })).pass c.slot .admitted .ring).finishCmd c 0

/-- START at T (R103, R116); `stop` says that a STOP of the same tick was observed after it. -/
def State.startDue (s : State) (m : Nat) (c : StreamCmd) (stop : Bool) : State :=
  let q := s.slot c.slot
  if stop then (s.bump STR_START_CANCELLED (s.tenancyOf c.slot)).finishCmd c cCANCELLED
  else (s.runFrom c.slot m q.par.transcribe (s.chunkFirst q 0)).finishCmd c 0

/-- RESUME at T (R84, R108, R512). -/
def State.resumeDue (s : State) (m : Nat) (c : StreamCmd) : State :=
  if !s.onGrid c then s.refuseCmd c cBAD_PARAM
  else
    let s := s.endMove c.slot
    let q := s.slot c.slot
    (s.runFrom c.slot m q.full (s.chunkFirst q ((m - q.par.anchor) / q.par.chunk))).finishCmd c 0

/-- RESTART at T (R103). -/
def State.restartDue (s : State) (c : StreamCmd) : State :=
  ((s.modSlot c.slot (fun q => { q with chunks := q.chunks.filter (fun c => c.status.isSome) })).pass c.slot .admitted .ring).finishCmd c 0

/-- EXPORT at T (R84, R107): its own check again, on the slot as the earlier commands leave it; the image's end passes the token once more. -/
def State.exportDue (s : State) (c : StreamCmd) : State :=
  let code := s.exportCheck c
  if code ≠ 0 then s.refuseCmd c code else s.park c.slot c

/-- IMPORT at T (R112): nothing is left to do where it has been refused or ended. -/
def State.importDue (s : State) (c : StreamCmd) : State :=
  match (s.slot c.slot).imp with
  | some x => if x.ring = c.ring && x.idx = c.idx then s.activateDue c.slot x else s
  | none => s

/-- One command takes effect at the boundary of tick m, checked against the state the earlier ones left (R82, R85, R92, R116, R118). `stop`:
a STOP of the same slot and tick was observed after it; `won`: it is a STOP whose START it has cancelled. -/
def State.applyCmd (s : State) (m : Nat) (c : StreamCmd) (stop won : Bool) : State :=
  let q := s.slot c.slot
  let bad := s.refuseCmd c cBAD_STATE
  let st := q.state
  if c.op = opADMIT then (if q.mayPass then s.admitDue c else bad)
  else if c.op = opSTART then (if st == .admitted && (stop || q.mayPass) then s.startDue m c stop else bad)
  else if c.op = opSTOP then
    if won then s.finishCmd c 0
    else if st == .admitted || st == .draining then (s.bump STR_STOP_NOOP (s.tenancyOf c.slot)).finishCmd c cNOOP
    else if (st == .listen || st == .transcribe) && q.mayPass then (s.stopAt c.slot m).finishCmd c 0
    else bad
  else if c.op = opPROMOTE then
    if st == .listen && q.mayPass then
      (if q.par.transClass = 0xFFFF then s.refuseCmd c cNO_CLASS else (s.promoteDue c.slot m).finishCmd c 0)
    else bad
  else if c.op = opDEMOTE then (if st == .transcribe && q.mayPass then (s.demote c.slot m).finishCmd c 0 else bad)
  else if c.op = opEXPORT then (if (st == .listen || st == .transcribe) && q.passes ≤ 2 then s.exportDue c else bad)
  else if c.op = opIMPORT then s.importDue c
  else if c.op = opRESUME then (if st == .parked && q.mayPass then s.resumeDue m c else bad)
  else if c.op = opRESTART then (if st == .faulted && q.mayPass then s.restartDue c else bad)
  else if (st == .admitted || st == .faulted || st == .parked) && q.mayPass then ((s.endMove c.slot).freeSlot c.slot).finishCmd c 0
  else bad

/-- A command whose tick a step passed over, or that lies in STANDBY, is refused with LATE (R44, R124); an IMPORT is refused as R113 has it. -/
def State.lateCmd (s : State) (c : StreamCmd) : State :=
  if c.op = opIMPORT then
    (match (s.slot c.slot).imp with
      | some x => if x.ring = c.ring && x.idx = c.idx then s.refuseImport c.slot cLATE x else s
      | none => s)
  else s.refuseCmd c cLATE

/-- Commands that take effect at the boundary of tick m, in the order in which they were observed (R85); `won` are the slots whose START the
STOP still to come has cancelled (R116). -/
def State.applyCmdsGo (m : Nat) : List Nat → List StreamCmd → State → State
  | _, [], s => s
  | won, c :: l, s =>
    if c.tick < m || s.standby then State.applyCmdsGo m won l (s.lateCmd c)
    else
      let stop := laterStop c l
      let cancels := c.op == opSTART && stop && (s.slot c.slot).state == .admitted
      let wins := c.op == opSTOP && won.contains c.slot
      State.applyCmdsGo m (if cancels then c.slot :: won else if wins then won.filter (fun i => i ≠ c.slot) else won) l (s.applyCmd m c stop wins)

/-- The stream commands of the boundary of tick m. -/
def State.applyCmds (s : State) (m : Nat) : State :=
  State.applyCmdsGo m [] (s.cmds.filter (fun c => c.tick ≤ m)) { s with cmds := s.cmds.filter (fun c => m < c.tick) }

/-- The write-backs of START and STOP carry the slot's epoch after the boundary (R116): those of `due` are completed once every slot has
been stepped. -/
def State.lateEpochs (s : State) (due : List StreamCmd) : State :=
  (due.filter (fun c => c.op == opSTART || c.op == opSTOP)).foldl (fun (u : State) c =>
    let at_ := u.descAddr c.ring c.idx + 0x28
    let done := fun (x : Store) => x.kind == .writeBack && x.addr == at_ && [0, cCANCELLED, cNOOP].contains (le x.data 20 1)
    { u with stores := u.stores.map (fun x => if done x then { x with data := patch x.data 16 (toLe 4 (u.slot c.slot).epoch) } else x) }) s

/-- A drain whose last completion has been issued ends (R104). -/
def State.endDrain (s : State) (i m : Nat) : State :=
  let q := s.slot i
  let t := s.tenancyOf i
  if q.state == .draining && q.drained then
    let s := (s.pass i .admitted .ring).event i 6 m 0 0 (q.finalChunk.getD 0)
    (s.raise STR_INT_STAT_DRAIN_DONE t).modSlot i (fun q => { q with drained := false, stopTick := none, finalChunk := none })
  else s

/-- The header of an EXPORT's image, in a buffer whose EXPORT a teardown ends: its CRC does not match (R106, R117). -/
def State.badHeader (s : State) (i ring addr : Nat) (dev : Bool) : State :=
  if dev then s.wr .dram (s.imgBase (s.tenancyOf i) + addr) (zeros 256) else s.storeData (s.owner .ring ring) .image addr (zeros 256) .none

/-- A command of the slot is still in flight at a teardown: it is stale, and an EXPORT due at the boundary leaves a bad header (R91, R106,
R117). An IMPORT ends with the slot's own record of it. -/
def State.tornCmd (m : Nat) (s : State) (c : StreamCmd) : State :=
  if c.op = opIMPORT then s
  else
    let s := s.onlyIf (c.op == opEXPORT && c.tick ≤ m) (fun u => u.badHeader c.slot c.ring c.addr (bit c.flags 2))
    (s.stale c.slot).finishCmd c cTORN_DOWN

/-- The EXPORT and the IMPORT of a slot end at a teardown with TORN_DOWN; what their engine had still to write is stale (R91, R106, R117). -/
def State.tornMove (s : State) (i : Nat) : State :=
  let s := match (s.slot i).exp with
    | some x => ((s.badHeader i x.ring x.addr x.dev).stale i).writeBack x.ring x.idx 0 s.cnt (s.slot i).epoch cTORN_DOWN x.irq
    | none => s
  match (s.slot i).imp with
  | some x => (s.stale i).writeBack x.ring x.idx 0 s.cnt (s.slot i).epoch cTORN_DOWN x.irq
  | none => s

/-- A forced teardown takes effect at the boundary of tick m (R106, R117, R166). The rule names no code for an IMPORT in progress: it ends with
TORN_DOWN too (DEDUCED, assumption 55). A FREE slot loses only the commands that wait for it. -/
def State.tearDown (s : State) (i m : Nat) : State :=
  let q := s.slot i
  let gone := s.cmds.filter (fun c => c.slot == i)
  let drop := fun (u : State) => gone.foldl (State.tornCmd m) { u with cmds := u.cmds.filter (fun c => c.slot != i) }
  if q.state == .free then (drop s).modSlot i (fun q => { q with tearReq := false })
  else
    let s := (s.bump SB_TEARDOWNS).pass i q.state .signalBox
    let s := drop ((s.event i 7 m 0 0 0).tornMove i)
    let s := s.endChunks i stTORN (fun c => c.joined.isSome || c.status.isSome) true
    let s := { s with stores := s.stores.filterMap (Store.torn i) }
    let s := (s.dropLists i).loseBinds i
    s.modSlot i (fun u => { epoch := u.epoch, passes := u.passes, state := .admitted, holder := .signalBox, cmdRing := q.cmdRing, tearing := some q.state })

/-- The slot of a teardown is FREE at the boundary after it (R106 step 5). -/
def State.tornFree (s : State) (i : Nat) : State :=
  if (s.slot i).tearing.isSome then (s.freeSlot i).raise STR_INT_STAT_TEARDOWN (s.tenancyOf i) else s

end Sys2Proof.Machine
end

