-- ==== Sys2Proof/Machine/FrontEnd.lean ====
section
/-! DEFINITION. Machine/FrontEnd.lean: production of port-fed samples, beam binds and the reel area (R181, R190, R195 to R213). -/
namespace Sys2Proof.Machine

/-! ## Port-fed streams (R50, R181, R243) -/

/-- Every sample of a chunk is produced: its features are formed, and it is complete where no frame of it has made it so (R181, R243). -/
def State.chunkMade (s : State) (i : Nat) (c : Chunk) : State :=
  let q := s.slot i
  let at_ := c.complete.getD s.cnt
  let s := s.featureChunk i c.k true q.trans q.audio.oldest
  let s := s.modChunks i (fun x => x.same c) (fun x => { x with complete := some at_, made := true })
  s.awaitIntake i c at_ none

/-- The record of the live chunk that holds sample n. -/
def State.liveChunk (s : State) (i n : Nat) : Option Chunk :=
  let q := s.slot i
  match s.chunkOf q n with
  | some k => q.chunks.find? (fun c => c.k == k && !c.replay && c.status.isNone)
  | none => none

/-- The sample number at which a padded final chunk's padding begins, if its record has one. -/
def zeroOf (c : Option Chunk) : Option Nat := c.bind (fun c => c.zeroFrom)

/-- The last sample of the chunk that holds sample n. -/
def State.chunkEnd (s : State) (i n : Nat) : Nat :=
  match s.chunkOf (s.slot i) n with
  | some k => s.chunkLast (s.slot i) k
  | none => n

/-- The record of the chunk of sample n exists. -/
def State.ensureAt (s : State) (i n : Nat) : State :=
  match s.chunkOf (s.slot i) n with
  | some k => s.ensure i k
  | none => s

/-- The chunk of the sample just produced is made, where that sample was its last. -/
def State.endMade (s : State) (i last : Nat) (c : Option Chunk) : State :=
  match c with
  | some c => if (s.slot i).audio.next = last + 1 && !c.made then s.chunkMade i c else s
  | none => s

/-- Sample n of the chunk `c` is produced, and with it the rest of the chunk where n is padding (R104). -/
def State.produceOne (s : State) (i n : Nat) (c : Option Chunk) : State :=
  let last := s.chunkEnd i n
  let s := if (zeroOf c).any (fun x => x ≤ n) then s.produceTo i last (zeroOf c) (last + 1 - n) else s.produce i (zeroOf c)
  s.endMade i last c

/-- One internal sample of a port-fed stream is produced; a padded final chunk is finished at once (R104, R181). -/
def State.producePort (s : State) (i : Nat) : State :=
  let n := (s.slot i).audio.next
  let s := s.ensureAt i n
  s.produceOne i n (s.liveChunk i n)

/-- SAMPLE_PRODUCTION (R181): sample n is produced once the counter has reached (n + 8) × 62,500. -/
def execSampleProduction (slot : Fin 8192) (s : State) : Out :=
  let q := s.slot slot
  s.done (if q.par.portFed && q.audio.active && !s.standby then
      (s.reach ((q.audio.next + 8) * 62500)).producePort slot else s)

/-- Frames that the port has dropped keep their numbers: their reference positions read as zero (R178, R226). Every other frame takes the next
number, wherever its stamp puts it (R175, R205). -/
def Audio.leaveGap (a : Audio) (lost : Nat) : Audio := if a.anchors.isEmpty then a else { a with nextFrame := a.nextFrame + lost }

/-- Frames are kept before processing begins while it could still accept them, but all that come while an image is loaded (R177, R209): no
boundary to come begins more than 32 samples after those of the newest 128 frames at 48 kHz. -/
def Audio.trimIdle (keep : Bool) (a : Audio) : Audio :=
  if a.active || keep then a
  else
    let fr := a.frames.filter (fun e => a.nextFrame ≤ e.1 + 128)
    { a with frames := fr, anchors := trimAnchors (a.nextFrame - 128) a.anchors, early := a.early + (a.frames.length - fr.length) }

/-- A frame of a port has reached a bound stream, the first of its block where `stamp` is given, after `lost` dropped ones: chunks whose last
sample it holds are complete now (R50, R175). -/
def State.portFrame (s : State) (i : Nat) (ys : List Nat) (stamp : Option Nat) (lost : Nat) : State :=
  let q := s.slot i
  let rate := q.par.rate
  let at_ := stamp.map (fun t => (t : Int) * (rate : Int))
  let s := s.modAudio i (fun a => ((a.leaveGap lost).append [ys] at_).trimIdle q.imp.isSome)
  match (s.slot i).audio.expected with
  | none => s
  | some e =>
    s.modChunks i (fun c => !c.replay && c.complete.isNone && c.status.isNone && decide (((s.chunkLast q c.k : Nat) : Int) * 62500 * (rate : Int) < e))
      (fun c => { c with complete := some s.cnt })

/-! ## Beam binds (R188 to R190) -/

def beamBAD_FORMAT : Nat := 1
def beamCOUNT : Nat := 2
def beamCHANNELS : Nat := 3
def beamNOT_FINITE : Nat := 4
def beamSLOT : Nat := 5
def beamBAD_TICK : Nat := 6
def beamBUSY : Nat := 7
def beamFETCH : Nat := 8
def beamWINDOW : Nat := 9

/-- A bind is refused (R190). -/
def State.beamRefuse (s : State) (t code : Nat) : State :=
  ((s.set FE_BEAM_STAT_CODE code t).bump FE_BEAM_REFUSED t).raise FE_INT_STAT_BEAM_REFUSED t

/-- The bind of a page is over. -/
def State.beamClear (s : State) (t : Nat) : State :=
  { (s.set FE_BEAM_STAT_STATE 0 t).set FE_STAT_BEAM_BUSY 0 t with binds := Map.del t s.binds }

/-- A tenancy's table window (R375), and whether bytes lie wholly within it. -/
def State.winBase (s : State) (t : Nat) : Nat := s.get GX_WIN_BASE_LO t * two 20 + s.get GX_WIN_BASE_HI t * two 32
def State.winSize (s : State) (t : Nat) : Nat := s.get GX_WIN_SIZE t * two 20
def State.inWindow (s : State) (t a n : Nat) : Bool := s.winBase t ≤ a && a + n ≤ s.winBase t + s.winSize t

/-- A bind of page t begins (R190). -/
def State.beginBind (s : State) (t : Nat) (b : Bind) : State :=
  { (s.set FE_BEAM_STAT_STATE 1 t).set FE_STAT_BEAM_BUSY 1 t with binds := Map.put t b s.binds }

/-- FE_BEAM_CMD.BIND (R190). An address whose bits [5:0] are not zero names no block: WINDOW for SPACE 1, else BAD_FORMAT (R757). -/
def State.bindBeam (s : State) (t : Nat) : State :=
  let dev := s.flag FE_BEAM_ADDR_HI_SPACE t
  let a := s.get FE_BEAM_ADDR_LO t + two 32 * s.get FE_BEAM_ADDR_HI_ADDR_HI t
  if (Map.find s.binds t).isSome then s.beamRefuse t beamBUSY
  else if a % 64 ≠ 0 then s.beamRefuse t beamBAD_FORMAT
  else s.beginBind t { slot := s.get FE_BEAM_SLOT t, addr := a, dev := dev, tick := s.get2 FE_BEAM_TICK_LO FE_BEAM_TICK_HI t }

/-- BEAM_BIND (R190). -/
def execBeamBind (dt : Nat) (p : Party) (t : Fin 64) (s : State) : Out :=
  s.done ((s.elapse dt).access p .fe t .page (fun u => u.bindBeam t))

/-- Bytes of a weight block with the header `b` (R189). -/
def beamLen (b : List Byte) : Nat := 0x10 + 4 * le b 6 1 * le b 7 1 * le b 8 1

/-- The slot may be bound (R190). -/
def State.bindable (s : State) (t i : Nat) : Bool :=
  let q := s.slot i
  s.inRange t i && q.tearing.isNone &&
  (q.state == .admitted || q.state == .listen || q.state == .transcribe || q.state == .parked)

/-- The slot a bind names may still be bound: it holds the stream it held (R190, R211). -/
def State.bindStands (s : State) (t : Nat) (b : Bind) : Bool := !b.gone && s.bindable t b.slot

/-- The first refusal of R190 a fetched block meets; 0 for none. -/
def State.beamCheck (s : State) (t : Nat) (b : Bind) (blk : Option (List Byte)) : Nat :=
  match blk with
  | none => beamFETCH
  | some d =>
    let q := s.slot b.slot
    let n := le d 6 1 * le d 7 1 * le d 8 1
    if le d 0 4 ≠ 0x4D494542 || le d 4 2 ≠ 1 || le d 8 1 = 0 || 16 < le d 8 1 || !crcOk (fit (beamLen d) d) 0xC then beamBAD_FORMAT
    else if !s.bindStands t b then beamSLOT
    else if le d 6 1 ≠ s.beams b.slot q.trans then beamCOUNT
    else if le d 7 1 ≠ q.par.channels then beamCHANNELS
    else if (List.range n).any (fun k => fp32.special (le d (0x10 + 4 * k) 4)) then beamNOT_FINITE
    else if b.tick < q.par.anchor || (b.tick - q.par.anchor) % q.par.chunk ≠ 0 || s.tickAt b.tick ≤ s.cnt then beamBAD_TICK
    else 0

/-- The copy of the block ends (R190): it lies in the weight bank not in use, or the bind is refused. -/
def State.beamFetched (s : State) (t : Nat) (b : Bind) (blk : Option (List Byte)) : State :=
  let src := if b.dev then some (s.rdBytes .dram b.addr (beamLen (s.rdBytes .dram b.addr 16))) else blk
  let code := if b.dev && !s.inWindow t b.addr (beamLen (src.getD [])) then beamWINDOW else s.beamCheck t b src
  if code ≠ 0 then (s.beamClear t).beamRefuse t code
  else
    let d := src.getD []
    let q := s.slot b.slot
    let s := s.wr .dram (s.bankAddr q (1 - q.audio.bank)) (fit (beamLen d) d)
    { s.set FE_BEAM_STAT_STATE 2 t with binds := Map.put t { b with ready := true } s.binds }

/-- BEAM_BLOCK_FETCHED (R153, R190): nothing happens where no block is being fetched. -/
def execBeamBlockFetched (dt : Nat) (t : Fin 64) (blk : Option (List Byte)) (s : State) : Out :=
  let u := s.elapse dt
  s.done (match Map.find u.binds t with
    | some b => if b.ready || (!b.dev && !u.mayRequest t) then u else u.beamFetched t b blk
    | none => u)

/-- The bind of page t at the boundary of tick m (R44, R190, R211). -/
def State.bindDue (s : State) (m t : Nat) (b : Bind) : State :=
  if m < b.tick then s
  else
    let s := s.beamClear t
    if b.tick < m then s.beamRefuse t beamBAD_TICK
    else if !s.bindStands t b then s.beamRefuse t beamSLOT
    else if !b.ready then s.beamRefuse t beamBAD_TICK
    else
      let q := s.slot b.slot
      let old := (s.chunkFirst q ((m - q.par.anchor) / q.par.chunk), s.weightsNow q)
      let s := s.modAudio b.slot (fun a => { a with bank := 1 - a.bank, bound := true, weights := (old :: a.weights).take 8 })
      (s.set FE_BEAM_STAT_CODE 0 t).raise FE_INT_STAT_BEAM_DONE t

/-- Every bind due at the boundary of tick m. -/
def State.bindsDue (s : State) (m : Nat) : State := s.binds.foldl (fun u e => u.bindDue m e.1 e.2) s

/-! ## The reel (R195, R197) -/

/-- OLDEST of every reel moves at a boundary (R197). -/
def State.ageReels (s : State) : State :=
  s.slots.foldl (fun u e => u.modAudio e.1 (fun a => { a with oldest := max a.oldest (a.nextRec - 40960) })) s

/-- A write of the reel area is taken only while every slot is FREE, and where the area ends within the reported capacity (R195). -/
def State.reelArea (s : State) (off value : Nat) : State :=
  let f := if off = 0x200 then FE_REEL_BASE_LO else if off = 0x204 then FE_REEL_BASE_HI else FE_REEL_SIZE
  let u := s.set f (value / two f.lo)
  let free := s.slots.all (fun e => e.2.state == .free)
  if s.sameWord .fe 0 off value then s
  else if !free || (u.get FE_REEL_SIZE != 0 && Config.dramMib * two 20 < u.reelBlock (u.get FE_REEL_SIZE)) then s.raise FE_INT_STAT_REEL_CFG_REFUSED
  else u

/-- REEL_AREA_WRITE (R195). -/
def execReelAreaWrite (dt : Nat) (p : Party) (off value : Nat) (s : State) : Out :=
  s.done ((s.elapse dt).access p .fe 0 .page (fun u => if off = 0x200 || off = 0x204 || off = 0x208 then u.reelArea off value else u))

/-- The reel records the slot's samples: in PARKED those a port feeds, and those of chunks that end before an export tick (R197). -/
def State.recording (s : State) (q : Slot) : Bool := s.records q && (q.state != .parked || (if q.par.portFed then q.audio.active else q.exp.isSome))

/-- The reel descriptor of a slot (R199). -/
def State.reelDescriptor (s : State) (q : Slot) : List Byte :=
  let a := q.audio
  if a.blocks = 0 then zeros 32
  else record [(4, a.baseBlock), (2, a.blocks), (1, q.par.channels), (1, reelFmt q.par.format), (8, a.oldest), (8, a.nextRec),
               (4, 1 + 2 * a.bank + 4 * b2n (s.recording q)), (4, 0)]

/-- FE_VIEW_CLK and what it latches (R213). -/
def State.viewClk (s : State) (p : Party) (t : Nat) : State :=
  let i := s.get FE_SEL t
  let ok := s.inRange t i
  let q := if ok then s.slot i else {}
  let a := q.audio
  let s := s.latch p FE_VIEW_RATIO_LO a.rho t
  let s := s.latch p FE_VIEW_RATIO_HI (a.rho / two 32) t
  let s := s.latch p FE_VIEW_LEVEL (ofS 32 a.level) t
  let s := s.latch p FE_VIEW_INTEG_LO (ofS 64 a.integ) t
  let s := s.latch p FE_VIEW_INTEG_HI (ofS 64 a.integ / two 32) t
  let s := s.latch p FE_VIEW_DRIFT (if q.par.locked then ofS 32 a.err else 0) t
  let d := s.reelDescriptor q
  let s := (List.range 8).foldl (fun u k => u.latch p FE_VIEW_REEL (le d (4 * k) 4) t k) s
  s.returns (if ok then b2n q.par.locked + 2 * b2n (a.lock || q.par.locked) + 4 * b2n a.slewing else two 31)

/-- FE_VIEW_CLK_READ (R213). -/
def execFeViewClkRead (dt : Nat) (p : Party) (t : Fin 64) (s : State) : Out :=
  s.done ((s.elapse dt).reading p .fe t (fun u => u.viewClk p t))

end Sys2Proof.Machine
end

