-- ==== Sys2Proof/Machine/PortOps.lean ====
section
/-! DEFINITION. Machine/PortOps.lean: the audio and IEC ports: grid, gates, blocks, channel status and commands (05_audio_ports.md,
R214 to R245). -/
namespace Sys2Proof.Machine

/-- A port: AP0 to AP7 are 0 to 7, IX0 and IX1 are 8 and 9. -/
def State.port (s : State) (p : Nat) : Port := Map.get s.ports p {}
def State.modPort (s : State) (p : Nat) (f : Port → Port) : State := { s with ports := Map.put p (f (s.port p)) s.ports }

/-- The same field of the two port pages: read, write, count, raise. -/
def State.pget (s : State) (p : Nat) (a i : Fld) : Nat := if p < 8 then s.get a p else s.get i (p - 8)
def State.pset (s : State) (p : Nat) (a i : Fld) (v : Nat) : State := if p < 8 then s.set a v p else s.set i v (p - 8)
def State.pset2 (s : State) (p : Nat) (a b i j : Fld) (v : Nat) : State := if p < 8 then s.set2 a b v p else s.set2 i j v (p - 8)
def State.pbump (s : State) (p : Nat) (a i : Fld) (n : Nat := 1) : State := if p < 8 then s.bump a p 0 n else s.bump i (p - 8) 0 n
def State.praise (s : State) (p : Nat) (a i : Fld) : State := if p < 8 then s.raise a p else s.raise i (p - 8)

/-- STAT.STATE codes (R227). -/
def ptSTOPPED : Nat := 0
def ptSTARTING : Nat := 1
def ptRUNNING : Nat := 2
def ptSTOPPING : Nat := 3
def ptSWITCHING : Nat := 4

def State.portState (s : State) (p : Nat) : Nat := s.pget p APT_STAT_STATE IXP_STAT_STATE
def State.setPortState (s : State) (p v : Nat) : State := s.pset p APT_STAT_STATE IXP_STAT_STATE v

/-! ## The master grid (R221) -/

/-- Start of grid frame k of TAI second S. -/
def gridAt (rate S k : Nat) : Nat := S * 1000000000 + k * 1000000000 / rate

/-- The last grid frame start at or before t, and the first at or after t. -/
def gridFloor (rate t : Nat) : Nat :=
  let S := t / 1000000000
  let k := (t % 1000000000 + 1) * rate / 1000000000
  let a := gridAt rate S k
  if a ≤ t then a else gridAt rate S (k - 1)
def gridCeil (rate t : Nat) : Nat :=
  let a := gridFloor rate t
  if a = t then t
  else
    let S := t / 1000000000
    let k := (a % 1000000000 * rate + 999999999) / 1000000000 + 1
    if k < rate then gridAt rate S k else (S + 1) * 1000000000

/-! ## Gates (R227 to R231) -/

/-- A gate is open: a channel that ramps passes samples. -/
def Gate.isOpen : Gate → Bool
  | .opened | .rampUp _ | .closing _ | .rampDown _ => true
  | .closed | .opening _ => false

/-- A gate at one frame: what it becomes, the factor in 64ths of the sample it passes, and whether a ramp begins. `x` is the
channel's sample and `prev` the sample before it, if that frame ran; a frame with no sample offers no crossing. -/
def Gate.step (timeout : Nat) (x prev : Option Int) : Gate → Gate × Nat × Bool
  | .closed => (.closed, 0, false)
  | .opened => (.opened, 64, false)
  | .rampUp j => (if j = 63 then .opened else .rampUp (j + 1), j + 1, false)
  | .rampDown j => (if j = 63 then .closed else .rampDown (j + 1), 63 - j, false)
  | .opening w =>
    if timeout ≤ w then (.rampUp 1, 1, true)
    else if crosses x prev then (.opened, 64, false) else (.opening (w + 1), 0, false)
  | .closing w =>
    if timeout ≤ w then (.rampDown 1, 63, true)
    else if crosses x prev then (.closed, 0, false) else (.closing (w + 1), 64, false)
where
  /-- A zero crossing (R229). -/
  crosses : Option Int → Option Int → Bool
    | some x, some y => x == 0 || decide (x * y < 0)
    | some x, none => x == 0
    | none, _ => false

/-- The sample a gate passes (R231). -/
def ramped (x : Int) (g : Nat) : Int := if g = 64 then x else rshift (x * (g : Int)) 6

/-- The gated channels (R227): the selected input channels and both channels of every output line. -/
def State.gated (s : State) (p : Nat) : List Nat :=
  if p < 8 then (List.range 8).filter (fun c => s.lineDir p (c / 2) == 2 || (s.lineDir p (c / 2) == 1 && bit (s.port p).mask c))
  else maskList (s.port p).mask 2

/-- A ramp is used (R230). -/
def State.zcRamp (s : State) (p : Nat) : State :=
  (s.pbump p APT_ZC_TIMEOUTS IXP_ZC_TIMEOUTS).praise p APT_INT_STAT_ZC_TIMEOUT IXP_INT_STAT_ZC_TIMEOUT

/-- One channel's gate acts at one frame; its sample passes through it. -/
def State.gateFrame (s : State) (p c : Nat) (x : Option Int) : State × Int :=
  let q := s.port p
  let r := ((q.gates.getD c .closed).step q.timeout x (q.prev.getD c none))
  let s := (s.modPort p (fun q => { q with gates := q.gates.set c r.1, prev := q.prev.set c x })).onlyIf r.2.2 (fun u => u.zcRamp p)
  (s, ramped (x.getD 0) r.2.1)

/-- The gates of several channels act at one frame. -/
def State.gateFrames (s : State) (p : Nat) (l : List (Nat × Option Int)) : State × List Int :=
  l.foldl (fun a cx => let r := a.1.gateFrame p cx.1 cx.2; (r.1, a.2 ++ [r.2])) (s, [])

/-- Gates that change with a command: every gated channel. -/
def State.mapGates (s : State) (p : Nat) (f : Gate → Gate) : State :=
  let l := s.gated p
  s.modPort p (fun q => { q with gates := (List.range 8).map (fun c => if l.contains c then f (q.gates.getD c .closed) else .closed) })

/-- The gates of some channels change. -/
def State.turnGates (s : State) (p : Nat) (l : List Nat) (f : Gate → Gate) : State :=
  s.modPort p (fun q => { q with gates := (List.range 8).map (fun c => if l.contains c then f (q.gates.getD c .closed) else q.gates.getD c .closed) })

/-- A gate at a START that takes effect (R230, R241), and at a STOP (R231). A channel that ramps is open. -/
def Gate.start : Gate → Gate
  | .closing _ | .rampDown _ => .opened
  | .closed => .opening 0
  | .opened => .opened
  | .opening w => .opening w
  | .rampUp j => .rampUp j
def Gate.stop : Gate → Gate
  | .opened | .rampUp _ => .closing 0
  | .opening _ | .closed => .closed
  | .closing w => .closing w
  | .rampDown j => .rampDown j

/-- Every gated channel is open; none is. -/
def State.allOpen (s : State) (p : Nat) : Bool := (s.gated p).all (fun c => ((s.port p).gates.getD c .closed).isOpen)
def State.allShut (s : State) (p : Nat) : Bool := (s.gated p).all (fun c => (s.port p).gates.getD c .closed == .closed)

/-- The channels of the output lines. -/
def State.outChannels (s : State) (p : Nat) : List Nat := if p < 8 then (List.range 8).filter (fun c => s.lineDir p (c / 2) == 2) else []

/-- What a command does to a gate. -/
def Gate.act (isStart : Bool) (g : Gate) : Gate := if isStart then g.start else g.stop

/-- Commands in effect act on the received channels with the frame that began at `start`: the effective frame is the first (R228, R231, R241). -/
def State.actGates (s : State) (p start : Nat) : State :=
  let due := (s.port p).acts.filter (fun a => a.1 ≤ start)
  let s := s.modPort p (fun q => { q with acts := q.acts.filter (fun a => start < a.1) })
  due.foldl (fun (u : State) a => (u.modPort p (fun q => { q with timeout := a.2.2 })).turnGates p (u.selected p (u.port p).mask) (Gate.act a.2.1)) s

/-- The port becomes STOPPED (R231). -/
def State.portStopped (s : State) (p : Nat) : State :=
  let s := (s.setPortState p ptSTOPPED).praise p APT_INT_STAT_STOPPED IXP_INT_STAT_STOPPED
  let s := s.onlyIf (decide (8 ≤ p)) (fun u => u.set IXP_STAT_TX_ACTIVE 0 (p - 8))
  s.modPort p (fun q => { q with gates := List.replicate 8 .closed, acts := [], prev := List.replicate 8 none, rx := [], outNo := [], frameNo := 0 })

/-- STARTING and RUNNING follow the gates; a port that is STOPPING with every gate closed stops where a frame `ends` (R230, R231). -/
def State.settlePort (s : State) (p : Nat) (ends : Bool) : State :=
  let st := s.portState p
  if st = ptSTARTING || st = ptRUNNING then s.setPortState p (if s.allOpen p then ptRUNNING else ptSTARTING)
  else if st = ptSTOPPING && ends && (s.port p).acts.isEmpty && s.allShut p then s.portStopped p
  else s

/-! ## Commands (R228, R241) -/

/-- A START or STOP is queued with its stamp (R228). -/
def State.queuePort (s : State) (p : Nat) (isStart : Bool) : State :=
  if 4 ≤ (s.port p).pend.length then s.praise p APT_INT_STAT_CMD_FULL IXP_INT_STAT_CMD_FULL
  else
    let at_ := s.pget p APT_CMD_AT_LO IXP_CMD_AT_LO + two 32 * s.pget p APT_CMD_AT_HI IXP_CMD_AT_HI
    s.modPort p (fun q => { q with seq := q.seq + 1, pend := q.pend ++ [{ isStart := isStart, stamp := max at_ s.cnt, seq := q.seq }] })

/-- Commands superseded or flushed (R228, R241). -/
def State.superseded (s : State) (p n : Nat) : State :=
  if n = 0 then s
  else (s.pbump p APT_SUPERSEDED IXP_SUPERSEDED n).praise p APT_INT_STAT_SUPERSEDED IXP_INT_STAT_SUPERSEDED

/-- FLUSH (R228). -/
def State.flushPort (s : State) (p : Nat) : State :=
  (s.superseded p (s.port p).pend.length).modPort p (fun q => { q with pend := [] })

/-- Stamp order, the later observed last where stamps are equal (R241). -/
def PortCmd.before (a b : PortCmd) : Bool := a.stamp < b.stamp || (a.stamp == b.stamp && a.seq < b.seq)
def insertCmd (x : PortCmd) : List PortCmd → List PortCmd
  | [] => [x]
  | y :: l => if x.before y then x :: y :: l else y :: insertCmd x l

/-- A pending command is superseded by a later one of the other kind less than a frame after it (R241). -/
def superseding (rate : Nat) (l : List PortCmd) (a : PortCmd) : Bool :=
  l.any (fun b => a.isStart != b.isStart && a.before b && decide ((b.stamp - a.stamp) * rate < 1000000000))

/-- A command is a no-op (R241). -/
def State.portNoop (s : State) (p : Nat) (isStart : Bool) : State :=
  (if isStart then s.pbump p APT_START_NOOP IXP_START_NOOP else s.pbump p APT_STOP_NOOP IXP_STOP_NOOP).praise p
    APT_INT_STAT_NOOP IXP_INT_STAT_NOOP

/-- START takes effect on a STOPPED port (R230). -/
def State.startPort (s : State) (p : Nat) : State :=
  let z := s.pget p APT_ZC IXP_ZC
  let s := s.modPort p (fun q => { q with
    since := s.cnt, frameNo := 0, outNo := [], rx := [], prev := List.replicate 8 none, newBlock := true, inIec := false, holed := false,
    mask := s.portMask p, timeout := z, takeAt := 0, lost := 0, acts := [], gates := List.replicate 8 .closed, subs := 0, silencePos := 0 })
  let s := s.mapGates p Gate.start
  let s := (s.setPortState p ptSTARTING).pset p APT_STAT_STANDBY_STOPPED IXP_STAT_STANDBY_STOPPED 0
  (s.praise p APT_INT_STAT_STARTED IXP_INT_STAT_STARTED).settlePort p false

/-- A command takes effect on a running port with the frame that begins now: at once on what the output lines send, and on the received channels
with that frame, for the frame before it may still be on its way (R217, R228). -/
def State.actPort (s : State) (p : Nat) (isStart : Bool) : State :=
  let z := s.pget p APT_ZC IXP_ZC
  (s.turnGates p (s.outChannels p) (Gate.act isStart)).modPort p (fun q => { q with acts := q.acts ++ [(s.cnt, isStart, z)] })

/-- A command acts by the state it finds (R241). -/
def State.applyPort (s : State) (p : Nat) (isStart : Bool) : State :=
  let st := s.portState p
  if isStart then
    if st = ptSTOPPED then s.startPort p
    else if st = ptSTOPPING then ((s.actPort p true).setPortState p ptSTARTING).settlePort p false
    else s.portNoop p true
  else if st = ptSTARTING || st = ptRUNNING then (s.actPort p false).setPortState p ptSTOPPING
  else s.portNoop p false

/-- The first pending command in stamp order takes effect where its stamp has come (R228, R241); none does in SWITCHING (R240) or
STANDBY (R245). -/
def State.portEffect (s : State) (p : Nat) : State :=
  let l := (s.port p).pend
  let ovr := l.filter (superseding (s.portRate p) l)
  let s := (s.superseded p ovr.length).modPort p (fun q => { q with pend := q.pend.filter (fun c => !ovr.contains c) })
  match ((s.port p).pend.foldl (fun a c => insertCmd c a) []).head? with
  | some c =>
    if s.cnt < c.stamp then s
    else (s.modPort p (fun q => { q with pend := q.pend.filter (fun d => decide (d ≠ c)) })).applyPort p c.isStart
  | none => s

/-! ## Blocks and delivery (R223 to R226) -/

/-- The TAI second under way: the count of the second that has ended is APT_RATE_MEAS, IXP_RATE_MEAS (R218, R234). -/
def State.rollSecond (s : State) (p : Nat) : State :=
  let q := s.port p
  let now := s.cnt / 1000000000
  if now = q.secNo then s
  else
    let n := if now = q.secNo + 1 then q.secCnt else 0
    let s := (s.modPort p (fun q => { q with secNo := now, secCnt := 0 })).pset p APT_RATE_MEAS IXP_RATE_MEAS n
    let r := s.portRate p
    let off := 8 ≤ p && s.portState p != ptSTOPPED && decide (r < 1000 * ((n : Int) - (r : Int)).natAbs)
    s.onlyIf off (fun u => u.raise IXP_INT_STAT_RATE_MISMATCH (p - 8))

/-- A slot mask takes effect at the first frame that begins at or after its boundary (R242); channels it adds wait to open. -/
def State.maskAt (s : State) (p start : Nat) : State :=
  let m := s.portMask p
  let old := (s.port p).mask
  if m = old || start < s.tickAt s.tt.tick then s
  else
    let add := (s.selected p m).filter (fun c => !bit old c)
    let g := if s.portState p = ptSTOPPING then Gate.closed else Gate.opening 0
    (s.modPort p (fun q => { q with
      mask := m, newBlock := true, prev := (List.range 8).map (fun c => if add.contains c then none else q.prev.getD c none),
      gates := (List.range 8).map (fun c => if add.contains c then g else q.gates.getD c .closed) })).mapGates p id

/-- Frames of a block of an AP port (R223). -/
def State.blockFrames (s : State) (p : Nat) : Nat := 16 * two (s.get APT_CFG_BLOCK p)

/-- A new block begins with the frame that started at `stamp` (R223, R224, R234). -/
def State.beginBlock (s : State) (p stamp : Nat) : State :=
  let n := if p < 8 then s.blockFrames p else 0
  let s := s.modPort p (fun q => { q with newBlock := false, inBlock := 0, blockLen := n, stamp := stamp, blockNo := q.blockNo + 1 })
  let s := s.onlyIf (decide (p < 8)) (fun u => u.bump APT_BLOCKS p)
  s.pset2 p APT_STAMP_LO APT_STAMP_HI IXP_STAMP_LO IXP_STAMP_HI stamp

/-- The value of a port sample in fp32 (R170, R173, R216). -/
def State.portValue (s : State) (p : Nat) (x : Int) : Nat :=
  let f := s.portFormat p
  (normalise f (ofS (if f = 1 then 16 else 24) x)).1

/-- The streams a port feeds (R220). -/
def State.fedSlots (s : State) (p : Nat) : List Nat :=
  (s.slots.filter (fun e => e.2.par.portFed && e.2.par.port % 16 == p && e.2.state != .free && e.2.tearing.isNone)).map
    (fun e => e.1)

/-- Frames the port holds untaken (R225), `stepN` apart, at 1.05 × the declared rate. -/
def State.untaken (s : State) (p : Nat) : Nat := ceilDiv ((s.port p).takeAt - s.cnt * 21 * s.portRate p) 20000000000

/-- A frame is dropped on overrun (R226). -/
def State.overrun (s : State) (p : Nat) : State :=
  ((s.pbump p APT_DROP_OVERRUN IXP_DROP_OVERRUN).praise p APT_INT_STAT_OVERRUN IXP_INT_STAT_OVERRUN).modPort p
    (fun q => { q with newBlock := true, lost := q.lost + 1 })

/-- A frame is buffered: it is compacted by position, and reaches every stream bound to it (R219, R220, R225). -/
def State.bufferFrame (s : State) (p start : Nat) (ys : List Int) : State :=
  let s := s.onlyIf ((s.port p).newBlock || (p < 8 && (s.port p).blockLen ≤ (s.port p).inBlock)) (fun u => u.beginBlock p start)
  let first := (s.port p).inBlock == 0
  let lost := (s.port p).lost
  let t21 := s.cnt * 21 * s.portRate p
  let s := s.modPort p (fun q => { q with lost := 0, inBlock := q.inBlock + 1, secCnt := q.secCnt + 1, takeAt := max q.takeAt t21 + 20000000000 })
  let s := s.pbump p APT_FRAMES IXP_FRAMES
  let vs := ys.map (s.portValue p)
  (s.fedSlots p).foldl (fun u i =>
    let b := (u.slot i).par
    u.portFrame i ((List.range b.channels).map (fun c => vs.getD (b.port / 16 % 8 + c) 0)) (if first then some start else none) lost) s

/-- A well-formed frame is dropped on overrun: it would be buffered, and 64 untaken frames are held (R219, R226). -/
def State.overruns (s : State) (p : Nat) (buffer : Bool) : Bool := buffer && !(s.selected p (s.port p).mask).isEmpty && 64 ≤ s.untaken p

/-- A whole frame's samples by channel: gated, kept for the output lines, and buffered where a channel is selected (R219, R226). -/
def State.takeFrame (s : State) (p start : Nat) (xs : List Int) (mk : Nat → List Int → RxFrame) (buffer : Bool) : State :=
  let sel := s.selected p (s.port p).mask
  let full := s.overruns p buffer
  let r := s.gateFrames p (sel.map (fun c => (c, some (xs.getD c 0))))
  let s := r.1.onlyIf (!full) (fun u => u.modPort p (fun q => { q with lastGood := some u.cnt }))
  let s := if full then s.overrun p else if buffer && !sel.isEmpty then s.bufferFrame p start r.2 else s
  let shown := if p < 8 then xs else (List.range 8).map (fun c => if sel.contains c then r.2.getD (sel.idxOf c) 0 else xs.getD c 0)
  s.modPort p (fun q => { q with
    frameNo := q.frameNo + 1, rx := ((mk q.frameNo shown :: q.rx).map (fun f => if f.no = q.frameNo && full then { f with good := false } else f)).take 4 })

/-- A frame is dropped as malformed (R226): it occupies its place, and its channels have no sample. -/
def State.dropFrame (s : State) (p : Nat) (mk : Nat → RxFrame) : State :=
  let s := (s.pbump p APT_DROP_MALFORMED IXP_DROP_MALFORMED).praise p APT_INT_STAT_MALFORMED IXP_INT_STAT_MALFORMED
  let r := s.gateFrames p ((s.selected p (s.port p).mask).map (fun c => (c, none)))
  r.1.modPort p (fun q => { q with newBlock := true, lost := q.lost + 1, frameNo := q.frameNo + 1, rx := (mk q.frameNo :: q.rx).take 4 })

/-! ## Timing-mode switches (R240) -/

/-- APT_CFG.MASTER takes effect at a boundary (R240). -/
def State.switchPort (s : State) (p : Nat) : State :=
  let want := s.get APT_CFG_MASTER p
  if s.get APT_STAT_MASTER p = want then s
  else
    let st := s.portState p
    let s := s.set APT_STAT_MASTER want p
    if st = ptSTOPPED then s
    else
      let back := match (s.port p).switch with
        | some w => w.1
        | none => st
      (s.setPortState p ptSWITCHING).modPort p (fun q => { q with switch := some (back, want == 1, s.cnt) })

/-- T_sw (R240): towards master, the first grid frame at or after the last buffering instant. -/
def State.switchAt (s : State) (p : Nat) (w : Nat × Bool × Nat) : Nat :=
  gridCeil (s.portRate p) (if w.2.1 then max w.2.2 ((s.port p).lastGood.getD 0) else w.2.2)

/-- W of an AP port (R215). -/
def slotWidth (code : Nat) : Nat := 16 + 8 * code

/-- When a port that becomes a slave releases BCLK and WS (R240): at the rising BCLK edge that captures the last bit of the final grid frame, half
a period after T_sw in I2S and before it in left-justified framing (R217, R221). -/
def State.releaseAt (s : State) (p : Nat) (w : Nat × Bool × Nat) : Nat :=
  let half := 1000000000 / (4 * slotWidth (s.get APT_CFG_WIDTH p) * s.portRate p)
  if s.get APT_CFG_JUSTIFY p = 0 then s.switchAt p w + half else s.switchAt p w - half

/-- The switch completes at `t` (R240). -/
def State.switched (s : State) (p : Nat) (w : Nat × Bool × Nat) (t : Nat) : State :=
  let s := (s.setPortState p w.1).raise APT_INT_STAT_SWITCHED p
  s.modPort p (fun q => { q with switch := none, newBlock := true, since := t, prev := List.replicate 8 none })

/-! ## Pins (R214, R227, R231, R232, R240, R245, R247) -/

/-- BCLK and WS of an AP port: driven by a master that is not STOPPED, from T_sw of a switch to master on, and to the release in one to slave. -/
def State.clockPins (s : State) (p : Nat) : Drive :=
  let on := match (s.port p).switch with
    | some w => !w.2.1 && s.cnt ≤ s.releaseAt p w
    | none => s.flag APT_STAT_MASTER p
  if s.pkg.sdUp && s.portState p != ptSTOPPED && on then .driven else .highZ

/-- Data line d of an AP port: driven where it is an output and the port is not STOPPED. -/
def State.linePin (s : State) (p d : Nat) : Drive := if s.pkg.sdUp && s.portState p != ptSTOPPED && s.lineDir p d == 2 then .driven else .highZ

/-- IXn_TX: low but while it sends (R239). -/
def State.txPin (s : State) (x : Nat) : Drive :=
  if s.pkg.sdUp && s.portState (x + 8) != ptSTOPPED && s.flag IXP_STAT_TX_ACTIVE x then .driven else .low

/-- STANDBY is entered (R245): every port stops at once, its pending commands are gone. -/
def State.portStandby (s : State) (p : Nat) : State :=
  let s := s.onlyIf (s.portState p != ptSTOPPED) (fun u => u.portStopped p)
  (s.modPort p (fun q => { q with pend := [], switch := none })).pset p APT_STAT_STANDBY_STOPPED IXP_STAT_STANDBY_STOPPED 1
def State.portsStandby (s : State) : State := (List.range 10).foldl (fun u p => u.portStandby p) s

/-! ## IEC blocks (R236 to R238) -/

/-- 24 bytes of bits by position, least significant bit first (R236). -/
def iecField (l : List (Nat × Nat)) (b : Nat × Nat → Nat) : List Byte :=
  let v := l.foldl (fun a e => if e.1 < 192 && b e = 1 then a + two e.1 else a) 0
  toLe 24 v

/-- One bit of the CRCC of R236, bits in transmission order. -/
def crccBit (c : Nat) : Nat := if c % 2 = 1 then (c / 2) ^^^ 0xB8 else c / 2
def crccByte (c : Nat) (b : Byte) : Nat :=
  crccBit (crccBit (crccBit (crccBit (crccBit (crccBit (crccBit (crccBit (c ^^^ b.toNat))))))))
/-- The CRCC over bytes 0 to 22. -/
def crcc (l : List Byte) : Nat := (l.take 23).foldl crccByte 0xFF

/-- The registers of a channel's status (R236). -/
def State.csA (s : State) (x : Nat) : List Byte :=
  toLe 4 (s.get IXP_CS_A x) ++ ((List.range 5).map (fun k => toLe 4 (s.get IXP_CS_A_REST x k))).flatten
def State.csB (s : State) (x : Nat) : List Byte := ((List.range 6).map (fun k => toLe 4 (s.get IXP_CS_B x k))).flatten

/-- The registers take a block's status. -/
def State.loadCs (s : State) (x : Nat) (a b : List Byte) : State :=
  let s := s.set IXP_CS_A (le a 0 4) x
  let s := (List.range 5).foldl (fun u k => u.set IXP_CS_A_REST (le a (4 + 4 * k) 4) x k) s
  (List.range 6).foldl (fun u k => u.set IXP_CS_B (le b (4 * k) 4) x k) s

/-- The end of a complete block (R236): the state, and whether CS_CHANGED and CRCC_ERR are set. -/
def State.completeBlock (s : State) (x : Nat) (a b : List Byte) : State × Bool × Bool :=
  let changed := a != s.csA x || b != s.csB x
  let pro := byteAt a 0 % 2
  let bad := pro == 1 && (crcc a != byteAt a 23 || crcc b != byteAt b 23)
  let s := (s.bump IXP_BLOCKS x).loadCs x a b
  let s := s.onlyIf changed (fun u => u.raise IXP_INT_STAT_CS_CHANGED x)
  let s := s.set IXP_STAT_PRO pro x
  let s := s.onlyIf bad (fun u => (u.bump IXP_CRCC_ERR x 0 (b2n (crcc a != byteAt a 23) + b2n (crcc b != byteAt b 23))).raise IXP_INT_STAT_CRCC_ERR x)
  (s.set IXP_STAT_NON_PCM (byteAt a 0 / 2 % 2) x, changed, bad)

/-- N of the channel-status queue (R238). -/
def State.csqN (s : State) (x : Nat) : Nat := two (s.get IXP_CSQ_CFG x)

/-- A descriptor is written, or counted lost (R238). -/
def State.writeCsq (s : State) (x : Nat) (d : List Byte) : State :=
  let dev := s.get IXP_CSQ_DEV_IDX x
  let n := s.csqN x
  if n ≤ idxSub dev (s.get IXP_CSQ_HOST_IDX x) then
    ((s.bump IXP_CSQ_LOST x).raise IXP_INT_STAT_CSQ_LOST x).modPort (x + 8) (fun q => { q with csqLossDue := true })
  else
    let a := s.get IXP_CSQ_BASE_LO x * two 12 + s.get IXP_CSQ_BASE_HI x * two 32 + dev % n * 128
    let ph := if dev / n % 2 = 0 then 1 else 0
    let s := s.store { fn := s.owner .ixp x, kind := .csq, addr := a, data := patch (fit 128 d) 0x1F (toLe 1 ph) }
    (s.set IXP_CSQ_DEV_IDX (dev + 1) x).modPort (x + 8) (fun q => { q with csqLossDue := false })

/-- An IEC block ends (R236, R237). -/
def State.endIec (s : State) (x : Nat) : State :=
  let q := s.port (x + 8)
  let a := iecField q.cbits (fun e => e.2 % 2)
  let b := iecField q.cbits (fun e => e.2 / 2)
  let ua := iecField q.ubits (fun e => e.2 % 2)
  let ub := iecField q.ubits (fun e => e.2 / 2)
  let full := q.pos == 192 && q.wellFormed == 192 && !q.holed
  let r := if full then s.completeBlock x a b else (s.bump IXP_SHORT_BLOCKS x, false, false)
  let s := r.1.modPort (x + 8) (fun q => { q with iecCount := q.iecCount + 1, lastU := if full then q.ubits else q.lastU })
  let s := s.set2 IXP_BLOCK_LO IXP_BLOCK_HI (q.iecCount + 1) x
  let flags := b2n r.2.1 + 2 * s.get IXP_STAT_PRO x + 4 * b2n (!full) + 8 * b2n r.2.2 + 16 * s.get IXP_STAT_NON_PCM x + 32 * b2n q.csqLossDue
  let head := record [(1, 1), (1, flags), (2, x), (2, q.invalidA), (2, q.invalidB), (8, q.bStamp), (8, q.iecCount + 1), (2, q.wellFormed),
    (2, q.dropped), (4, 0)]
  if s.get IXP_CFG_CSQ_MODE x = 1 && !r.2.1 && full && !r.2.2 && !q.csqLossDue then s
  else s.writeCsq x (head ++ a ++ b ++ ua ++ ub)

/-- A frame with preamble B begins a block (R236). -/
def State.beginIec (s : State) (x start : Nat) : State :=
  let s := s.onlyIf (s.port (x + 8)).inIec (fun u => u.endIec x)
  s.modPort (x + 8) (fun q => { q with
    inIec := true, holed := false, pos := 0, bStamp := start, cbits := [], ubits := [], wellFormed := 0, dropped := 0, invalidA := 0, invalidB := 0 })

end Sys2Proof.Machine
end

