-- ==== Sys2Proof/Machine/Ports.lean ====
section
/-! DEFINITION. Machine/Ports.lean: the commands of the audio and IEC ports (05_audio_ports.md, R214 to R248). -/
namespace Sys2Proof.Machine

/-- A received frame is well-formed (R217, R751). -/
def State.serialOk (s : State) (p : Nat) (fr : PortFrame) : Bool :=
  let w := slotWidth (s.get APT_CFG_WIDTH p)
  fr.edgesL == w && fr.edgesR == w && (s.flag APT_STAT_MASTER p || 60 ≤ fr.minPhase)

/-- Bits of a slot that are its sample: the first 24 of 32 (R216). -/
def sampleBits (w : Nat) : Nat := min w 24

/-- A number from its bits, most significant first. -/
def msbFirst (l : List Bool) : Nat := l.foldl (fun a b => 2 * a + b2n b) 0

/-- The sample of slot k of a line, from its levels at the rising edges since the frame-start edge: the first data bit lies at that edge where the
port is left-justified, and one BCLK period later in I2S (R215, R216). -/
def slotSample (w justify k : Nat) (l : List Bool) : Int :=
  toS (sampleBits w) (msbFirst ((l.drop (k * w + (if justify = 0 then 1 else 0))).take (sampleBits w)))

/-- The bits an output slot carries for a sample, as a number of W bits: 24 bits and 8 zero bits where W is 32 (R216). -/
def slotWord (w : Nat) (x : Int) : Nat := ofS (sampleBits w) x * two (w - sampleBits w)

/-- The samples of channels 0 to 7; those of lines that are no inputs are ignored (R214, R215). -/
def State.frameSamples (s : State) (p : Nat) (fr : PortFrame) : List Int :=
  (List.range 8).map (fun c => if s.lineDir p (c / 2) = 1
    then slotSample (slotWidth (s.get APT_CFG_WIDTH p)) (s.get APT_CFG_JUSTIFY p) (c % 2) (fr.lines.getD (c / 2) []) else 0)

/-- A frame of an AP port that started at `start` ends (R217). -/
def State.serialFrame (s : State) (p start : Nat) (fr : PortFrame) : State :=
  let s := ((s.rollSecond p).maskAt p start).actGates p start
  let sw := s.portState p == ptSWITCHING
  let s := if s.serialOk p fr then s.takeFrame p start (s.frameSamples p fr) (fun n l => { no := n, samples := l }) true
    else s.dropFrame p (fun n => { no := n, samples := [], good := false })
  if sw then s else s.settlePort p true

/-- The frame-start edge of a frame whose last bit lies `e` after it: a grid instant in master mode (R221, R224), its own edge in slave mode. In a
switch to master the frames that come are those of the external clock; in one to slave, grid frames to the release (R240). -/
def State.frameStart (s : State) (p e : Nat) : Nat :=
  let grid := match (s.port p).switch with
    | some w => !w.2.1 && e ≤ s.releaseAt p w
    | none => s.flag APT_STAT_MASTER p
  if grid then gridFloor (s.portRate p) e else e

/-- A frame whose frame-start edge the port follows: after its start; in a switch to master, before T_m; in one to slave, before T_sw or after
the release (R228, R240). -/
def State.follows (s : State) (p start : Nat) : Bool :=
  s.portState p != ptSTOPPED && (s.port p).since ≤ start &&
  (match (s.port p).switch with
   | some w => if w.2.1 then start < w.2.2 else start < s.switchAt p w || s.releaseAt p w < start
   | none => true)

/-- The first frame that a port buffers after it has become a slave completes its switch (R240). -/
def State.joinExternal (s : State) (p start : Nat) (ok : Bool) : State :=
  match (s.port p).switch with
  | some w => if ok && !w.2.1 && s.releaseAt p w < start then s.switched p w (s.switchAt p w) else s
  | none => s

/-- FRAME_BUFFER (R217, R240). -/
def execFrameBuffer (dt : Nat) (port : Fin 8) (fr : PortFrame) (s : State) : Out :=
  let u := s.elapse dt
  let start := u.frameStart port (u.cnt - fr.age)
  s.done (if u.follows port start then (u.joinExternal port start (u.serialOk port fr)).serialFrame port start fr else u)

/-! ## IEC reception (R233 to R236) -/

/-- The 28 bits of time slots 4 to 31 have even parity (R233). -/
def parityOk (word : Nat) (v u c p : Bool) : Bool :=
  ((List.range 24).filter (bit word)).length % 2 == (b2n v + b2n u + b2n c + b2n p) % 2

/-- A frame of two subframes is well-formed (R233). -/
def iecOk (f : IecFrame) : Bool :=
  f.preA.val ≤ 1 && f.preB.val == 2 && !f.violation && parityOk f.wordA f.vA f.uA f.cA f.pA && parityOk f.wordB f.vB f.uB f.cB f.pB

/-- The lock machine of the receiver (R234). -/
def State.iecLock (s : State) (x : Nat) (ok : Bool) : State :=
  let s := s.modPort (x + 8) (fun q => if ok then { q with good := q.good + 1, bad := 0 } else { q with good := 0, bad := q.bad + 1 })
  let q := s.port (x + 8)
  if s.flag IXP_STAT_RX_LOCK x then
    if 8 ≤ q.bad then (s.set IXP_STAT_RX_LOCK 0 x).raise IXP_INT_STAT_LOCK_LOST x else s
  else if 4 ≤ q.good then
    ((s.set IXP_STAT_RX_LOCK 1 x).raise IXP_INT_STAT_LOCK x).modPort (x + 8) (fun q => { q with newBlock := true })
  else s

/-- One position of the IEC block under way (R236); the C and U bits of a frame dropped on overrun read 0 (R237). -/
def State.iecPosition (s : State) (x : Nat) (f : IecFrame) (ok lost : Bool) : State :=
  s.modPort (x + 8) (fun q =>
    if !q.inIec then q
    else if ok then
      { q with pos := q.pos + 1, wellFormed := q.wellFormed + 1, dropped := q.dropped + b2n lost,
               cbits := if lost then q.cbits else q.cbits ++ [(q.pos, b2n f.cA + 2 * b2n f.cB)],
               ubits := if lost then q.ubits else q.ubits ++ [(q.pos, b2n f.uA + 2 * b2n f.uB)],
               invalidA := q.invalidA + b2n f.vA, invalidB := q.invalidB + b2n f.vB }
    else { q with pos := q.pos + 1, dropped := q.dropped + 1 })

/-- The integer sample of a subframe (R233, R235, R236). -/
def State.iecSample (s : State) (x word : Nat) (v : Bool) : Int :=
  if s.flag IXP_STAT_NON_PCM x || (v && s.flag IXP_CFG_VPOL x) then 0 else toS 24 word

/-- The V, U and C bits and the preambles that THROUGH sends on. -/
def iecFlags (f : IecFrame) : List Nat :=
  [f.preA.val, f.preB.val, b2n f.vA, b2n f.uA, b2n f.cA, b2n f.vB, b2n f.uB, b2n f.cB]

/-- A well-formed frame of a running port (R233 to R236). -/
def State.iecGood (s : State) (x start : Nat) (f : IecFrame) (at_ : Nat) : State :=
  let p := x + 8
  let lock := s.flag IXP_STAT_RX_LOCK x
  let n := b2n f.vA + b2n f.vB
  let s := s.bump IXP_INVALID x 0 n
  let s := s.onlyIf (lock && s.flag IXP_STAT_NON_PCM x) (fun u => u.bump IXP_NONPCM_FRAMES x)
  let s := s.onlyIf (f.preA.val == 0) (fun u => u.modPort p (fun q => { q with newBlock := true }))
  let xs := [s.iecSample x f.wordA f.vA, s.iecSample x f.wordB f.vB]
  s.takeFrame p start xs (fun n l => { no := n, samples := l.take 2, flags := iecFlags f, pos := at_, good := lock }) lock

/-- A frame of an IX port that started at `start` (R233): the receiver's lock runs always, the rest while the port is not STOPPED
(assumption 22). -/
def State.iecFrame (s : State) (x start : Nat) (f : IecFrame) : State :=
  let p := x + 8
  let ok := iecOk f
  let s := s.iecLock x ok
  if s.portState p = ptSTOPPED || start < (s.port p).since then s
  else
    let s := ((s.rollSecond p).maskAt p start).actGates p start
    let s := s.onlyIf (f.preA.val == 0) (fun u => u.beginIec x start)
    let at_ := (s.port p).pos
    let s := s.iecPosition x f ok (ok && s.overruns p (s.flag IXP_STAT_RX_LOCK x))
    let s := if ok then s.iecGood x start f at_
      else s.dropFrame p (fun n => { no := n, samples := [], flags := iecFlags f, pos := at_, good := false })
    s.settlePort p true

/-- IEC_FRAME_RECEIVE (R233). -/
def execIecFrameReceive (dt : Nat) (port : Fin 2) (fr : IecFrame) (s : State) : Out :=
  let u := s.elapse dt
  s.done (u.iecFrame port (u.cnt - fr.age) fr)

/-- The receiver loses its signal (R234). -/
def State.iecLoss (s : State) (x : Nat) : State :=
  let s := s.onlyIf (s.flag IXP_STAT_RX_LOCK x) (fun u => (u.set IXP_STAT_RX_LOCK 0 x).raise IXP_INT_STAT_LOCK_LOST x)
  s.modPort (x + 8) (fun q => { q with good := 0, bad := 0, holed := true })

/-- IEC_SIGNAL_LOSS (R234). -/
def execIecSignalLoss (dt : Nat) (port : Fin 2) (s : State) : Out := s.done ((s.elapse dt).iecLoss port)

/-- A host index of the channel-status queue is ignored where it leaves more than N descriptors (R238). -/
def State.csqReturn (s : State) (x value : Nat) : State :=
  if s.csqN x < idxSub (s.get IXP_CSQ_DEV_IDX x) value then s else s.set IXP_CSQ_HOST_IDX value x

/-- IXP_CSQ_HOST_IDX_WRITE (R238). -/
def execIxpCsqHostIdxWrite (dt : Nat) (p : Party) (port : Fin 2) (value : Nat) (s : State) : Out :=
  s.done ((s.elapse dt).access p .ixp port .page (fun u => u.csqReturn port value))

/-! ## Commands -/

/-- A write of a port page's command register by a party that may write it. -/
def State.portAccess (s : State) (p : Party) (port : Nat) (g : State → State) : State :=
  if port < 8 then s.access p .apt port .page g else s.access p .ixp (port - 8) .page g

/-- PORT_START (R228, R230). -/
def execPortStart (dt : Nat) (p : Party) (port : Fin 10) (s : State) : Out :=
  s.done ((s.elapse dt).portAccess p port (fun u => u.queuePort port true))

/-- PORT_STOP (R228, R231). -/
def execPortStop (dt : Nat) (p : Party) (port : Fin 10) (s : State) : Out :=
  s.done ((s.elapse dt).portAccess p port (fun u => u.queuePort port false))

/-- PORT_FLUSH (R228). -/
def execPortFlush (dt : Nat) (p : Party) (port : Fin 10) (s : State) : Out :=
  s.done ((s.elapse dt).portAccess p port (fun u => u.flushPort port))

/-- PORT_COMMAND_EFFECT (R241): the frame that starts now is the first at or after the stamp. -/
def execPortCommandEffect (dt : Nat) (port : Fin 10) (s : State) : Out :=
  let u := s.elapse dt
  s.done (if u.portState port = ptSWITCHING || u.standby then u else u.portEffect port)

/-- A gate whose frames have run out begins its ramp with the next frame (R230, R231). -/
def State.rampGate (s : State) (p c : Nat) : State :=
  let q := s.port p
  let set := fun g => (s.modPort p (fun q => { q with gates := q.gates.set c g })).zcRamp p
  match q.gates.getD c .closed with
  | .opening w => if q.timeout ≤ w then (set (.rampUp 0)).settlePort p false else s
  | .closing w => if q.timeout ≤ w then set (.rampDown 0) else s
  | .closed | .opened | .rampUp _ | .rampDown _ => s

/-- ZC_TIMEOUT (R230): nothing happens before TIMEOUT frames have passed without a crossing. -/
def execZcTimeout (dt : Nat) (port : Fin 10) (channel : Fin 8) (s : State) : Out := s.done ((s.elapse dt).rampGate port channel)

/-! ## Output (R232, R239) -/

/-- The source an AP output line sends (R232): the input line, or none for zero. -/
def State.lineSource (s : State) (p d : Nat) : Option Nat :=
  let v := if d = 0 then s.get APT_OUT_SRC0 p + 4 * s.get APT_OUT_THRU0 p
           else s.get (if d = 1 then APT_OUT_OUT1 else if d = 2 then APT_OUT_OUT2 else APT_OUT_OUT3) p
  if v / 4 = 1 then some (v % 4) else none

/-- The frame under way on an output line, and the received frame it sends: two frames earlier (R232). -/
def State.outFrame (s : State) (p d : Nat) : Nat := Map.get (s.port p).outNo d 0
def State.source (s : State) (p d : Nat) : Option RxFrame :=
  (s.port p).rx.find? (fun f => f.no + 2 == s.outFrame p d)

/-- An output frame whose source frame is not present (R226). -/
def State.underrun (s : State) (p : Nat) : State :=
  (s.pbump p APT_OUT_UNDERRUN IXP_OUT_UNDERRUN).praise p APT_INT_STAT_OUT_UNDERRUN IXP_INT_STAT_OUT_UNDERRUN

/-- The line has sent a frame. -/
def State.sentFrame (s : State) (p d : Nat) (l : List Int) : State :=
  s.modPort p (fun q => { q with outNo := Map.put d (s.outFrame p d + 1) q.outNo, sent := Map.put d l q.sent })

/-- One frame of an AP output line (R232). -/
def State.lineFrame (s : State) (p d : Nat) : State :=
  let from_ := s.lineSource p d
  let f := (s.source p d).filter (fun f => f.good)
  let lack := from_.isSome && f.isNone && 2 ≤ s.outFrame p d
  let pick := fun k => match from_, f with
    | some x, some f => f.samples.getD (2 * x + k) 0
    | _, _ => 0
  let r := (s.onlyIf lack (fun u => u.underrun p)).gateFrames p [(2 * d, some (pick 0)), (2 * d + 1, some (pick 1))]
  (r.1.sentFrame p d (r.2.map (fun x => (slotWord (slotWidth (s.get APT_CFG_WIDTH p)) x : Int)))).settlePort p false

/-- The C or U bit of a position in a 24-byte field of a channel. -/
def bitOf (l : List Byte) (pos : Nat) : Nat := if pos < 192 then byteAt l (pos / 8) / two (pos % 8) % 2 else 0

/-- THROUGH (R239): a received frame two frames late, a substitute for a dropped one, or low level after eight of those. -/
def State.throughFrame (s : State) (x : Nat) : State :=
  let p := x + 8
  let lock := s.flag IXP_STAT_RX_LOCK x
  let q := s.port p
  let f := s.source p 0
  match f.filter (fun f => f.good) with
  | some f =>
    ((s.modPort p (fun q => { q with subs := 0 })).set IXP_STAT_TX_ACTIVE 1 x).sentFrame p 0 (f.samples ++ f.flags.map Int.ofNat)
  | none =>
    if s.outFrame p 0 < 2 then s.sentFrame p 0 []
    else if 8 ≤ q.subs && !lock then (s.set IXP_STAT_TX_ACTIVE 0 x).sentFrame p 0 []
    else
      let at_ := (f.map (fun f => f.pos)).getD 0
      let u := ((q.lastU.find? (fun e => e.1 == at_)).map (fun e => e.2)).getD 0
      let s := ((s.modPort p (fun q => { q with subs := q.subs + 1 })).underrun p).set IXP_STAT_TX_ACTIVE 1 x
      s.sentFrame p 0 ([0, 0] ++ ([(if at_ = 0 then 0 else 1), 2, 1, u % 2, bitOf (s.csA x) at_, 1, u / 2, bitOf (s.csB x) at_].map
        (fun (n : Nat) => (n : Int))))

/-- SILENCE (R239): channel status is taken at the start of each 192-frame block (R242). -/
def State.silenceFrame (s : State) (x : Nat) : State :=
  let p := x + 8
  let n := (s.port p).silencePos
  let s := s.onlyIf (n == 0) (fun u => u.modPort p (fun q => { q with silenceCs := (List.range 6).map (fun k => s.get IXP_TX_CS x k) }))
  let c := bitOf ((s.port p).silenceCs.flatMap (toLe 4)) n
  let s := (s.modPort p (fun q => { q with silencePos := (n + 1) % 192 })).set IXP_STAT_TX_ACTIVE 1 x
  s.sentFrame p 0 ([0, 0] ++ ([(if n = 0 then 0 else 1), 2, 0, 0, c, 0, 0, c].map (fun (n : Nat) => (n : Int))))

/-- One frame period of IXn_TX (R239). -/
def State.iecOut (s : State) (x : Nat) : State :=
  let src := s.get IXP_CFG_TX_SRC x
  let s := if src = 1 then s.throughFrame x else if src = 2 then s.silenceFrame x else s.set IXP_STAT_TX_ACTIVE 0 x
  -- without a gated channel a command acts with the next frame sent (R231)
  if (s.gated (x + 8)).isEmpty then (s.actGates (x + 8) s.cnt).settlePort (x + 8) true else s.settlePort (x + 8) false

/-- OUTPUT_FRAME (R232, R239): only an output line of a port that is not STOPPED sends; an IX port has the one output, line 0. -/
def execOutputFrame (dt : Nat) (port : Fin 10) (line : Fin 4) (s : State) : Out :=
  let u := s.elapse dt
  s.done (if u.portState port = ptSTOPPED then u
    else if 8 ≤ port.val then (if line.val = 0 then u.iecOut (port.val - 8) else u)
    else if u.linePin port line = .driven then u.lineFrame port line else u)

/-- SWITCHED (R240): towards master, the first grid frame begins at T_sw. A switch towards slave ends with its first frame (FRAME_BUFFER). -/
def execSwitched (dt : Nat) (port : Fin 8) (s : State) : Out :=
  let u := s.elapse dt
  s.done (match (u.port port).switch with
    | some w => if w.2.1 && u.switchAt port w ≤ u.cnt then u.switched port w (u.switchAt port w) else u
    | none => u)

/-! ## Latched views (R248) -/

/-- The newest block's stamp and number. -/
def State.viewStamp (s : State) (p : Party) (x : Nat) : State :=
  let n := (s.port x).blockNo
  let s := s.latch p APT_STAMP_HI (s.get APT_STAMP_HI x) x
  let s := s.latch p APT_BLOCK_LO n x
  (s.latch p APT_BLOCK_HI (n / two 32) x).returns (s.get APT_STAMP_LO x)

/-- APT_STAMP_LO_READ (R248). -/
def execAptStampLoRead (dt : Nat) (p : Party) (port : Fin 8) (s : State) : Out :=
  s.done ((s.elapse dt).reading p .apt port (fun u => u.viewStamp p port))

/-- The newest stamp block's stamp and the IEC block count. -/
def State.viewIec (s : State) (p : Party) (x : Nat) : State :=
  let s := s.latch p IXP_STAMP_HI (s.get IXP_STAMP_HI x) x
  let s := s.latch p IXP_BLOCK_LO (s.get IXP_BLOCK_LO x) x
  (s.latch p IXP_BLOCK_HI (s.get IXP_BLOCK_HI x) x).returns (s.get IXP_STAMP_LO x)

/-- IXP_STAMP_LO_READ (R248). -/
def execIxpStampLoRead (dt : Nat) (p : Party) (port : Fin 2) (s : State) : Out :=
  s.done ((s.elapse dt).reading p .ixp port (fun u => u.viewIec p port))

/-- The channel status of one block. -/
def State.viewCs (s : State) (p : Party) (x : Nat) : State :=
  let s := (List.range 5).foldl (fun u k => u.latch p IXP_CS_A_REST (u.get IXP_CS_A_REST x k) x k) s
  let s := (List.range 6).foldl (fun u k => u.latch p IXP_CS_B (u.get IXP_CS_B x k) x k) s
  s.returns (s.get IXP_CS_A x)

/-- IXP_CS_A_READ (R248). -/
def execIxpCsARead (dt : Nat) (p : Party) (port : Fin 2) (s : State) : Out :=
  s.done ((s.elapse dt).reading p .ixp port (fun u => u.viewCs p port))

end Sys2Proof.Machine
end

