-- ==== Sys2Proof/Machine/Program.lean ====
section
/-! DEFINITION. Machine/Program.lean: program images, their checks, load, unload and reload (R259 to R265, R333, R334). -/
namespace Sys2Proof.Machine

/-- Codes of CORE_PROG_STAT.CODE (R264, R265). -/
def pgBAD_FORMAT : Nat := 1
def pgTENANCY : Nat := 2
def pgLANE : Nat := 3
def pgBOUNDS : Nat := 4
def pgOVERLAP : Nat := 5
def pgDUP_ID : Nat := 6
def pgCHAIN : Nat := 7
def pgFULL : Nat := 8
def pgFETCH : Nat := 9
def pgBUSY : Nat := 10
def pgIN_USE : Nat := 11
def pgNOT_LOADED : Nat := 12
def pgMISMATCH : Nat := 13

/-! ## Attention descriptors (R333, R334) -/

/-- An attention descriptor. -/
structure AttnDesc where
  source : Nat
  cache : Nat
  mask : Nat
  place : Nat
  split : Nat
  flags : Nat
  heads : Nat
  dim : Nat
  left : Nat
  right : Nat
  appendMax : Nat
  scale : Nat
  entry : Nat
  layerOff : Nat
  cap : Nat
  win : Nat
deriving DecidableEq, Repr

/-- The 64 bytes of a descriptor. -/
def parseAttn (b : List Byte) : AttnDesc :=
  { source := le b 0 1, cache := le b 1 1, mask := le b 2 1, place := le b 3 1, split := le b 4 1, flags := le b 5 1, heads := le b 6 2,
    dim := le b 8 2, left := le b 0xA 2, right := le b 0xC 2, appendMax := le b 0xE 2, scale := le b 0x10 4, entry := le b 0x14 4,
    layerOff := le b 0x18 4, cap := le b 0x1C 4, win := le b 0x20 4 }

/-- Bytes of a layer's part of a position (R333, R348). -/
def AttnDesc.part (d : AttnDesc) : Nat := d.heads * 4 * d.dim

/-- The fields a descriptor uses are in range, and its cache rules hold (R334). -/
def AttnDesc.ok (d : AttnDesc) (encLen : Nat) : Bool :=
  d.source ≤ 1 && d.mask ≤ 2 && d.place ≤ 1 && (if d.place = 0 then d.split == 1 else 2 ≤ d.split && d.split ≤ 8) &&
  1 ≤ d.heads && d.heads ≤ 64 && 16 ≤ d.dim && d.dim ≤ 256 && d.dim % 16 == 0 &&
  (d.source == 1 ||
    (d.cache ≤ 1 && 0 < d.entry && d.entry % 64 == 0 && d.entry ≤ 65536 && d.layerOff + d.part ≤ d.entry &&
      (d.cache == 1 || (d.win + d.appendMax ≤ d.cap && d.cap * d.entry == encLen))))

/-- Bytes `off … off + n − 1` of core SRAM as a section's data gives them. -/
def Section.bytes (x : Section) (img : List Byte) (off n : Nat) : List Byte :=
  let d := (img.drop x.imgOff).take x.dataLen
  slice d (off - x.off) n

/-- A range of a core lies in one section of a kind. -/
def within (l : List Section) (core kind off n : Nat) : Option Section :=
  l.find? (fun x => x.core == core && x.kind == kind && x.off ≤ off && off + n ≤ x.off + x.len)

/-- The instruction records of a CODE section, up to the first END: opcode and operand A. -/
def scanCode (fuel : Nat) (b : List Byte) : List (Nat × Nat) :=
  match fuel with
  | 0 => []
  | n + 1 =>
    let op := le b 0 1
    if b.isEmpty || op = 0x3F then [] else (op, le b 8 4) :: scanCode n (b.drop 32)

/-- Records of every CODE section: core, opcode, operand A (R334). -/
def codeRecords (l : List Section) (img : List Byte) : List (Nat × Nat × Nat) :=
  (l.filter (fun x => x.kind == 1)).flatMap (fun x =>
    (scanCode (x.dataLen / 32 + 1) ((img.drop x.imgOff).take x.dataLen)).map (fun r => (x.core, r.1, r.2)))

/-- What a scan finds: the descriptor an ATTN or APPEND_KV names, where it lies wholly in a CONST section, and its reserved bytes
are zero. -/
structure Named where
  append : Bool
  desc : Option AttnDesc
  clear : Bool

/-- The descriptors that an image's CODE sections name (R334). -/
def namedAttn (l : List Section) (img : List Byte) : List Named :=
  ((codeRecords l img).filter (fun r => r.2.1 == 4 || r.2.1 == 0x20)).map (fun r =>
    match (if r.2.2 % 64 = 0 then within l r.1 4 r.2.2 64 else none) with
    | some x =>
      let b := x.bytes img r.2.2 64
      { append := r.2.1 == 0x20, desc := some (parseAttn b), clear := (b.drop 0x24).all (fun y => y == 0) && le b 5 1 < 4 }
    | none => { append := r.2.1 == 0x20, desc := none, clear := true })

/-- APPEND_KV stands beside other work (R334). -/
def appendMixed (l : List Section) (img : List Byte) : Bool :=
  let ops := (codeRecords l img).map (fun r => r.2.1)
  ops.contains 0x20 && ops.any (fun o => [1, 2, 3, 4, 0x10, 0x11].contains o)

/-! ## Images (R260) -/

/-- Section entry k. -/
def parseSection (b : List Byte) (k : Nat) : Section :=
  let o := 0x80 + 32 * k
  { core := le b o 1, kind := le b (o + 1) 1, off := le b (o + 4) 4, len := le b (o + 8) 4, dataLen := le b (o + 0xC) 4, imgOff := le b (o + 0x10) 8 }

/-- The sections of an image. -/
def parseSections (b : List Byte) : List Section := (List.range (le b 0x3A 2)).map (parseSection b)

/-- The first value of a list that is not zero. -/
def firstNz (l : List Nat) : Nat := (l.find? (fun x => x != 0)).getD 0

/-- The image that a header gives. -/
def parseImage (b : List Byte) : Image :=
  let secs := parseSections b
  let ds := ((namedAttn secs b).filterMap (fun n => n.desc)).filter (fun d => d.source == 0)
  let dec := ds.filter (fun d => d.cache == 1)
  let enc := ds.filter (fun d => d.cache == 0)
  { id := le b 0x14 4, lane := le b 0x19 1, cls := le b 0x1A 2, stage := le b 0x1C 1, stages := le b 0x1D 1, ragged := le b 0x1E 1,
    beams := le b 0x1F 1, mask := le b 0x20 8, rstate := le b 0x28 4, kwstate := le b 0x2C 4, encCache := le b 0x30 4,
    resultMax := le b 0x34 4, maxTokens := le b 0x38 2, deckleOff := le b 0x3C 4, sections := secs,
    decEntry := firstNz (dec.map (fun d => d.entry)), encEntry := firstNz (enc.map (fun d => d.entry)),
    encCap := firstNz (enc.map (fun d => d.cap)), encWin := firstNz (enc.map (fun d => d.win)) }

/-- The image is malformed: BAD_FORMAT (R264, R334). -/
def imageMalformed (b : List Byte) (len : Nat) : Bool :=
  let secs := parseSections b
  len < 0x80 || le b 0 4 != 0x4D495250 || le b 4 2 != 1 || le b 6 2 != 0x80 || le b 8 8 != len || !crcOk (fit len b) 0x10 ||
  (slice b 0x40 64).any (fun x => x != 0) ||
  (List.range (le b 0x3A 2)).any (fun k => le b (0x82 + 32 * k) 2 != 0 || le b (0x98 + 32 * k) 8 != 0) ||
  (namedAttn secs b).any (fun n => !n.clear) || appendMixed secs b

/-- Cores of a lane (R55). -/
def laneMask (lane : Nat) : Nat := if lane = 0 then two 64 - 16 else 15

/-- A section's own values are in range (R260). -/
def Section.ok (x : Section) (mask len : Nat) : Bool :=
  x.core < 64 && bit mask x.core && 1 ≤ x.kind && x.kind ≤ 7 && x.off % 4096 == 0 && x.len % 4096 == 0 && x.off + x.len ≤ 16777216 &&
  x.dataLen ≤ x.len && (x.kind < 5 || x.dataLen == 0) && x.imgOff + x.dataLen ≤ len

/-- ENTRY_BYTES of a cache agree across a family (R334). -/
def entriesAgree (l : List Nat) : Bool :=
  let l := l.filter (fun x => x != 0)
  l.all (fun x => x == l.headD 0)

/-- A value is out of range, or a section out of bounds: BOUNDS (R264, R334). -/
def State.imageOut (s : State) (t : Nat) (m : Image) (b : List Byte) (len : Nat) : Bool :=
  let named := namedAttn m.sections b
  let fam := (s.imagesOf t).filter (fun x => family x.id == family m.id && x.id != m.id && !x.unloading)
  let ds := (named.filterMap (fun n => n.desc)).filter (fun d => d.source == 0)
  !(m.lane ≤ 1 && 1 ≤ m.stages && m.stages ≤ 16 && m.stage < m.stages && m.ragged ≤ 1 && (m.beams == 1 || m.beams == 2 || m.beams == 4) &&
    m.rstate % 64 == 0 && m.kwstate % 64 == 0 && m.encCache % 64 == 0 && 1 ≤ m.maxTokens && m.maxTokens ≤ 4096 &&
    1 ≤ m.sections.length && m.sections.length ≤ 1024 && 0x80 + 32 * m.sections.length ≤ len && m.deckleOff < 16777216 &&
    m.sections.all (fun x => x.ok m.mask len) &&
    named.all (fun n => match n.desc with
      | some d => d.ok m.encCache && !(n.append && d.source == 1)
      | none => false) &&
    entriesAgree ((ds.filter (fun d => d.cache == 1)).map (fun d => d.entry) ++ fam.map (fun x => x.decEntry)) &&
    entriesAgree ((ds.filter (fun d => d.cache == 0)).map (fun d => d.entry) ++ fam.map (fun x => x.encEntry)))

/-- Two sections share a byte of a core. -/
def Section.meets (x y : Section) : Bool := x.core == y.core && Span.meets (x.off, x.len) (y.off, y.len)

/-- Two sections of one list share a byte. -/
def overlapWithin : List Section → Bool
  | [] => false
  | x :: l => l.any x.meets || overlapWithin l

/-- Every section held by a loaded image; those of an image being unloaded are held until the boundary (R265, R295). -/
def State.sectionsHeld (s : State) : List Section := s.images.flatMap (fun e => e.2.flatMap (fun m => m.sections))

/-- The image does not fit its chain or family: CHAIN (R264). -/
def State.chainClash (s : State) (t : Nat) (m : Image) : Bool :=
  ((s.imagesOf t).filter (fun x => !x.unloading)).any (fun x =>
    (x.cls == m.cls && (x.stage == m.stage || x.stages != m.stages || x.lane != m.lane || x.ragged != m.ragged)) ||
    (family x.id == family m.id && (x.rstate != m.rstate || x.kwstate != m.kwstate || x.encCache != m.encCache)))

/-- The first refusal of R264 that a fetched image meets; 0 for none. -/
def State.imageCheck (s : State) (t : Nat) (b : List Byte) (len : Nat) : Nat :=
  let m := parseImage b
  let mine := (s.imagesOf t).filter (fun x => !x.unloading)
  if imageMalformed b len then pgBAD_FORMAT
  else if le b 0x18 1 ≠ t then pgTENANCY
  else if m.lane ≤ 1 && (m.mask == 0 || (m.mask &&& laneMask m.lane) != m.mask) then pgLANE
  else if s.imageOut t m b len then pgBOUNDS
  else if overlapWithin m.sections || m.sections.any (fun x => s.sectionsHeld.any x.meets) then pgOVERLAP
  else if mine.any (fun x => x.id == m.id) then pgDUP_ID
  else if s.chainClash t m then pgCHAIN
  else if 64 ≤ mine.length then pgFULL
  else 0

/-! ## Commands (R263, R265) -/

/-- A refused command (R264). -/
def State.progRefuse (s : State) (t code : Nat) : State :=
  ((s.set CORE_PROG_STAT_CODE code t).bump CORE_PROG_REFUSED t).raise PROG_INT_STAT_REFUSED t

/-- The command in progress on a page is over. -/
def State.progClear (s : State) (t : Nat) : State :=
  { (s.set CORE_PROG_STAT_STATE 0 t).set PROG_STAT_BUSY 0 t with progCmds := Map.del t s.progCmds }

/-- A command completes. -/
def State.progDone (s : State) (t : Nat) : State := (s.set CORE_PROG_STAT_CODE 0 t).raise PROG_INT_STAT_DONE t

/-- A fetch begins. -/
def State.progFetch (s : State) (t kind id : Nat) : State :=
  { (s.set CORE_PROG_STAT_STATE 1 t).set PROG_STAT_BUSY 1 t with
    progCmds := Map.put t { kind := kind, addr := s.get2 CORE_PROG_ADDR_LO CORE_PROG_ADDR_HI t, len := s.get CORE_PROG_LEN t, id := id } s.progCmds }

/-- The compute die is up (R669, R670). -/
def State.cdReady (s : State) : Bool := s.flag PKGB_STAT_CD_READY

/-- The page takes a command: none is in progress, and the compute die is up (R263, R670). -/
def State.progIdle (s : State) (t : Nat) : Bool := (Map.find s.progCmds t).isNone && s.cdReady

/-- The fetch address is not aligned (R264, R757). -/
def State.progUnaligned (s : State) (t : Nat) : Bool := s.get CORE_PROG_ADDR_LO t % 64 != 0

/-- LOAD (R263). -/
def State.progLoad (s : State) (t : Nat) : State :=
  if !s.progIdle t then s.progRefuse t pgBUSY
  else if s.progUnaligned t then s.progRefuse t pgBOUNDS
  else s.progFetch t 1 0

/-- PROG_LOAD (R263). -/
def execProgLoad (dt : Nat) (p : Party) (t : Fin 64) (s : State) : Out :=
  s.done ((s.elapse dt).access p .prog t .page (fun u => u.progLoad t))

/-- Change the images of a tenancy that satisfy `c`. -/
def State.modImages (s : State) (t : Nat) (c : Image → Bool) (f : Image → Image) : State :=
  { s with images := Map.put t ((s.imagesOf t).map (fun m => if c m then f m else m)) s.images }

/-- A loaded image that is not being unloaded. -/
def State.loaded (s : State) (t id : Nat) : Option Image := (s.imagesOf t).find? (fun m => m.id == id && !m.unloading)

/-- The image is in use (R265). -/
def State.imageUsed (s : State) (t : Nat) (m : Image) : Bool :=
  let names := fun (i : Option TtImage) => match i with
    | some g => g.runs.any (fun r => r.tenancy == t && r.program == m.id)
    | none => false
  let pend := match s.tt.pend with
    | some q => q.img
    | none => none
  names s.tt.active || names pend ||
  (List.range 64).any (fun c => (spansOn s.slotAllocs c).any (fun x => (pools [m] 5 c ++ pools [m] 6 c).any (fun y => Span.meets x y)))

/-- UNLOAD (R265). -/
def State.progUnload (s : State) (t : Nat) : State :=
  if !s.progIdle t then s.progRefuse t pgBUSY
  else match s.loaded t (s.get CORE_PROG_ID t) with
    | none => s.progRefuse t pgNOT_LOADED
    | some m =>
      if s.imageUsed t m then s.progRefuse t pgIN_USE
      else (s.modImages t (fun x => x.id == m.id) (fun x => { x with unloading := true })).progDone t

/-- PROG_UNLOAD (R265). -/
def execProgUnload (dt : Nat) (p : Party) (t : Fin 64) (s : State) : Out :=
  s.done ((s.elapse dt).access p .prog t .page (fun u => u.progUnload t))

/-- RELOAD (R265): from the next boundary no run of the program is dispatched. -/
def State.progReload (s : State) (t : Nat) : State :=
  let id := s.get CORE_PROG_ID t
  if !s.progIdle t then s.progRefuse t pgBUSY
  else match s.loaded t id with
    | none => s.progRefuse t pgNOT_LOADED
    | some _ =>
      if s.progUnaligned t then s.progRefuse t pgBOUNDS
      else (s.modImages t (fun x => x.id == id) (fun x => { x with reload := 1 })).progFetch t 3 id

/-- PROG_RELOAD (R265). -/
def execProgReload (dt : Nat) (p : Party) (t : Fin 64) (s : State) : Out :=
  s.done ((s.elapse dt).access p .prog t .page (fun u => u.progReload t))

/-- One section is written: its data, then zeros (R260). -/
def State.writeSection (s : State) (b : List Byte) (x : Section) : State :=
  (s.wr .sram (sramAt x.core x.off) ((b.drop x.imgOff).take x.dataLen)).wrZero .sram (sramAt x.core (x.off + x.dataLen)) (x.len - x.dataLen)

/-- A LOAD ends (R263, R264). -/
def State.loadDone (s : State) (t : Nat) (q : ProgCmd) (img : Option (List Byte)) : State :=
  let s := s.progClear t
  match img with
  | none => s.progRefuse t pgFETCH
  | some b =>
    let b := fit q.len b
    let c := s.imageCheck t b q.len
    if c ≠ 0 then s.progRefuse t c
    else
      let m := parseImage b
      let s := m.sections.foldl (fun u x => u.writeSection b x) s
      (({ s with images := Map.put t (s.imagesOf t ++ [m]) s.images }).bump CORE_PROG_LOADS t).progDone t

/-- A new image matches the loaded one in every header field but LENGTH and CRC, and in its section table (R265). -/
def sameShape (m n : Image) : Bool :=
  decide ({ m with usable := false, unloading := false, reload := 0, decEntry := 0, encEntry := 0, encCap := 0, encWin := 0 } =
    { n with usable := false, unloading := false, reload := 0, decEntry := 0, encEntry := 0, encCap := 0, encWin := 0 })

/-- The fetch of a RELOAD ends (R264, R265): BAD_FORMAT, MISMATCH, then the rules of R334. -/
def State.reloadFetched (s : State) (t : Nat) (q : ProgCmd) (img : Option (List Byte)) : State :=
  let fail := fun (code : Nat) => ((s.modImages t (fun x => x.id == q.id) (fun x => { x with reload := 0 })).progClear t).progRefuse t code
  match img, s.loaded t q.id with
  | some b, some m =>
    let b := fit q.len b
    let n := parseImage b
    if imageMalformed b q.len then fail pgBAD_FORMAT
    else if le b 0x18 1 ≠ t || !sameShape m n then fail pgMISMATCH
    else if s.imageOut t n b q.len then fail pgBOUNDS
    else { s.set CORE_PROG_STAT_STATE 3 t with progCmds := Map.put t { q with kind := 4, img := b } s.progCmds }
  | none, _ => fail pgFETCH
  | _, none => fail pgNOT_LOADED

/-- PROG_LOAD_DONE (R263): nothing happens where no image is being fetched. -/
def execProgLoadDone (dt : Nat) (t : Fin 64) (img : Option (List Byte)) (s : State) : Out :=
  let u := s.elapse dt
  s.done (match Map.find u.progCmds t with
    | some q => if !u.mayRequest t then u else if q.kind = 1 then u.loadDone t q img else if q.kind = 3 then u.reloadFetched t q img else u
    | none => u)

/-- A program of the tenancy runs, executing or suspended (R265). -/
def State.programRuns (s : State) (t id : Nat) : Bool := s.runs.any (fun r => r.rcd.tenancy == t && r.rcd.program == id)

/-- The sections of a quiet program are rewritten (R265): kinds 1 to 4. -/
def State.reloadWrite (s : State) (t : Nat) (q : ProgCmd) : State :=
  let n := parseImage q.img
  let s := (n.sections.filter (fun x => x.kind ≤ 4)).foldl (fun u x => u.writeSection q.img x) s
  let s := s.modImages t (fun x => x.id == q.id)
    (fun x => { x with reload := 3, decEntry := n.decEntry, encEntry := n.encEntry, encCap := n.encCap, encWin := n.encWin })
  ((s.progClear t).bump CORE_PROG_LOADS t).progDone t

/-- PROG_RELOAD_QUIET (R265): nothing happens while dispatch has not stopped or a run of the program stands. -/
def execProgReloadQuiet (dt : Nat) (t : Fin 64) (s : State) : Out :=
  let u := s.elapse dt
  s.done (match Map.find u.progCmds t with
    | some q =>
      if q.kind = 4 && !u.programRuns t q.id && (u.loaded t q.id).any (fun m => m.reload == 2) then u.reloadWrite t q else u
    | none => u)

/-- What a boundary does to images: unloaded ones go, written ones are usable, reloads begin and end (R263, R265). -/
def State.imagesBoundary (s : State) : State :=
  { s with images := s.images.map (fun e => (e.1, (e.2.filter (fun m => !m.unloading)).map (fun m =>
      { m with usable := true, reload := if m.reload = 1 then 2 else if m.reload = 3 then 0 else m.reload }))) }

end Sys2Proof.Machine
end

