-- ==== Sys2Proof/Machine/Runs.lean ====
section
/-! DEFINITION. Machine/Runs.lean: runs, their dispatch, suspension, faults and stage ends; siding of cores (R54 to R58, R267 to R298). -/
namespace Sys2Proof.Machine

/-! ## Runs and cores -/

/-- The active image runs in shared mode (R57). -/
def State.shared (s : State) : Bool := s.tt.active.any (fun g => g.mode == 1)

/-- Change a run. -/
def State.modRun (s : State) (id : Nat) (f : Run → Run) : State :=
  { s with runs := s.runs.map (fun r => if r.id = id then f r else r) }

/-- A run by its number. -/
def State.runBy (s : State) (id : Nat) : Option Run := s.runs.find? (fun r => r.id == id)

/-- The image a run executes. -/
def State.runImage (s : State) (r : Run) : Option Image := s.image r.rcd.tenancy r.rcd.program

/-- Cores of a run. -/
def Run.cores (r : Run) : List Nat := maskList r.rcd.coreMask 64

/-- The run has left its cores' instruction streams: every core has met END (R271). -/
def Run.over (r : Run) : Bool := (r.ended &&& r.rcd.coreMask) == r.rcd.coreMask

/-- The run that holds a core: it has started, is not suspended, and names the core (R57, R270). -/
def Run.holds? (r : Run) (mask : Nat) : Bool := r.started && !r.suspended && (r.rcd.coreMask &&& mask) != 0
def State.holderOf (s : State) (core : Nat) : Option Run := s.runs.find? (fun r => r.holds? (two core))

/-- Waiting runs start, in order, where no run holds a core they name (R57, R270). DEDUCED (assumption 36): a waiting run holds nothing, so a
later one whose cores are all free starts before it. -/
def startGo : List Run → List Run → List Run
  | before, [] => before
  | before, r :: l =>
    let busy := (before ++ l).any (fun x => x.holds? r.rcd.coreMask)
    startGo (before ++ [if r.started || r.suspended || busy then r else { r with started := true }]) l
def State.startRuns (s : State) : State := { s with runs := startGo [] s.runs }

/-- Cores the debug gate halts (R617). -/
def State.halted (s : State) (core : Nat) : Bool :=
  let o := s.get DBGG_STAT_OPEN
  (bit o 5 || bit o 6) && bit (s.get DBG_HALT_LO + two 32 * s.get DBG_HALT_HI) core

/-- A tenancy stopped by the ledger (R582). -/
def State.stoppedT (s : State) (t : Nat) : Bool := s.flag LEDT_STAT_STOPPED t

/-- The part of the machine that executes instructions works: the compute die is up and the couch link carries messages. -/
def State.dieUp (s : State) : Bool := s.cdReady && s.couchUp

/-- The run that executes on a core now: it holds its cores, its stream there has not ended, stopped or waits, and nothing has stopped the core
(R270, R275, R519, R582, R617). -/
def State.runOn (s : State) (core : Nat) : Option Run :=
  match s.holderOf core with
  | none => none
  | some r =>
    if s.dieUp && !bit r.ended core && !bit r.barrier core && !r.stops.any (fun m => bit m core) &&
       (Map.find r.waits core).isNone && !bit s.pwr.stopped core && !s.halted core && !s.stoppedT r.rcd.tenancy then some r else none

/-- The core allocation of a row on a lane (R266). -/
def State.rowAlloc (s : State) (lane slot : Nat) : Option Alloc := if lane = 0 then (s.slot slot).home else (s.slot slot).listen

/-- The record that a row of a run stands for, if the stream still has it. -/
def State.rowChunk (s : State) (r : Run) (w : Row) : Option Chunk :=
  (s.slot w.slot).chunks.find? (fun c => c.k == w.k && decide (c.stage = .running r.stage r.id) && c.status.isNone)

/-! ## Trace (R617) -/

/-- Events of a trace record. -/
def trDISPATCH : Nat := 1
def trSUSPEND : Nat := 2
def trRESUME : Nat := 3
def trEND : Nat := 4
def trSKIP : Nat := 5

/-- Write a trace record while TRACE is open. -/
def State.trace (s : State) (rcd : RunRec) (ev slot : Nat) : State :=
  let o := s.get DBGG_STAT_OPEN
  if bit o 0 || bit o 6 then
    let w := s.get DBG_TRACE_WR
    let b := record [(8, s.cnt), (4, rcd.program), (1, rcd.tenancy), (1, ev), (1, slot), (1, rcd.lane)]
    { s.set DBG_TRACE_WR (w + 1) with iso := { s.iso with trace := Map.put (w % 256) b s.iso.trace } }
  else s

/-! ## Faults (R275, R282, R292) -/

/-- Codes of CORE_FAULT (R298). -/
def cfILLEGAL : Nat := 1
def cfPOISON : Nat := 2
def cfACCESS : Nat := 3
def cfLEN : Nat := 4
def cfCOUCH : Nat := 5

/-- A core records a fault of a run (R275, R292). -/
def State.coreRecord (s : State) (core code : Nat) (rcd : RunRec) : State :=
  (((s.set CORE_FAULT_CODE code core).set CORE_FAULT_TENANCY rcd.tenancy core).set CORE_FAULT_PROG rcd.program core
    |>.set2 CORE_FAULT_TIME_LO CORE_FAULT_TIME_HI s.cnt core).raise CORE_INT_STAT_FAULT core

/-- Fault codes of R102. -/
def sfPOISON : Nat := 1
def sfFELT : Nat := 3
def sfRUN : Nat := 4

/-- A row of a run faults with its chunk at the next boundary, unless the stream has moved on (R102, R293). -/
def State.rowFaults (s : State) (r : Run) (w : Row) (code : Nat) : State :=
  if w.fault.isSome then s
  else
    let s := s.modRun r.id (fun x => { x with rows := x.rows.map (fun y => if y.slot = w.slot then { y with fault := some code } else y) })
    s.onlyIf (s.rowChunk r w).isSome (fun t => t.faultAt w.slot code w.k)

/-- A run leaves the machine: its holds end (R342), and runs that waited for its cores start. -/
def State.dropRun (s : State) (r : Run) : State :=
  (({ s with runs := s.runs.filter (fun x => x.id ≠ r.id) }).unholdPages r.holds).startRuns

/-- Cores of a run that are in no instruction: their stream has ended or waits, or something has stopped them; all of them where the run does
not hold its cores. -/
def State.idleCores (s : State) (r : Run) : List Nat :=
  r.cores.filter (fun c => r.suspended || !r.started || bit r.ended c || bit r.barrier c || (Map.find r.waits c).isSome || bit s.pwr.stopped c || s.halted c)

/-- A core of a run that stops has come to a tile-instruction boundary; with the last one the run leaves (R275). -/
def State.coreStops (s : State) (id core : Nat) : State :=
  match s.runBy id with
  | none => s
  | some r =>
    let m := (core :: s.idleCores r).foldl (fun n c => n ||| two c) (r.stops.getD 0)
    if r.cores.all (bit m) then (s.trace r.rcd trEND r.first).dropRun r
    else s.modRun id (fun x => { x with stops := some m })

/-- What the first core fault of a run does besides the core's record (R275, R543). -/
def State.runFaults (s : State) (r : Run) (code : Nat) : State :=
  let t := r.rcd.tenancy
  let s := (s.bump CORE_RUN_FAULTS t).raise PROG_INT_STAT_RUN_FAULT t
  let s := s.onlyIf (code == cfPOISON) (fun u => (u.bumpSat MEM_T_RUN_FAULTS t).raise MEMT_INT_STAT_RUN_FAULT t)
  ((s.runBy r.id).map (fun x => x.rows)).getD [] |>.foldl (fun u w => u.rowFaults r w sfRUN) s

/-- A core fault met by `core` (R275): the core records it, the rows fault, and the run stops on each core at its next tile-instruction
boundary, where another core may still meet and record a fault of its own. -/
def State.coreFault (s : State) (r : Run) (core code : Nat) : State :=
  let t := r.rcd.tenancy
  let first := ((s.runBy r.id).bind (fun x => x.stops)).isNone
  let s := (s.coreRecord core code r.rcd).bump CORE_FAULTS core
  let s := s.onlyIf (code == cfACCESS) (fun u => ((u.bump ISO_T_ACCESS t).bump ISO_DENIED).raise ISOT_INT_STAT_DENIED t)
  (s.onlyIf first (fun u => u.runFaults r code)).coreStops r.id core

/-- The run still goes on at a core: no fault has stopped it there. -/
def State.onRun (s : State) (id core : Nat) : Option Run := (s.runBy id).filter (fun r => !r.stops.any (fun m => bit m core))

/-! ## Reads of a run (R254, R543) -/

/-- Sections of an image on a core. -/
def Image.on (m : Image) (core : Nat) : List Section := m.sections.filter (fun x => x.core == core)

/-- Bytes `off … off + n − 1` lie in sections, one after another. -/
def coveredBy (l : List Section) : Nat → Nat → Nat → Bool
  | 0, _, n => n == 0
  | fuel + 1, off, n =>
    n == 0 || (match l.find? (fun x => x.off ≤ off && off < x.off + x.len) with
      | some x => off + n ≤ x.off + x.len || coveredBy l fuel (x.off + x.len) (n - (x.off + x.len - off))
      | none => false)

/-- A range of a core lies in the image's sections (R261). -/
def Image.holds (m : Image) (core off n : Nat) : Bool := coveredBy (m.on core) ((m.on core).length + 1) off n

/-- The row of a run whose own allocation holds an address of a core (R543). -/
def Run.rowAt (r : Run) (core off : Nat) : Option Row :=
  r.rows.find? (fun w => w.alloc.any (fun a =>
    a.core == core && (inSpan off a.off a.frame || inSpan off a.cacheOff a.cacheLen)))

/-- A row of a tenancy faults with STATE_POISON (chapter 13, the tenancy page's MEM_T_ROW_FAULTS and INT_STAT.ROW_FAULT). -/
def State.rowPoisoned (s : State) (t : Nat) : State := (s.bumpSat MEM_T_ROW_FAULTS t).raise MEMT_INT_STAT_ROW_FAULT t

/-- What becomes of an uncorrectable SRAM word that a run computes with, as its record tells it (R543, R558). -/
def Run.verdict (r : Run) (d : Damage) : Verdict :=
  match r.rowAt d.unit d.addr with
  | some w => { action := acROW_FAULT, slot := w.slot, source := srRUN_READ }
  | none => { action := acRUN_FAULT, arg := r.rcd.program, source := srRUN_READ }

/-- An uncorrectable SRAM word that a run computes with: its row faults, or the run stops (R275, R543). -/
def State.runMet (s : State) (r : Run) (core : Nat) (d : Damage) : State :=
  match r.rowAt d.unit d.addr with
  | some w => (s.onlyIf w.fault.isNone (fun u => u.rowPoisoned r.rcd.tenancy)).rowFaults r w sfPOISON
  | none => s.coreFault r core cfPOISON

/-- The same for one that a read finds: it is counted and recorded. -/
def State.runMeets (s : State) (id core : Nat) (d : Damage) : State :=
  match s.onRun id core with
  | none => s
  | some r => (s.countUE d (r.verdict d)).runMet r core d

/-- A run stores bytes: each uncorrectable word that they cover in part is met as by a read (R548, R549). -/
def State.runWrites (s : State) (id core a : Nat) (data : List Byte) : State :=
  match s.onRun id core with
  | none => s.wr .sram a data
  | some r =>
    (s.partBad .sram a data.length).foldl (fun u d => match u.onRun id core with
      | some x => u.runMet x core d
      | none => u) (s.wrWith .sram a data r.verdict)

/-- A run reads `n` bytes of a core's SRAM (R540, R543). -/
def State.runReads (s : State) (id core unit off n : Nat) : State :=
  let s := s.demand .sram (sramAt unit off) n
  (s.poisonIn .sram (sramAt unit off) n).foldl (fun u d => u.runMeets id core d) s

/-- A row reads `n` bytes of a felt page (R370, R543). -/
def State.rowReadsFelt (s : State) (id slot a n : Nat) : State :=
  let s := s.demand .felt a n
  (s.poisonIn .felt a n).foldl (fun u d =>
    match u.runBy id with
    | none => u
    | some r =>
      match r.rows.find? (fun w => w.slot == slot) with
      | some w =>
        let u := u.countUE d { action := acROW_FAULT, slot := w.slot, source := srRUN_READ }
        (u.onlyIf w.fault.isNone (fun x => x.rowPoisoned r.rcd.tenancy)).rowFaults r w sfPOISON
      | none => u) s

/-- A row of a run still goes on: the run stands and the row has not faulted. -/
def State.rowLive (s : State) (id slot : Nat) : Bool :=
  (s.runBy id).any (fun r => r.rows.any (fun w => w.slot == slot && w.fault.isNone))

/-! ## Dispatch (R268 to R270, R276 to R278, R287, R291, R292) -/

/-- A row that a run could take: slot, chunk, tick it is due, and when it became eligible. -/
structure Cand where
  slot : Nat
  c : Chunk

/-- The order of R268. -/
def Cand.before (x y : Cand) : Bool :=
  x.c.deadline < y.c.deadline || (x.c.deadline == y.c.deadline &&
    (x.c.since < y.c.since || (x.c.since == y.c.since && x.slot < y.slot)))
def insertCand (x : Cand) : List Cand → List Cand
  | [] => [x]
  | y :: l => if x.before y then x :: y :: l else y :: insertCand x l

/-- Eligible chunks of a tenancy's class on a lane, at one stage or any (R267, R268). -/
def State.eligible (s : State) (t lane cls : Nat) (stage : Option Nat) : List Cand :=
  (s.slots.flatMap (fun e =>
    if !s.inRange t e.1 || e.2.faultDue.isSome then []
    else (e.2.chunks.filter (fun c =>
      c.trans == (lane == 0) && (if lane = 0 then e.2.par.transClass else e.2.par.listenClass) == cls && c.status.isNone &&
      (match c.stage with
        | .eligible k => stage.all (fun g => g == k)
        | _ => false))).map (fun c => { slot := e.1, c := c }))).foldl (fun l x => insertCand x l) []

/-- A row's length (R277): frames per chunk in stage 0, NEXT_LEN after. -/
def State.rowLen (s : State) (lane stage : Nat) (x : Cand) : Nat :=
  if stage = 0 then s.framesPerChunk (s.slot x.slot).par.chunk
  else match s.rowAlloc lane x.slot with
    | some a => s.rdLe .sram (sramAt a.core a.off) 4
    | none => 0

/-- The deckle table of rows, in order (R276 to R278). -/
def deckle (ragged stage : Nat) (lens : List (Nat × Nat)) : List Byte :=
  let total := (lens.map (fun x => x.2)).foldl (· + ·) 0
  let longest := (lens.map (fun x => x.2)).foldl max 0
  let groups := if ragged = 0 then ceilDiv (lens.length * longest) 32 else ceilDiv total 32
  let entries := lens.foldl (fun (q : List Byte × Nat × Nat) x =>
    (q.1 ++ record [(2, x.1), (2, x.2), (4, if ragged = 0 then q.2.1 * longest else q.2.2)], q.2.1 + 1, q.2.2 + x.2)) ([], 0, 0)
  record [(2, lens.length), (1, ragged), (1, stage), (4, total), (2, longest), (2, 0), (4, groups)] ++ entries.1

/-- The deckle table is written on every core of the run (R270). -/
def State.putDeckle (s : State) (r : Run) (m : Image) : State :=
  let t := deckle m.ragged m.stage (r.rows.map (fun w => (w.slot, w.len)))
  r.cores.foldl (fun u c => u.wr .sram (sramAt c m.deckleOff) t) s

/-- A core's nonlinearity tables: 4 × 1,025 signed 16-bit entries from the NLTAB section (R253). -/
def State.loadTab (s : State) (id : Nat) (m : Image) (c : Nat) : State :=
  match (m.on c).find? (fun x => x.kind == 3) with
  | none => s
  | some x =>
    let s := s.runReads id c c x.off 8200
    let tab := (List.range 4100).map (fun i => toS 16 (s.rdLe .sram (sramAt c (x.off + 2 * i)) 2))
    if (s.onRun id c).isSome then { s with cellTabs := Map.put c tab s.cellTabs } else s

/-- Tables load when a run is dispatched and when it resumes (R253, R270). -/
def State.loadTabs (s : State) (id : Nat) (m : Image) (cores : List Nat) : State := cores.foldl (fun u c => u.loadTab id m c) s

/-- The context area of a run's SCRATCH section on a core (R260, R272). -/
def Image.scratch (m : Image) (core : Nat) : Option Section := (m.on core).find? (fun x => x.kind == 7)

/-- The dispatch window of a run, once it holds its cores: its deckle table is written, or after a suspension its contexts are loaded again, and
its tables are loaded (R253, R270, R272). -/
def State.openRun (s : State) (r : Run) (m : Image) : State :=
  let s := s.modRun r.id (fun x => { x with opened := true })
  let s := if !r.saved then s.putDeckle r m
    else r.cores.foldl (fun (u : State) c => match m.scratch c with
      | some x => u.runReads r.id c c x.off 20480
      | none => u) s
  if (s.runBy r.id).isSome then s.loadTabs r.id m r.cores else s

/-- The window begins at once where the run holds its cores; else when they are free (R270). -/
def State.openIfFree (s : State) (id : Nat) (m : Image) : State :=
  match s.runBy id with
  | some r => if r.started && !r.opened then s.openRun r m else s
  | none => s

/-- A row that is too long, or whose header cannot be read, is left out (R292, R543). -/
def State.leaveOut (s : State) (rcd : RunRec) (x : Cand) : State :=
  let low := (maskList rcd.coreMask 64).head?.getD 0
  (s.coreRecord low cfLEN rcd).faultAt x.slot sfRUN x.c.k

/-- The epoch a row's commit carries: the current one, or the scheduler's from before the pass while an EXPORT is in progress (R91, R107). -/
def Slot.runEpoch (q : Slot) : Nat :=
  match q.exp with
  | some e => e.oldEpoch
  | none => q.epoch

/-- Start a run with rows (R268 to R270, R342). -/
def State.launch (s : State) (m j : Nat) (rcd : RunRec) (g : Image) (rows : List (Cand × Nat)) : State :=
  let id := s.nextRun
  let mk := fun (x : Cand × Nat) =>
    let q := s.slot x.1.slot
    ({ slot := x.1.slot, epoch := q.runEpoch, k := x.1.c.k, cur := q.cur, len := x.2, alloc := s.rowAlloc rcd.lane x.1.slot } : Row)
  let holds := if rcd.lane = 0 then rows.flatMap (fun x => (s.slot x.1.slot).committed.pages) else []
  let r : Run := { id := id, rcd := rcd, stage := g.stage, final := g.stage + 1 == g.stages, tick := m, first := j,
                   until_ := some (s.slotAt m (j + rcd.slots)), rows := rows.map mk, holds := holds }
  let s := ({ s with runs := s.runs ++ [r], nextRun := id + 1 }).startRuns
  let s := rows.foldl (fun u x => u.modChunks x.1.slot (fun c => c.same x.1.c) (fun c => { c with stage := .running g.stage id })) s
  let s := r.cores.foldl (fun u c => u.bump CORE_RUNS c) s
  let s := (s.bump CORE_ROWS rcd.tenancy 0 rows.length).holdPages holds
  (s.trace rcd trDISPATCH j).openIfFree id g

/-- A core is in service (R285). -/
def State.inService (s : State) (core : Nat) : Bool := s.get CORE_STAT_STATE core == 0

/-- A run record placed at slot j of tick m (R268, R287, R291, R292, R582). -/
def State.dispatch (s : State) (m j lane : Nat) (rcd : RunRec) : State :=
  let t := rcd.tenancy
  let im := s.image t rcd.program
  let cands := s.eligible t lane rcd.cls (im.map (fun g => g.stage))
  if cands.isEmpty then s
  else match im.filter (fun g => g.usable && !g.unloading && g.reload < 2 && g.lane == lane) with
    | none => ((s.bump CORE_NO_PROG t).raise PROG_INT_STAT_NO_PROG t).trace rcd trSKIP j
    | some g =>
      if !(maskList rcd.coreMask 64).all s.inService then
        ((s.bump CORE_RUN_SKIPPED t).raise PROG_INT_STAT_RUN_SKIPPED t).trace rcd trSKIP j
      else if s.stoppedT t then s
      else
        let rows := (cands.take rcd.maxRows).map (fun x => (x, s.rowLen lane g.stage x))
        let long := rows.filter (fun x => g.maxTokens < x.2)
        let s := long.foldl (fun u x => u.leaveOut rcd x.1) s
        let keep := rows.filter (fun x => x.2 ≤ g.maxTokens)
        if keep.isEmpty then s else s.launch m j rcd g keep

/-- Runs may start: the timetable runs, the part is not in STANDBY or FATAL, and the compute die works (R63, R509, R557, R670). -/
def State.mayDispatch (s : State) : Bool := s.running && !s.standby && !s.fatal && s.dieUp

/-- Every run placed at slot j of tick m, main lane first (R54, R268). -/
def State.dispatchSlot (s : State) (m j : Nat) : State :=
  match s.tt.active with
  | none => s
  | some g =>
    let s := (g.runsAt m 0 j).foldl (fun u r => if u.mayDispatch then u.dispatch m j 0 r else u) s
    (g.runsAt m 1 j).foldl (fun u r => if u.mayDispatch then u.dispatch m j 1 r else u) s

/-! ## Suspension and resumption (R56, R57, R272, R519, R521) -/

/-- A core saves its 20 KiB context (R272). -/
def State.saveContext (s : State) (m : Image) (c : Nat) : State :=
  match m.scratch c with
  | some x =>
    let d := s.draw
    d.2.wr .sram (sramAt c x.off) ((List.range 20480).map (Config.contextByte d.1))
  | none => s

/-- A run is suspended on every core (R272), and saves its contexts where it has begun; one that a core fault stops leaves instead (R294). -/
def State.suspend (s : State) (r : Run) : State :=
  if r.stops.isSome then (s.trace r.rcd trEND r.first).dropRun r
  else
    let s := s.modRun r.id (fun x => { x with suspended := true, started := false, opened := false, saved := r.saved || r.opened })
    let s := r.cores.foldl (fun u c => u.bump CORE_SUSPENDS c) s
    let s := match s.runImage r with
      | some m => s.onlyIf r.opened (fun v => r.cores.foldl (fun (u : State) c => u.saveContext m c) v)
      | none => s
    (s.trace r.rcd trSUSPEND r.first).startRuns

/-- A suspended run continues: tables and context are loaded again, and it waits where a run holds one of its cores (R57, R270, R272). -/
def State.resumeRun (s : State) (r : Run) : State :=
  let x : Run := { r with suspended := false, until_ := none }
  let s : State := ({ s with runs := s.runs.filter (fun (y : Run) => y.id ≠ r.id) ++ [x] }).startRuns
  let s := s.trace r.rcd trRESUME r.first
  match s.runImage r with
  | none => s
  | some m => s.openIfFree r.id m

/-- Nothing but its placement keeps a suspended run from going on. -/
def State.mayResume (s : State) (r : Run) : Bool :=
  r.suspended && s.dieUp && !s.stoppedT r.rcd.tenancy && r.cores.all (fun c => !bit s.pwr.stopped c && !s.halted c)

/-- The runs that slot j resumes: in fixed mode those whose tenancy owns the slot in their lane; otherwise all (R57, R272, R509). -/
def State.resumeAt (s : State) (j : Nat) : State :=
  (s.runs.filter (fun r => s.mayResume r && (s.standby || s.shared ||
    s.tt.active.any (fun g => g.ownerOf r.rcd.lane j == r.rcd.tenancy)))).foldl (fun u r => u.resumeRun r) s

/-- The timetable has come to slot j of tick m: the slots before j have started. -/
def State.atSlot (s : State) (m j : Nat) : State := { s with tt := { s.tt with tick := m, nextSlot := j } }

/-- Slot j of tick m starts (R268). The intake is taken at its slot (R50); suspended runs resume, and runs placed here are dispatched. -/
def State.startSlot (s : State) (m j : Nat) : State :=
  let s := (s.reach (s.slotAt m j)).atSlot m (j + 1)
  let s := s.onlyIf (j == s.get TT_INTAKE_SLOT) (fun u => u.takeIntake m)
  ((s.resumeAt j).dispatchSlot m j).atSlot m (j + 1)

/-- The next slot of the tick in progress starts; after the last one nothing does until the boundary (R47, R268). -/
def State.slotStart (s : State) : State := if 64 ≤ s.tt.nextSlot then s else s.startSlot s.tt.tick s.tt.nextSlot

/-- SLOT_START (R268). -/
def execSlotStart (s : State) : Out := s.done (if s.pkg.sdUp then s.slotStart else s)

/-- A fixed-mode run has reached the end of its placement, or of the owned slots it resumed in (R56, R272). -/
def State.placementOver (s : State) (r : Run) : Bool :=
  !r.suspended && !r.over && !s.shared && !s.standby &&
  (match r.until_ with
    | some t => t ≤ s.slotAt s.tt.tick s.tt.nextSlot
    | none => !s.tt.active.any (fun g => g.ownerOf r.rcd.lane (s.tt.nextSlot % 64) == r.rcd.tenancy))

/-- PLACEMENT_END (R56): nothing happens where no placement has ended. -/
def State.placementEnd (s : State) : State :=
  match s.runs.find? s.placementOver with
  | none => s
  | some r =>
    let s := s.reach (r.until_.getD (s.slotAt s.tt.tick s.tt.nextSlot))
    (s.onlyIf r.stops.isNone (fun u => (u.bump TT_OVERRUN).raise TT_INT_STAT_OVERRUN)).suspend r

/-- PLACEMENT_END (R56). -/
def execPlacementEnd (s : State) : Out := s.done s.placementEnd

/-- A run is stopped at a tile-instruction boundary by the governor or the limiter (R519, R521). -/
def State.cutRun (s : State) (r : Run) : State :=
  let s := (s.suspend r).bump PWR_RUNS_CUT r.rcd.tenancy
  { s with pwr := { s.pwr with cut := true } }

/-! ## Instructions (R261, R262, R273) -/

/-- Cycles of an instruction are counted against BUDGET (R273) and, on the main lane, the core's allowance (R519). -/
def State.spend (s : State) (r : Run) (core cycles : Nat) : State :=
  let n := Map.get r.cycles core 0 + cycles
  let ovr := r.rcd.budget < n && !r.overBudget
  let s := s.modRun r.id (fun x => { x with cycles := Map.put core n x.cycles, overBudget := x.overBudget || ovr })
  let s := s.onlyIf ovr (fun t => r.cores.foldl (fun u c => (u.bump CORE_BUDGET_OVER c).raise CORE_INT_STAT_BUDGET_OVER c) t)
  s.onlyIf (r.rcd.lane == 0) (fun t => { t with pwr := { t.pwr with used := Map.put core (Map.get t.pwr.used core 0 + cycles) t.pwr.used } })

/-- The 32 bytes of the instruction that a core of a run reaches next (R261); none at the end of its CODE section. -/
def State.nextWord (s : State) (r : Run) (m : Image) (core : Nat) : Option (Nat × List Byte) :=
  let p := Map.get r.pos core 0
  match (m.on core).find? (fun x => x.kind == 1) with
  | some x => if p + 32 ≤ x.len then some (x.off + p, s.rdBytes .sram (sramAt core (x.off + p)) 32) else none
  | none => none

/-- OPCODE and the other fields of an instruction's bytes (R261). -/
def insOf (b : List Byte) : Nat × Ins :=
  (le b 0 1, { flags := le b 1 1, sub := le b 2 2, cycles := le b 4 4, a := le b 8 4, b := le b 0xC 4, c := le b 0x10 4, d := le b 0x14 4,
               e := le b 0x18 4, f := le b 0x1C 4 })

/-- OPCODE and SUB are listed (R262). -/
def insListed (op sub : Nat) : Bool :=
  if op = 0x10 then sub ≤ 13
  else if op = 0x11 then sub ≤ 2
  else [1, 2, 3, 4, 0x20, 0x21, 0x22, 0x23, 0x24, 0x25, 0x30, 0x3F].contains op && sub == 0

/-- A core of the run passes the instruction it has read (R261). -/
def State.fetch (s : State) (r : Run) (core : Nat) : State :=
  s.modRun r.id (fun y => { y with pos := Map.put core (Map.get y.pos core 0 + 32) y.pos })

/-- After an instruction on a core whose run stops, the core has come to its boundary (R275). -/
def State.afterIns (s : State) (id core : Nat) : State :=
  match s.runBy id with
  | some x => if x.stops.any (fun m => !bit m core) then s.coreStops id core else s
  | none => s

/-- A core that executes in run r reaches the instruction with the fields `i` (R261, R262, R275): no further bytes, an opcode or SUB
not listed, or an instruction that is not valid stop the run with ILLEGAL, an uncorrectable word of it with POISON. -/
def State.execute (s : State) (r : Run) (m : Image) (core : Nat) (i : Ins) (valid : Image → Bool) (act : State → Run → Image → State) : State :=
  match s.nextWord r m core with
  | none => s.coreFault r core cfILLEGAL
  | some w =>
    let s := s.runReads r.id core core w.1 32
    if (s.onRun r.id core).isNone then s
    else
      if !insListed (insOf w.2).1 (insOf w.2).2.sub || !valid m then s.coreFault r core cfILLEGAL
      else
        let s := (s.fetch r core).spend r core i.cycles
        match s.onRun r.id core with
        | some x => (act s x m).afterIns r.id core
        | none => s

/-- The core's next instruction is `i` with opcode `op`, or no instruction, or none that the table lists, or it cannot be read: the command is
what the core reaches (R261, R262). -/
def State.meets (s : State) (r : Run) (m : Image) (core op : Nat) (i : Ins) : Bool :=
  match s.nextWord r m core with
  | none => true
  | some w => insOf w.2 == (op, i) || !insListed (insOf w.2).1 (insOf w.2).2.sub || s.poisoned .sram (sramAt core w.1) 32

/-- A core executes an instruction of its run. Where none executes there, or the bytes of its CODE section spell another instruction, the command
is not what the core reaches, and nothing happens. -/
def State.onCore (s : State) (core op : Nat) (i : Ins) (valid : Image → Bool) (act : State → Run → Image → State) : State :=
  match s.runOn core with
  | none => s
  | some r =>
    match s.runImage r with
    | none => s
    | some m =>
      if !s.meets r m core op i then s
      else
        let s := ({ s with actor := some core }).openIfFree r.id m
        match s.onRun r.id core with
        | some x => s.execute x m core i valid act
        | none => s

/-- FLAGS of an instruction without PER_ROW; and with (R261, R262). -/
def insPlain (i : Ins) : Bool := i.flags ≤ 1
def insPerRow (i : Ins) : Bool := bit i.flags 1
def insVec (i : Ins) : Bool := i.flags ≤ 3

/-- CYCLES of an instruction of fixed length (R262). -/
def insFixed (i : Ins) (least : Nat) : Bool := 1 ≤ i.cycles && i.cycles ≤ 2000 && least ≤ i.cycles

/-! ### BARRIER and END (R262, R271, R274, R317) -/

/-- BARRIER has no operands. -/
def barrierOk (i : Ins) : Bool := insPlain i && i.sub == 0 && i.cycles == 0 && i.a == 0 && i.b == 0 && i.c == 0 && i.d == 0 && i.e == 0 && i.f == 0

/-- Core cycles, at 1.2 GHz, that `ns` last: an instruction of open length takes the time its unit needs, and BUDGET covers it (R262, R273). -/
def openCycles (ns : Nat) : Nat := ns * 6 / 5

/-- The cores of a run pass the BARRIER together; the time each waited is part of its instruction (R262, R273). -/
def State.passBarrier (s : State) (r : Run) : State :=
  let s := s.modRun r.id (fun x => { x with barrier := 0, barrierAt := [] })
  r.barrierAt.foldl (fun u e => match u.runBy r.id with
    | some x => u.spend x e.1 (openCycles (u.cnt - e.2))
    | none => u) s

/-- A core reaches a BARRIER; when every core of the mask has, they all pass (R262). -/
def State.atBarrier (s : State) (r : Run) (core : Nat) : State :=
  let b := r.barrier ||| two core
  let x := { r with barrier := b, barrierAt := Map.put core s.cnt r.barrierAt }
  let s := s.modRun r.id (fun _ => x)
  if (b ||| r.ended) &&& r.rcd.coreMask = r.rcd.coreMask && r.ended = 0 then s.passBarrier x else s

/-- BARRIER (R262). -/
def execBarrier (core : Fin 64) (i : Ins) (s : State) : Out :=
  s.done (s.onCore core 0x30 i (fun _ => barrierOk i) (fun u r _ => u.atBarrier r core))

/-- The numeric status record of an image on a core (R317). -/
def State.addStatus (s : State) (m : Image) (core : Nat) (counts : List Nat) : State :=
  match m.scratch core with
  | none => s
  | some x =>
    if counts.all (fun n => n == 0) then s
    else
      let a := sramAt core (x.off + 0x5000)
      let new := (List.range 8).map (fun i => (4, min (two 32 - 1) (s.rdLe .sram (a + 4 * i) 4 + counts.getD i 0)))
      s.wr .sram a (record new)

/-- A keyword detection in tick `tick` is reported, and in LISTEN may ask for a promotion, by the earliest s_w since LISTEN was entered (R96,
R97). -/
def State.wakes (s : State) (i tick : Nat) (w : Nat × Nat × Int) : State :=
  let t := s.tenancyOf i
  let q := s.slot i
  let s := s.event i 1 tick w.1 (w.2.1 % two 32 + two 32 * ofS 32 w.2.2) 0
  let listens := q.state == .listen
  let auto := listens && q.par.autoPromote && s.flag STR_CTL_AUTO_PROMOTE_EN t
  let s := s.modSlot i (fun q => { q with
    wake := if listens then some (match q.wake with
      | some v => min v w.1
      | none => w.1) else q.wake,
    promoteAt := if auto then some (q.promoteAt.getD s.nextTick) else q.promoteAt,
    cnt := { q.cnt with wakes := q.cnt.wakes + 1 } })
  (s.bump STR_WAKES t).raise STR_INT_STAT_WAKE t

/-- A keyword run's detections are reported in its tick, at its end, for a chunk that the stream still has (R96). -/
def State.rowWakes (s : State) (r : Run) (x : Row × RowEnd) : State :=
  s.onlyIf (r.rcd.lane == 1 && (s.rowChunk r x.1).isSome) (fun u => x.2.wake.foldl (fun v w => v.wakes x.1.slot r.tick w) u)

/-- The message a row of a final stage sends (R274). -/
def rowMsg (r : Run) (m : Image) (w : Row) (e : RowEnd) : CommitMsg :=
  { slot := w.slot, k := w.k, epoch := w.epoch, run := r.id, tick := r.tick, lane := r.rcd.lane, rest := e.result.take m.resultMax,
    truncated := decide (m.resultMax < e.result.length), eou := e.eou }

/-- A run whose stage has ended everywhere leaves its cores; a final stage ends only when the result store has accepted its rows'
results (R271, R274). -/
def State.finishRun (s : State) (id : Nat) : State :=
  match s.runBy id with
  | none => s
  | some r =>
    if r.over && r.ends.isNone && !s.commits.any (fun c => c.run == id && !c.rest.isEmpty) then (s.trace r.rcd trEND r.first).dropRun r else s

/-- Rows paired with what their program produced; a row with none produced nothing. -/
def rowEnds (rows : List Row) (ends : List RowEnd) : List (Row × RowEnd) :=
  (List.range rows.length).filterMap (fun i => (rows[i]?).map (fun w => (w, ends.getD i { result := [], wake := [], eou := false })))

/-- The stage of a run ends: rows go on to the next stage, or their results and commits are sent (R267, R274). -/
def State.stageEnds (s : State) (r : Run) (m : Image) (ends : List RowEnd) : State :=
  let live := (rowEnds r.rows ends).filter (fun x => x.1.fault.isNone)
  if r.final then
    let s := live.foldl (fun u x => u.rowWakes r x) s
    let s : State := { s with commits := s.commits ++ live.map (fun x => rowMsg r m x.1 x.2) }
    let s := live.foldl (fun (u : State) x => u.modChunks x.1.slot (fun c => c.k == x.1.k && decide (c.stage = .running r.stage r.id))
      (fun c => { c with stage := .committing })) s
    s.finishRun r.id
  else
    let s := live.foldl (fun (u : State) x => u.modChunks x.1.slot (fun c => c.k == x.1.k && decide (c.stage = .running r.stage r.id))
      (fun c => { c with stage := .eligible (r.stage + 1), since := u.cnt })) s
    s.finishRun r.id

/-- A gather list or a solve of a run has not written its result (R384, R440). -/
def State.outstanding (s : State) (id : Nat) : Bool :=
  s.gx.lists.any (fun l => l.run == id) || s.sol.reqs.any (fun q => q.core.isSome && q.run == id) ||
  s.sol.run.any (fun v => v.req.core.isSome && v.req.run == id)

/-- Every core of the run has met END: the stage ends once nothing of it is outstanding (R271, R384, R440). -/
def State.stageOver (s : State) (r : Run) (m : Image) (ends : List RowEnd) : State :=
  if s.outstanding r.id then s.modRun r.id (fun x => { x with ends := some ends }) else s.stageEnds r m ends

/-- A list or a solve of a run has written its result: a stage that waited for it may end (R384, R440, R452). -/
def State.stageReady (s : State) (id : Nat) : State :=
  match s.runBy id with
  | none => s
  | some r =>
    match r.ends, s.runImage r with
    | some e, some m => if s.outstanding id then s else (s.modRun id (fun x => { x with ends := none })).stageEnds r m e
    | _, _ => s

/-- A core's stream ends for the stage (R262, R271, R317). -/
def State.coreEnds (s : State) (r : Run) (m : Image) (core : Nat) (ends : List RowEnd) : State :=
  let s := s.addStatus m core (Map.get r.status core [])
  let s := s.modRun r.id (fun x => { x with ended := x.ended ||| two core, status := Map.del core x.status })
  match s.runBy r.id with
  | some x => if x.over then s.stageOver x m ends else s
  | none => s

/-- END (R262). -/
def execEndStream (dt : Nat) (core : Fin 64) (i : Ins) (rows : List RowEnd) (s : State) : Out :=
  s.done ((s.elapse dt).onCore core 0x3F i (fun _ => barrierOk i) (fun u r m => u.coreEnds r m core rows))

/-! ## Cores: faults, siding (R275, R284 to R289, R298) -/

/-- CORE_FAULT_READ (R298): a read of CORE_FAULT latches the program and the time. -/
def State.readCoreFault (s : State) (p : Party) (c : Nat) : State :=
  let s := s.latch p CORE_FAULT_PROG (s.get CORE_FAULT_PROG c) c
  let s := s.latch p CORE_FAULT_TIME_LO (s.get CORE_FAULT_TIME_LO c) c
  let s := s.latch p CORE_FAULT_TIME_HI (s.get CORE_FAULT_TIME_HI c) c
  s.returns (s.get CORE_FAULT_CODE c + 256 * s.get CORE_FAULT_TENANCY c)

/-- CORE_FAULT_READ (R298). -/
def execCoreFaultRead (dt : Nat) (p : Party) (core : Fin 64) (s : State) : Out :=
  s.done ((s.elapse dt).reading p .core core (fun t => t.readCoreFault p core))

/-- Core states of R298. -/
def csIN_SERVICE : Nat := 0
def csSIDING : Nat := 1
def csSIDED : Nat := 2
def csRETURNING : Nat := 3

/-- A core enters SIDED (R286). -/
def State.enterSided (s : State) (c : Nat) : State :=
  ((s.set CORE_STAT_STATE csSIDED c).bump CORE_SIDINGS c |>.bumpGen .core c).raise CORE_INT_STAT_SIDED c

/-- A run, executing or suspended, names the core. -/
def State.named (s : State) (c : Nat) : Bool := s.runs.any (fun r => bit r.rcd.coreMask c)

/-- CORE_SIDED (R286): nothing happens while the core is not SIDING or a run names it. -/
def execCoreSided (dt : Nat) (core : Fin 64) (s : State) : Out :=
  let s' := s.elapse dt
  s.done (if s'.get CORE_STAT_STATE core = csSIDING && !s'.named core then s'.enterSided core else s')

/-- The return pass reads and rewrites every word of the core's SRAM (R288, R540): corrected words are counted, uncorrectable ones
marked and counted. -/
def State.passOne (s : State) (d : Damage) : State :=
  if d.kind = 1 then (s.setDamage (s.mem.damage.filter (fun x => decide (x ≠ d)))).countCE d srRETURN_PASS
  else (s.setDamage (s.mem.damage.map (fun x => if x = d then { x with kind := 3 } else x))).countUE d { source := srRETURN_PASS }
def State.returnPass (s : State) (c : Nat) : State :=
  let hit := s.mem.damage.filter (fun d => d.store == 1 && d.unit == c)
  hit.foldl State.passOne { s with mem := { s.mem with back := s.mem.back.filter (fun b => !(b.1 == 1 && b.2.1 == c)) } }

/-- The mode keeps main-lane core c out of service (R503, R507). -/
def State.modeSides (s : State) (m c : Nat) : Bool := 4 ≤ c && (m == 2 || (m == 1 && 4 + s.get PWR_TRIM_CORES ≤ c))

/-- The power-mode request of a core (R285, R505, R507, R510): TRIM and SIDING, never a listen core (R284); a widening that has begun
takes back what its mode does not ask for. In STANDBY the requests stay as they were. -/
def State.pwrRequest (s : State) (c : Nat) : Bool :=
  let m := s.get PWRG_STAT_MODE
  (if m = 3 then s.flag CORE_STAT_REQ_PWR c else s.modeSides m c) &&
  (match s.pwr.widen with
    | some w => s.modeSides w.1 c
    | none => true)

/-- One core's requests at a boundary, and what follows (R285 to R288, R635). -/
def State.sideCore (s : State) (c : Nat) : State :=
  let old := (s.get CORE_STAT_STATE c, s.get CORE_STAT_REQ_CTL c, s.get CORE_STAT_REQ_PWR c)
  let s := (s.set CORE_STAT_REQ_CTL (s.get CORE_CTL_SIDE c) c).set CORE_STAT_REQ_PWR (b2n (s.pwrRequest c)) c
  let stand := s.flag CORE_STAT_REQ_CTL c || s.flag CORE_STAT_REQ_SB c || s.flag CORE_STAT_REQ_PWR c
  let st := s.get CORE_STAT_STATE c
  let s :=
    if st = csIN_SERVICE then (if stand then s.set CORE_STAT_STATE csSIDING c else s)
    else if st = csSIDING then (if stand then s else s.set CORE_STAT_STATE csIN_SERVICE c)
    else if st = csSIDED then (if stand then s else (s.set CORE_STAT_STATE csRETURNING c).returnPass c)
    else if stand then s.enterSided c
    else ((s.set CORE_STAT_STATE csIN_SERVICE c).bump CORE_RETURNS c).raise CORE_INT_STAT_RETURNED c
  let new := (s.get CORE_STAT_STATE c, s.get CORE_STAT_REQ_CTL c, s.get CORE_STAT_REQ_PWR c)
  s.onlyIf (decide (new ≠ old)) (fun t => t.bumpGen .core c)

/-- The requests of every core at a boundary (R285). -/
def State.sideCores (s : State) : State := (List.range 64).foldl State.sideCore s

/-! ## The couch link (R282) -/

/-- The rows of a run that ends with the couch link fault, those among them whose results the stream die has not all accepted (R274, R282). -/
def State.couchRow (s : State) (r : Run) (w : Row) : State :=
  let waits := s.commits.any (fun c => c.run == r.id && c.slot == w.slot && !c.rest.isEmpty)
  s.onlyIf (waits || (s.rowChunk r w).isSome) (fun t => t.faultAt w.slot sfRUN w.k)

/-- The link goes down: every run stops, its rows fault, and only a reset brings it up (R275, R282). -/
def State.couchRun (s : State) (r : Run) : State :=
  let core := r.cores.head?.getD 0
  let s := r.rows.foldl (fun u w => u.couchRow r w) s
  let s := (s.coreRecord core cfCOUCH r.rcd).bump CORE_FAULTS core
  ((s.runFaults r cfCOUCH).trace r.rcd trEND r.first).dropRun r

def State.couchDown (s : State) : State :=
  let s := { s with couchUp := false, couchTries := [] }
  s.runs.foldl State.couchRun s

/-- COUCH_FLIT_CRC_ERROR (R282): a flit of a direction is received with a bad CRC, and is sent again; where it was the fourth replay of the
flit that failed, the link goes down. -/
def execCouchFlitCrcError (x : BadFlit) (s : State) : Out :=
  let t := s.elapse x.dt
  let old := Map.get t.couchTries (b2n x.up) (0, 0)
  let n := if old.1 = x.flit then old.2 + 1 else 1
  s.done (if !t.couchUp then t
    else if 4 < n then t.couchDown
    else { t with couchTries := Map.put (b2n x.up) (x.flit, n) t.couchTries })

end Sys2Proof.Machine
end

