-- ==== Sys2Proof/Machine/Tiles.lean ====
section
/-! DEFINITION. Machine/Tiles.lean: the tile instructions TILE_W4, TILE_W8 and TILE_BF16, and the rescale of their outputs
(07_numeric_formats.md, R301 to R319; R250, R251, R262). -/
namespace Sys2Proof.Machine

/-! ## Numeric status counts (R316, R317) -/

/-- Counts in the order of R317. -/
def ctACC : Nat := 0
def ctOUT : Nat := 1
def ctCELL : Nat := 2
def ctQCLAMP : Nat := 3
def ctQNAN : Nat := 4
def ctNAN : Nat := 5
def ctINF : Nat := 6
def ctFTZ : Nat := 7

/-- The sum of two lists of eight counts, and `n` events of one kind. -/
def addCounts (a b : List Nat) : List Nat := (List.range 8).map (fun i => a.getD i 0 + b.getD i 0)
def oneCount (k n : Nat) : List Nat := (List.replicate 8 0).set k n

/-- A core's counts of a run's stage grow (R317). -/
def State.tally (s : State) (id core : Nat) (c : List Nat) : State :=
  s.modRun id (fun r => { r with status := Map.put core (addCounts (Map.get r.status core []) c) r.status })

/-! ## The grid and the scales (R301 to R304) -/

/-- L(c) (R301). -/
def gridLevel (c : Nat) : Int := [-128, -94, -70, -52, -35, -21, -10, 0, 9, 19, 30, 44, 58, 76, 98, 128].getD c 0

/-- M_g of a group scale byte (R303). -/
def groupMul (b : Nat) : Int := (((4 + bits b 0 2) * two (bits b 2 3) : Nat) : Int)

/-- The code of reduction element k and column n of a K × N block of weights: tile code blocks of 16 × 32, in order of reduction
(R302). -/
def w4Code (w : List Byte) (N k n : Nat) : Nat :=
  let b := byteAt w ((k / 16 * (N / 32) + n / 32) * 256 + k % 16 * 16 + n % 32 / 2)
  if n % 2 = 0 then b % 16 else b / 16

/-- The weight of element k and column n in blocks of 8 × 32 (R307). -/
def w8Weight (w : List Byte) (N k n : Nat) : Int := toS 8 (byteAt w ((k / 8 * (N / 32) + n / 32) * 256 + k % 8 * 32 + n % 32))

/-- The bf16 weight of element k and column n in blocks of 8 × 16 (R308). -/
def bfWeight (w : List Byte) (N k n : Nat) : Nat := le w ((k / 8 * (N / 16) + n / 16) * 256 + (k % 8 * 16 + n % 16) * 2) 2

/-! ## Accumulation (R306 to R308, R316, R323) -/

/-- An accumulator that keeps the bound it passed (R316). -/
def accAdd (a : Int × Bool) (x : Int) : Int × Bool :=
  if a.2 then a
  else if satS 32 (a.1 + x) = a.1 + x then (a.1 + x, false) else (satS 32 (a.1 + x), true)

/-- Sum of a function over a range of naturals. -/
def sumOver (lo n : Nat) (f : Nat → Int) : Int := ((List.range n).map (fun i => f (lo + i))).foldl (· + ·) 0

/-- One W4 output's accumulator (R306): `q` is the row's codes, `sc` the scale bytes, `G` the group size. -/
def w4Acc (w q sc : List Byte) (K N G n : Nat) : Int × Bool :=
  (List.range (ceilDiv K G)).foldl (fun a g =>
    let p := sumOver (g * G) (min G (K - g * G)) (fun k => gridLevel (w4Code w N k n) * (byteAt q k : Int))
    accAdd a (groupMul (byteAt sc (n * ceilDiv K G + g)) * p)) (0, false)

/-- One W8 output's accumulator (R307). -/
def w8Acc (w q : List Byte) (K N n : Nat) : Int × Bool :=
  (List.range K).foldl (fun a k => accAdd a (w8Weight w N k n * (byteAt q k : Int))) (0, false)

/-- A subnormal value of a format is zero of its sign in the tiles (R308). -/
def Fmt.flushed (f : Fmt) (x : Nat) : Bool := bits x f.mb f.eb == 0 && bits x 0 f.mb != 0
def Fmt.flush (f : Fmt) (x : Nat) : Nat := if f.flushed x then b2n (bit x (f.eb + f.mb)) * two (f.eb + f.mb) else x

/-- The events of a result: a NaN from operands that are not, an infinity from finite operands (R317). -/
def fpEvents (ins : List Fv) (r : Fv) : List Nat :=
  match r with
  | .nan => if ins.any (fun x => x == .nan) then [] else oneCount ctNAN 1
  | .inf _ => if ins.all (fun x => x.isFinite) then oneCount ctINF 1 else []
  | .fin _ _ _ => []

/-- One bf16 block of eight products added exactly, rounded to fp32, and added to the accumulator (R308, R319). -/
def bfBlock (a : Nat × List Nat) (ws qs : List Nat) : Nat × List Nat :=
  let x := ws.map (fun v => bf16.dec (bf16.flush v))
  let y := qs.map (fun v => bf16.dec (bf16.flush v))
  let ps := List.zipWith Fv.mul x y
  let sum := match ps with
    | [] => Fv.fin false 0 0
    | p :: l => l.foldl Fv.add p
  let b := fp32.enc sum
  let r := fp32.addB a.1 b
  let ftz := (ws ++ qs).countP bf16.flushed + b2n (fp32.flushed r)
  let ev := addCounts (fpEvents (x ++ y) (fp32.dec b)) (fpEvents [fp32.dec a.1, fp32.dec b] (fp32.dec r))
  (fp32.flush r, addCounts a.2 (addCounts ev (oneCount ctFTZ ftz)))

/-- One bf16 output's accumulator and its counts. -/
def bfAcc (w q : List Byte) (K N n : Nat) : Nat × List Nat :=
  (List.range (K / 8)).foldl (fun a b =>
    bfBlock a ((List.range 8).map (fun i => bfWeight w N (8 * b + i) n)) ((List.range 8).map (fun i => le q (2 * (8 * b + i)) 2)))
    (0, [])

/-! ## Rescale (R312, R313) -/

/-- A column constant record. -/
structure ColRec where
  c : Nat
  b : Nat
  mf : Nat
  sh : Nat
  out : Nat
  zout : Nat

/-- The record of column n. -/
def parseCol (d : List Byte) (n : Nat) : ColRec :=
  let o := 16 * n
  { c := le d o 4, b := le d (o + 4) 4, mf := le d (o + 8) 4, sh := byteAt d (o + 12) % 64, out := byteAt d (o + 13), zout := byteAt d (o + 14) }

/-- Bytes of an output of a column. -/
def outBytes (out : Nat) : Nat := if out = 0 then 1 else if out = 1 || out = 4 then 2 else 4

/-- An output the spec gives no value (R313). -/
def openOut (draw idx out : Nat) : List Byte := toLe (outBytes out) (Config.freeWord draw idx).toNat

/-- The output of an integer path and its counts (R313, R316). -/
def intOut (r : ColRec) (z : Nat) (acc : Int × Bool) (draw idx : Nat) : List Byte × List Nat :=
  let e := acc.1 - (z : Int) * toS 32 r.c + toS 32 r.b
  let v := satS 32 e
  let m := ((r.mf % two 31 : Nat) : Int)
  let n := oneCount ctACC (b2n acc.2 + b2n (decide (v ≠ e)))
  if r.out = 0 then
    let x := (r.zout : Int) + rshift (v * m) r.sh
    let y := clampI 0 255 x
    (toLe 1 y.toNat, addCounts n (oneCount ctOUT (b2n (decide (y ≠ x)))))
  else if r.out = 1 then
    let x := rshift (v * m) r.sh
    let y := satS 16 x
    (toLe 2 (ofS 16 y), addCounts n (oneCount ctOUT (b2n (decide (y ≠ x)))))
  else if r.out = 2 then (toLe 4 (ofS 32 v), n)
  else if r.out = 3 then
    let f := fp32.dec r.mf
    let x := Fv.ofInt false v 0
    let y := fp32.enc (x.mul f)
    (toLe 4 y, addCounts n (fpEvents [x, f] (fp32.dec y)))
  else (openOut draw idx r.out, n)

/-- The output of the bf16 path: acc × F + B with one rounding (R313). -/
def bfOut (r : ColRec) (acc : Nat) (draw idx : Nat) : List Byte × List Nat :=
  let a := fp32.dec acc
  let f := fp32.dec r.mf
  let b := fp32.dec r.b
  let v := (a.mul f).add b
  if r.out = 3 then (toLe 4 (fp32.enc v), fpEvents [a, f, b] (fp32.dec (fp32.enc v)))
  else if r.out = 4 then (toLe 2 (bf16.enc v), fpEvents [a, f, b] (bf16.dec (bf16.enc v)))
  else (openOut draw idx r.out, [])

/-! ## The instructions (R262) -/

/-- Operands of a tile instruction. -/
def tileK (i : Ins) : Nat := bits i.e 0 16
def tileN (i : Ins) : Nat := bits i.e 16 16
def tileRows (i : Ins) : Nat := bits i.f 0 6
def tileGroup (i : Ins) : Nat := 32 * two (bits i.f 6 2)

/-- A tile instruction is valid by R262: `rows` is its largest row count, `per` the weights it may declare per cycle. -/
def tileOk (i : Ins) (rows per : Nat) (groups : Bool) : Bool :=
  insPlain i && i.sub == 0 && insFixed i (ceilDiv (tileK i * tileN i) per) && i.a % 2048 == 0 &&
  0 < tileK i && tileK i % 16 == 0 && 0 < tileN i && tileN i % 32 == 0 && 1 ≤ tileRows i && tileRows i ≤ rows &&
  (if groups then bits i.f 6 2 ≤ 2 && i.f < 256 else i.f < 64)

/-- The outputs of a tile instruction, row by row, with what each counts: `d` holds the column records, `act k` the activations of row k. -/
def tileOuts (rows cols : Nat) (w d : List Byte) (act : Nat → List Byte)
    (out : List Byte → List Byte → List ColRec → Nat → Nat → List Byte × List Nat) : List (List Byte × List Nat) :=
  let recs := (List.range cols).map (parseCol d)
  (List.range rows).flatMap (fun k =>
    let q := act k
    (List.range cols).map (fun n => out w q recs (k * cols + n) n))

/-- Position p of a PAD run lies beyond its row's length: rows take LONGEST positions each (R276). -/
def Run.padded (r : Run) (m : Image) (p : Nat) : Bool :=
  let longest := (r.rows.map (fun w => w.len)).foldl max 0
  m.ragged == 0 && !(r.rows[p / longest]?).any (fun w => p % longest < w.len)

/-- A tile instruction's outputs are stored and its events counted; what it computes at padded positions is discarded (R276, R316). -/
def State.tileStore (s : State) (r : Run) (m : Image) (core first at_ rows cols : Nat) (res : List (List Byte × List Nat)) : State :=
  let real := (List.range rows).filter (fun k => !r.padded m (first + k))
  let row := fun (k : Nat) => (res.drop (k * cols)).take cols
  let outs := fun (l : List (List Byte × List Nat)) => l.flatMap (fun x => x.1)
  let n := (outs res).length / rows
  let s := if real.length = rows then s.runWrites r.id core (sramAt core at_) (outs res)
    else real.foldl (fun (u : State) k => u.runWrites r.id core (sramAt core (at_ + k * n)) (outs (row k))) s
  s.tally r.id core ((real.flatMap row).foldl (fun a x => addCounts a x.2) [])

/-- Execute a tile instruction: `wb` and `ab` are the bytes of its weights and of one row of activations; `out` gives the outputs of a
row. Every operand lies in the image's sections on the core, or the run stops with ACCESS (R262). -/
def State.tile (s : State) (r : Run) (m : Image) (core : Nat) (i : Ins) (first wb ab : Nat)
    (out : List Byte → List Byte → List ColRec → Nat → Nat → List Byte × List Nat) : State :=
  let rows := tileRows i
  let cols := tileN i
  if !(m.holds core i.a wb && m.holds core i.b (rows * ab) && m.holds core i.d (16 * cols)) then s.coreFault r core cfACCESS
  else
    let s := ((s.runReads r.id core core i.a wb).runReads r.id core core i.b (rows * ab)).runReads r.id core core i.d (16 * cols)
    if (s.onRun r.id core).isNone then s
    else
      let w := s.rdBytes .sram (sramAt core i.a) wb
      let d := s.rdBytes .sram (sramAt core i.d) (16 * cols)
      let f := s.draw
      let res := tileOuts rows cols w d (fun k => f.2.rdBytes .sram (sramAt core (i.b + k * ab)) ab) out
      let outs := res.flatMap (fun x => x.1)
      if !m.holds core i.c outs.length then f.2.coreFault r core cfACCESS
      else f.2.tileStore r m core first i.c rows cols res

/-- The record of a column among those read. -/
def colAt (recs : List ColRec) (n : Nat) : ColRec := recs.getD n ⟨0, 0, 0, 0, 0, 0⟩

/-- What each tile instruction gives for column n of a row: its accumulation, then the rescale (R306 to R308, R312, R313). -/
def outW4 (i : Ins) (x : TileX) (draw : Nat) (w q : List Byte) (recs : List ColRec) (idx n : Nat) : List Byte × List Nat :=
  intOut (colAt recs n) x.z (w4Acc w q x.scales (tileK i) (tileN i) (tileGroup i) n) draw idx
def outW8 (i : Ins) (x : TileX) (draw : Nat) (w q : List Byte) (recs : List ColRec) (idx n : Nat) : List Byte × List Nat :=
  intOut (colAt recs n) x.z (w8Acc w q (tileK i) (tileN i) n) draw idx
def outBf (i : Ins) (draw : Nat) (w q : List Byte) (recs : List ColRec) (idx n : Nat) : List Byte × List Nat :=
  let a := bfAcc w q (tileK i) (tileN i) n
  let o := bfOut (colAt recs n) a.1 draw idx
  (o.1, addCounts a.2 o.2)

/-- TILE_W4 (R306). -/
def State.tileW4 (s : State) (r : Run) (m : Image) (core : Nat) (i : Ins) (x : TileX) : State :=
  s.tile r m core i x.first (tileK i * tileN i / 2) (tileK i) (outW4 i x s.draws)

/-- TILE_W4 (R306). -/
def execTileW4 (core : Fin 64) (i : Ins) (x : TileX) (s : State) : Out :=
  s.done (s.onCore core 1 i (fun _ => tileOk i 32 4096 true) (fun u r m => u.tileW4 r m core i x))

/-- TILE_W8 (R307). -/
def State.tileW8 (s : State) (r : Run) (m : Image) (core : Nat) (i : Ins) (x : TileX) : State :=
  s.tile r m core i x.first (tileK i * tileN i) (tileK i) (outW8 i x s.draws)

/-- TILE_W8 (R307). -/
def execTileW8 (core : Fin 64) (i : Ins) (x : TileX) (s : State) : Out :=
  s.done (s.onCore core 2 i (fun _ => tileOk i 32 2048 false) (fun u r m => u.tileW8 r m core i x))

/-- TILE_BF16 (R308). -/
def State.tileBf16 (s : State) (r : Run) (m : Image) (core : Nat) (i : Ins) (first : Nat) : State :=
  s.tile r m core i first (2 * tileK i * tileN i) (2 * tileK i) (outBf i s.draws)

/-- TILE_BF16 (R308). -/
def execTileBf16 (core : Fin 64) (x : TileBf) (s : State) : Out :=
  s.done (s.onCore core 3 x.ins (fun _ => tileOk x.ins 16 1024 false) (fun u r m => u.tileBf16 r m core x.ins x.first))

end Sys2Proof.Machine
end

