-- ==== Sys2Proof/Machine/Vector.lean ====
section
/-! DEFINITION. Machine/Vector.lean: the vector unit and the recurrent cell unit (R252 to R254, R261, R262, R311, R314, R318, R320). -/
namespace Sys2Proof.Machine

/-! ## Functions of one value (R320) -/

/-- The reciprocal square root with enough bits for one rounding (R320). -/
def Fv.rsqrt : Fv → Fv
  | .nan => .nan
  | .inf s => if s then .nan else .fin false 0 0
  | .fin s m e =>
    if m = 0 then .inf s
    else if s then .nan
    else
      let o : Int := if e % 2 = 0 then 0 else 1
      let n := m * two o.toNat
      let k := 2 * (bitLen n + 30)
      let r := isqrt (two k / n)
      .fin false (2 * r + (if r * r * n = two k then 0 else 1)) (-(e - o) / 2 - ((k / 2 : Nat) : Int) - 1)

/-- The reciprocal. -/
def Fv.rcp (x : Fv) : Fv := Fv.div 23 (.fin false 1 0) x

/-- The unit in the last place of an fp32 pattern, as an exponent. -/
def ulpExp (p : Nat) : Int := fp32.minQ + ((max 1 (bits p 23 8) : Nat) : Int) - 1

/-- A pattern `d − 2` steps from the nearest one of an exact value, where that stays within 2 ulp of it; else the nearest (R320). -/
def nearUlp (exact : Fv) (d : Nat) : Nat :=
  let r := fp32.enc exact
  let c := r + d - 2
  let far := ((fp32.dec c).sub exact).abs
  if d = 2 || fp32.special c || (Fv.fin false 2 (ulpExp r)).lt far then r else c

/-- exp of an fp32 pattern (R320). -/
def vecExpB (x : Nat) : Nat :=
  match fp32.dec x with
  | .nan => fp32.qnan
  | .inf s => if s then 0 else fp32.infBits false
  | .fin s m e =>
    let v := Fv.fin s m e
    if !(v.lt (fp32.dec 0x42B17218)) then fp32.infBits false
    else if (v.mul (.fin false 1000 0)).lt (.fin true 103972 0) then 0
    else if m = 0 then fp32.enc (.fin false 1 0)
    else nearUlp (qExp v.toQ) (Config.vecUlp 0 x).val

/-- ln of an fp32 pattern (R320). -/
def vecLnB (x : Nat) : Nat :=
  match fp32.dec x with
  | .nan => fp32.qnan
  | .inf s => if s then fp32.qnan else fp32.infBits false
  | .fin s m e =>
    if m = 0 then fp32.infBits true
    else if s then fp32.qnan
    else if x = 0x3F800000 then 0
    else nearUlp (qFv (qLn m e)) (Config.vecUlp 1 x).val

/-! ## Elements (R262, R299, R314) -/

/-- Bytes of an element of a format code: 0 fp32, 1 bf16, 2 A8, 3 Q3.12. -/
def elemBytes (f : Nat) : Nat := [4, 2, 1, 2].getD f 4

/-- The floating format of a code. -/
def elemFmt (f : Nat) : Fmt := if f = 0 then fp32 else bf16

/-- A source element of a floating format as an fp32 pattern: exact, and any NaN canonical (R314). -/
def toFp32 (f v : Nat) : Nat := if f = 0 then v else bf16.convert fp32 v

/-- A result in the destination format: fp32, or rounded once more to bf16 (R318). -/
def fromFp32 (f v : Nat) : Nat := if f = 0 then v else fp32.convert bf16 v

/-- A conversion of one element (R314): between floating formats; from Q3.12 exactly; to Q3.12 rounded by R16 where it fits. What
the spec does not state is open. -/
def convertElem (sf df v : Nat) : Nat :=
  if sf = df && 2 ≤ sf then v
  else if sf ≤ 1 && df ≤ 1 then (elemFmt sf).convert (elemFmt df) v
  else if sf = 3 && df ≤ 1 then (elemFmt df).enc (Fv.ofInt false (toS 16 v) (-12))
  else if sf ≤ 1 && df = 3 then
    let x := (elemFmt sf).dec v
    let y := (x.mul (.fin false 4096 0)).toInt
    if x.isFinite && satS 16 y == y then ofS 16 y else (Config.vecOpen 12 (sf + 4 * df) v).toNat
  else (Config.vecOpen 12 (sf + 4 * df) v).toNat

/-- QUANT of an fp32 pattern with a record (INV, z), and what it counts (R311, R316). -/
def quantElem (x inv z : Nat) : Nat × List Nat :=
  match (fp32.dec x).mul (fp32.dec inv) with
  | .nan => (z, oneCount ctQNAN 1)
  | .inf s => (if s then 0 else 255, oneCount ctQCLAMP 1)
  | .fin s m e =>
    let v := (Fv.fin s m e).toInt + (z : Int)
    let y := clampI 0 255 v
    (y.toNat, oneCount ctQCLAMP (b2n (decide (y ≠ v))))

/-- The fp32 result of an operation on fp32 patterns (R318, R320). -/
def vecOp (sub a b d : Nat) : Nat :=
  if sub = 0 then fp32.addB a b
  else if sub = 1 then fp32.mulB a b
  else if sub = 2 then fp32.fmaB a b d
  else if sub = 3 then fp32.divB a b
  else if sub = 4 then fp32.sqrtB a
  else if sub = 5 then fp32.enc (fp32.dec a).rcp
  else if sub = 6 then (if a = 0x80000000 then (Config.vecOpen 6 0 a).toNat else fp32.enc (fp32.dec a).rsqrt)
  else if sub = 7 then vecExpB a
  else if sub = 8 then vecLnB a
  else if sub = 9 then fp32.enc ((fp32.dec a).max (fp32.dec b))
  else fp32.enc ((fp32.dec a).min (fp32.dec b))

/-- The operation reads a second source; a third. -/
def vecTwo (sub : Nat) : Bool := sub ≤ 3 || sub == 9 || sub == 10
def vecThree (sub : Nat) : Bool := sub == 2

/-- One element of a VEC instruction: source patterns, the QUANT record, formats; the destination bytes and the counts. -/
def vecElem (sub sf df a b d inv z : Nat) : List Byte × List Nat :=
  if sub = 13 && sf = df then (toLe (elemBytes df) a, [])
  else if sub = 12 || sub = 13 then
    let v := convertElem sf df a
    (toLe (elemBytes df) v, if sf ≤ 1 && df ≤ 1 then fpEvents [(elemFmt sf).dec a] ((elemFmt df).dec v) else [])
  else if sub = 11 then
    let q := quantElem (toFp32 sf a) inv z
    if sf ≤ 1 && df = 2 then (toLe 1 q.1, q.2) else (toLe (elemBytes df) (Config.vecOpen 11 (sf + 4 * df) a).toNat, [])
  else if sf ≤ 1 && df ≤ 1 then
    let x := toFp32 sf a
    let y := toFp32 sf b
    let w := toFp32 sf d
    let r := fromFp32 df (vecOp sub x y w)
    let ins := [fp32.dec x] ++ (if vecTwo sub then [fp32.dec y] else []) ++ (if vecThree sub then [fp32.dec w] else [])
    (toLe (elemBytes df) r, fpEvents ins ((elemFmt df).dec r))
  else (toLe (elemBytes df) (Config.vecOpen sub (sf + 4 * df) a).toNat, [])

/-! ## Operands in sections and in row frames (R261, R266) -/

/-- Where bytes of a row frame lie: header and feature area, then the bank (R261). -/
def framePieces (a : Alloc) (bank off n : Nat) : List (Nat × Nat) :=
  let lim := 64 + a.feat
  let n1 := if off < lim then min n (lim - off) else 0
  let off2 := off + n1
  [(sramAt a.core (a.off + off), n1), (sramAt a.core (a.off + off2 + bank * a.bank), n - n1)].filter (fun x => x.2 != 0)

/-- Bytes of a row's view of its frame (R261). -/
def Alloc.view (a : Alloc) : Nat := 64 + a.feat + a.bank

/-- Read pieces; a run stores bytes over pieces (R549). -/
def State.rdPieces (s : State) (l : List (Nat × Nat)) : List Byte := l.flatMap (fun x => s.rdBytes .sram x.1 x.2)
def State.wrPieces (s : State) (id core : Nat) : List (Nat × Nat) → List Byte → State
  | [], _ => s
  | x :: l, d => (s.runWrites id core x.1 (d.take x.2)).wrPieces id core l (d.drop x.2)

/-- A run reads pieces (R540, R543). -/
def State.readsPieces (s : State) (id core : Nat) (l : List (Nat × Nat)) : State :=
  l.foldl (fun u x => u.runReads id core (x.1 / 16777216) (x.1 % 16777216) x.2) s

/-- What one application of an instruction reads and writes: operand pieces and destination pieces. -/
structure Operands where
  a : List (Nat × Nat)
  b : List (Nat × Nat)
  c : List (Nat × Nat)

/-- Operands of `na`, `nb`, `nc` bytes for a row (PER_ROW) or for the image's sections; none where a range lies outside (R261, R262). -/
def Image.operands (m : Image) (core : Nat) (i : Ins) (na nb nc : Nat) (row : Option Row) : Option Operands :=
  match row with
  | none =>
    if m.holds core i.a na && m.holds core i.b nb && m.holds core i.c nc then
      some ⟨[(sramAt core i.a, na)], [(sramAt core i.b, nb)], [(sramAt core i.c, nc)]⟩
    else none
  | some w =>
    match w.alloc with
    | none => none
    | some x =>
      if i.a + na ≤ x.view && i.b + nb ≤ x.view && i.c + nc ≤ x.view then
        some ⟨framePieces x w.cur i.a na, framePieces x w.cur i.b nb, framePieces x (1 - w.cur) i.c nc⟩
      else none

/-- The rows an instruction is applied to: none for the sections, or every row that has not faulted (R261, R275). -/
def Run.targets (r : Run) (i : Ins) : List (Option Row) :=
  if insPerRow i then (r.rows.filter (fun w => w.fault.isNone)).map some else [none]

/-- One application of an instruction: `f` gives the bytes stored and the counts. A row that faults on the way stores nothing. -/
def State.applyIns (s : State) (id core : Nat) (m : Image) (i : Ins) (na nb nc : Nat) (f : List Byte → List Byte → Nat → List Byte × List Nat)
    (row : Option Row) : State :=
  match s.onRun id core with
  | none => s
  | some r =>
    match m.operands core i na nb nc row with
    | none => s.coreFault r core cfACCESS
    | some o =>
      let s := (s.readsPieces id core o.a).readsPieces id core o.b
      if (s.onRun id core).isNone || row.any (fun w => !s.rowLive id w.slot) then s
      else
        let d := s.draw
        let x := f (d.2.rdPieces o.a) (d.2.rdPieces o.b) d.1
        (d.2.wrPieces id core o.c x.1).tally id core x.2

/-! ## Waiting for features (R607) -/

/-- A row whose features an instruction reads before they have arrived. -/
def State.lacksFeatures (s : State) (r : Run) (i : Ins) (na nb : Nat) (w : Row) : Bool :=
  match w.alloc, s.rowChunk r w with
  | some a, some c =>
    !c.featured && r.stage == 0 && w.fault.isNone &&
      ((i.a < 64 + a.feat && 64 < i.a + na && na != 0) || (i.b < 64 + a.feat && 64 < i.b + nb && nb != 0))
  | _, _ => false

/-- The instruction waits: the wait is counted once (R607). -/
def State.waitFeatures (s : State) (r : Run) (core : Nat) (l : List Row) : State :=
  if bit r.featWait core || l.isEmpty then s
  else
    let s := s.modRun r.id (fun x => { x with featWait := x.featWait ||| two core })
    let s := { s with iso := { s.iso with featWait := true } }
    (s.bump ISO_T_FEAT_WAIT r.rcd.tenancy).bump ISO_FEAT_WAIT

/-- A VEC instruction is executed, or waits for features. -/
def State.vecOrWait (s : State) (core : Nat) (i : Ins) (na nb : Nat) (go : State → State) : State :=
  match s.runOn core with
  | none => s
  | some r =>
    if !(s.runImage r).all (fun m => s.meets r m core 0x10 i) then s
    else
    let l := if insPerRow i then r.rows.filter (s.lacksFeatures r i na nb) else []
    if l.isEmpty then go (s.modRun r.id (fun x => { x with featWait := x.featWait - (x.featWait &&& two core) })) else s.waitFeatures r core l

/-! ## VEC (R262) -/

/-- Formats and element count of a VEC instruction. -/
def vecSrc (i : Ins) : Nat := bits i.f 0 2
def vecDst (i : Ins) : Nat := bits i.f 2 2

/-- A VEC instruction with sub-operation `sub` is valid by R262. -/
def vecOk (i : Ins) (sub : Nat) : Bool :=
  insVec i && i.sub == sub && (sub == 2 || sub == 11 || i.d == 0) && 1 ≤ i.e && i.e ≤ 256000 && i.f < 16 &&
  insFixed i (if vecSrc i = 1 && vecDst i = 1 then ceilDiv i.e 128 else ceilDiv i.e 64)

/-- Bytes of the third source or record: E elements for FMA, five bytes for QUANT (R262). -/
def vecThird (i : Ins) (sub : Nat) : Nat := if sub = 2 then i.e * elemBytes (vecSrc i) else if sub = 11 then 5 else 0

/-- Every element of a VEC instruction. -/
def vecAll (i : Ins) (sub : Nat) (t a b : List Byte) : List Byte × List Nat :=
  let k := elemBytes (vecSrc i)
  let inv := le t 0 4
  let z := byteAt t 4
  let l := (List.range i.e).map (fun j => vecElem sub (vecSrc i) (vecDst i) (le a (k * j) k) (le b (k * j) k) (le t (k * j) k) inv z)
  (l.flatMap (fun x => x.1), l.foldl (fun n x => addCounts n x.2) [])

/-- A VEC instruction of a run (R262). -/
def State.vec (s : State) (r : Run) (m : Image) (core : Nat) (i : Ins) (sub : Nat) : State :=
  let n3 := vecThird i sub
  if !m.holds core i.d n3 then s.coreFault r core cfACCESS
  else
    let s := s.runReads r.id core core i.d n3
    let t := s.rdBytes .sram (sramAt core i.d) n3
    let na := i.e * elemBytes (vecSrc i)
    let nb := if vecTwo sub then na else 0
    (r.targets i).foldl (fun u w => u.applyIns r.id core m i na nb (i.e * elemBytes (vecDst i)) (fun a b _ => vecAll i sub t a b) w) s

/-- Execute a VEC instruction on a core. -/
def State.runVec (s : State) (core : Nat) (i : Ins) (sub : Nat) : State :=
  let na := i.e * elemBytes (vecSrc i)
  s.vecOrWait core i na (if vecTwo sub then na else 0)
    (fun t => t.onCore core 0x10 i (fun _ => vecOk i sub) (fun u r m => u.vec r m core i sub))

/-- VEC_ADD (R320). -/
def execVecAdd (core : Fin 64) (i : Ins) (s : State) : Out := s.done (s.runVec core i 0)
/-- VEC_MUL (R320). -/
def execVecMul (core : Fin 64) (i : Ins) (s : State) : Out := s.done (s.runVec core i 1)
/-- VEC_FMA (R320): one rounding (R318). -/
def execVecFma (core : Fin 64) (i : Ins) (s : State) : Out := s.done (s.runVec core i 2)
/-- VEC_DIV (R320). -/
def execVecDiv (core : Fin 64) (i : Ins) (s : State) : Out := s.done (s.runVec core i 3)
/-- VEC_SQRT (R320). -/
def execVecSqrt (core : Fin 64) (i : Ins) (s : State) : Out := s.done (s.runVec core i 4)
/-- VEC_RCP (R320). -/
def execVecRcp (core : Fin 64) (i : Ins) (s : State) : Out := s.done (s.runVec core i 5)
/-- VEC_RSQRT (R320). -/
def execVecRsqrt (core : Fin 64) (i : Ins) (s : State) : Out := s.done (s.runVec core i 6)
/-- VEC_EXP (R320). -/
def execVecExp (core : Fin 64) (i : Ins) (s : State) : Out := s.done (s.runVec core i 7)
/-- VEC_LN (R320). -/
def execVecLn (core : Fin 64) (i : Ins) (s : State) : Out := s.done (s.runVec core i 8)
/-- VEC_MAX (R318). -/
def execVecMax (core : Fin 64) (i : Ins) (s : State) : Out := s.done (s.runVec core i 9)
/-- VEC_MIN (R318). -/
def execVecMin (core : Fin 64) (i : Ins) (s : State) : Out := s.done (s.runVec core i 10)
/-- VEC_QUANT (R311). -/
def execVecQuant (core : Fin 64) (i : Ins) (s : State) : Out := s.done (s.runVec core i 11)
/-- VEC_CVT (R314). -/
def execVecCvt (core : Fin 64) (i : Ins) (s : State) : Out := s.done (s.runVec core i 12)
/-- VEC_MOVE (R262). -/
def execVecMove (core : Fin 64) (i : Ins) (s : State) : Out := s.done (s.runVec core i 13)

/-! ## CELL (R253, R254) -/

/-- A table lookup (R253): table `k` of a core's four. The second component tells whether the result was saturated. -/
def lookup (tab : List Int) (k : Nat) (x : Int) : Int × Bool :=
  let u := (x + 32768).toNat
  let i := u / 64
  let f := u % 64
  let t := fun (j : Nat) => tab.getD (1025 * k + j) 0
  let y := t i + rshift ((t (i + 1) - t i) * (f : Int)) 6
  (satS 16 y, decide (satS 16 y ≠ y))

/-- A saturated result and its event. -/
def sat16 (x : Int) : Int × Bool := (satS 16 x, decide (satS 16 x ≠ x))

/-- The tables that give σ and tanh. -/
def sigmaTab : Nat := 0
def tanhTab : Nat := 1

/-- An LSTM cell (R254): (c′, h′) and the saturations. -/
def lstm (tab : List Int) (ai af ag ao c : Int) : Int × Int × Nat :=
  let i := lookup tab sigmaTab ai
  let f := lookup tab sigmaTab af
  let g := lookup tab tanhTab ag
  let o := lookup tab sigmaTab ao
  let c' := sat16 (rshift (f.1 * c + rshift (i.1 * g.1) 2) 14)
  let t := lookup tab tanhTab c'.1
  let h := sat16 (rshift (o.1 * t.1) 14)
  (c'.1, h.1, [i.2, f.2, g.2, o.2, c'.2, t.2, h.2].countP (fun b => b))

/-- A GRU cell (R254): h′ and the saturations. -/
def gru (tab : List Int) (az ar anx anh h : Int) : Int × Nat :=
  let z := lookup tab sigmaTab az
  let r := lookup tab sigmaTab ar
  let a := sat16 (anx + rshift (r.1 * anh) 14)
  let n := lookup tab tanhTab a.1
  let y := sat16 (rshift ((16384 - z.1) * n.1 + z.1 * h) 14)
  (y.1, [z.2, r.2, a.2, n.2, y.2].countP (fun b => b))

/-- Element j of array k of arrays of E 16-bit values. -/
def cellIn (b : List Byte) (E k j : Nat) : Int := toS 16 (le b (2 * (E * k + j)) 2)

/-- The bytes of 16-bit values. -/
def cellOut (l : List Int) : List Byte := l.flatMap (fun x => toLe 2 (ofS 16 x))

/-- Every element of a CELL instruction: its stored bytes and CELL_SAT. -/
def cellAll (i : Ins) (sub : Nat) (tab : List Int) (a b : List Byte) : List Byte × List Nat :=
  let E := i.e
  if sub = 0 then
    let l := (List.range E).map (fun j => lstm tab (cellIn a E 0 j) (cellIn a E 1 j) (cellIn a E 2 j) (cellIn a E 3 j) (cellIn b E 0 j))
    (cellOut (l.map (fun x => x.1) ++ l.map (fun x => x.2.1)), oneCount ctCELL ((l.map (fun x => x.2.2)).foldl (· + ·) 0))
  else if sub = 1 then
    let l := (List.range E).map (fun j => gru tab (cellIn a E 0 j) (cellIn a E 1 j) (cellIn a E 2 j) (cellIn a E 3 j) (cellIn b E 0 j))
    (cellOut (l.map (fun x => x.1)), oneCount ctCELL ((l.map (fun x => x.2)).foldl (· + ·) 0))
  else
    let l := (List.range E).map (fun j => lookup tab i.f (cellIn a E 0 j))
    (cellOut (l.map (fun x => x.1)), oneCount ctCELL (l.countP (fun x => x.2)))

/-- A CELL instruction with sub-operation `sub` is valid by R262. -/
def cellOk (i : Ins) (sub : Nat) : Bool :=
  insVec i && i.sub == sub && insFixed i (ceilDiv i.e 64) && i.d == 0 && (if sub = 2 then i.f ≤ 3 else i.f == 0)

/-- Bytes of a CELL instruction's operands: pre-activations, state, outputs. -/
def cellBytes (i : Ins) (sub : Nat) : Nat × Nat × Nat :=
  if sub = 0 then (8 * i.e, 4 * i.e, 4 * i.e) else if sub = 1 then (8 * i.e, 2 * i.e, 2 * i.e) else (2 * i.e, 0, 2 * i.e)

/-- A CELL instruction of a run. -/
def State.cell (s : State) (r : Run) (m : Image) (core : Nat) (i : Ins) (sub : Nat) : State :=
  let n := cellBytes i sub
  let tab := Map.get s.cellTabs core []
  (r.targets i).foldl (fun u w => u.applyIns r.id core m i n.1 n.2.1 n.2.2 (fun a b _ => cellAll i sub tab a b) w) s

/-- CELL_LSTM (R254). -/
def execCellLstm (core : Fin 64) (i : Ins) (s : State) : Out :=
  s.done (s.onCore core 0x11 i (fun _ => cellOk i 0) (fun u r m => u.cell r m core i 0))
/-- CELL_GRU (R254). -/
def execCellGru (core : Fin 64) (i : Ins) (s : State) : Out :=
  s.done (s.onCore core 0x11 i (fun _ => cellOk i 1) (fun u r m => u.cell r m core i 1))
/-- CELL_TABLE (R253). -/
def execCellTable (core : Fin 64) (i : Ins) (s : State) : Out :=
  s.done (s.onCore core 0x11 i (fun _ => cellOk i 2) (fun u r m => u.cell r m core i 2))

end Sys2Proof.Machine
end

