-- ==== Sys2Proof/Machine/Attention.lean ====
section
/-! DEFINITION. Machine/Attention.lean: APPEND_KV, attention, the caches' commit and rollback, prefix handles and the FELT_ view
(08_attention_and_felt.md, R333 to R373). -/
namespace Sys2Proof.Machine

/-! ## APPEND_KV (R344 to R348) -/

/-- The descriptor that operand A names, read from the core's SRAM (R333). -/
def State.descAt (s : State) (core off : Nat) : AttnDesc := parseAttn (s.rdBytes .sram (sramAt core off) 64)

/-- Positions per felt page. -/
def AttnDesc.ppp (d : AttnDesc) : Nat := if d.entry = 0 then 1 else feltPageBytes / d.entry

/-- Change the working bank of a slot. -/
def State.modWorking (s : State) (i : Nat) (f : CacheBank → CacheBank) : State :=
  s.modSlot i (fun q => q.setBank (1 - q.cur) (f q.other))

/-- A run of tenancy t may reach a page: one of its own, or a captured page of tenancy 0, which a list of another tenancy holds by a cross ATTACH
alone (R340, R343, R371). -/
def State.mayReach (s : State) (t p : Nat) : Bool :=
  let q := s.page p
  q.tenancy == t || (q.tenancy == 0 && q.shared)

/-- The pages of a list that an append from position `from_` on reads or writes. -/
def CacheBank.pagesFrom (b : CacheBank) (from_ ppp : Nat) : List Nat := b.pages.drop (from_ / ppp)

/-- A run holds a page (R342). -/
def State.runHolds (s : State) (id p : Nat) : State := (s.modRun id (fun r => { r with holds := r.holds ++ [p] })).holdPages [p]

/-- Logical page `l` of the working list is there and may be written (R344, R346); false where no page can be had. The third
component counts pages allocated or copied. -/
def State.openPage (s : State) (id t i l : Nat) : State × Bool × Nat :=
  let ps := (s.slot i).other.pages
  if 64 ≤ l then (s.feltFull t, false, 0)
  else match ps[l]? with
    | none =>
      let a := s.allocPage t
      match a.2 with
      | none => (a.1, false, 0)
      | some p => (((a.1.modWorking i (fun b => { b with pages := b.pages ++ [p] })).runHolds id p), true, 1)
    | some x =>
      if !(s.page x).shared then (s, true, 0)
      else
        let a := s.allocPage t
        match a.2 with
        | none => (a.1, false, 0)
        | some p =>
          let u := a.1.copyBytes .felt (feltPageBytes * x) .felt (feltPageBytes * p) feltPageBytes
          let u := (u.modWorking i (fun b => { b with pages := b.pages.set l p })).loseRef x
          ((u.bump FELT_COW t).runHolds id p, true, 1)

/-- Every logical page from `l` on, `n` of them. -/
def State.openPages (id t i : Nat) : Nat → Nat → State × Bool × Nat → State × Bool × Nat
  | _, 0, s => s
  | l, n + 1, s =>
    if s.2.1 then
      let u := s.1.openPage id t i l
      State.openPages id t i (l + 1) n (u.1, u.2.1, s.2.2 + u.2.2)
    else s

/-- The first decoder APPEND_KV of a chunk: the working list, its pages and its length (R341, R345, R346). -/
def State.firstDecoder (s : State) (id t i A : Nat) (d : AttnDesc) : State × Bool × Nat :=
  let s := s.formWorking i
  let b := (s.slot i).other
  let first := b.dlen / d.ppp
  let count := if A = 0 then 0 else (b.dlen + A - 1) / d.ppp - first + 1
  let u := State.openPages id t i first count (s, true, 0)
  if u.2.1 then
    let s := u.1.modSlot i (fun q => { q with decA := some A })
    let s := s.modWorking i (fun w => { w with dlen := b.dlen + A })
    match (s.slot i).home with
    | some a => (s.runWrites id a.core (sramAt a.core (a.off + 0xC)) (toLe 4 A), true, u.2.2)
    | none => (s, true, u.2.2)
  else u

/-- A part is copied into a row's cache: an uncorrectable word that it covers in part faults the row (R542, R549). -/
def State.putPart (s : State) (r : Run) (w : Row) (a : Nat) (sq : Space) (b n : Nat) : State :=
  let bad := !(s.partBad sq b n).isEmpty
  let u := s.copyBytes .sram a sq b n { action := acROW_FAULT, slot := w.slot }
  u.onlyIf bad (fun v => (v.onlyIf (v.rowLive r.id w.slot) (fun x => x.rowPoisoned r.rcd.tenancy)).rowFaults r w sfPOISON)

/-- Write the parts of tokens at decoder positions (R345, R346). -/
def State.putDecoder (s : State) (r : Run) (w : Row) (core n : Nat) (d : AttnDesc) (kv : Nat) : State :=
  let c := (s.slot w.slot).committed.dlen
  (List.range n).foldl (fun u j =>
    let p := c + j
    let page := (u.slot w.slot).other.pages.getD (p / d.ppp) 0
    u.putPart r w (sramAt core (kv + j * d.part)) .felt (feltPageBytes * page + p % d.ppp * d.entry + d.layerOff) d.part) s

/-- Write the parts of tokens at encoder entries (R335, R336, R345). -/
def State.putEncoder (s : State) (r : Run) (w : Row) (core n : Nat) (d : AttnDesc) (kv : Nat) (a : Alloc) : State :=
  let e0 := (s.slot w.slot).committed.head / d.entry
  (List.range n).foldl (fun u j =>
    u.putPart r w (sramAt core (kv + j * d.part)) .sram
      (sramAt a.core (a.cacheOff + (e0 + j) % d.cap * d.entry + d.layerOff)) d.part) s

/-- The encoder positions of a chunk are fixed by its first APPEND_KV: A is clipped to APPEND_MAX (R345). -/
def State.firstEncoder (s : State) (t i len : Nat) (d : AttnDesc) : State :=
  let A := min len d.appendMax
  let s := s.modSlot i (fun q => { q with encA := some A })
  s.onlyIf (decide (A < len)) (fun u => (u.bump FELT_APPEND_CLIP t 0 (len - A)).raise FELT_INT_STAT_APPEND_CLIP t)

/-- Cycles of an APPEND_KV for a row (R348). -/
def appendCycles (A part pages : Nat) : Nat := ceilDiv (A * part) 256 + 256 * pages

/-- APPEND_KV for a row (R345 to R348, R371). -/
def State.appendRow (s : State) (r : Run) (m : Image) (core : Nat) (i : Ins) (d : AttnDesc) (w : Row) : State :=
  let t := r.rcd.tenancy
  let offered := bits i.c 0 16
  if !m.holds core i.b (offered * d.part) then s.coreFault r core cfACCESS
  else match (if r.rcd.lane = 0 then w.alloc else none) with
    | none => s.coreFault r core cfACCESS
    | some a =>
      if d.cache = 1 then
        let b := (s.slot w.slot).committed
        if !(b.pagesFrom b.dlen d.ppp).all (s.mayReach t) then s.coreFault r core cfACCESS else
        let u := match (s.slot w.slot).decA with
          | some _ => (s, true, 0)
          | none => s.firstDecoder r.id t w.slot w.len d
        if !u.2.1 then u.1.rowFaults r w sfFELT
        else
          let A := ((u.1.slot w.slot).decA).getD 0
          (u.1.putDecoder r w core (min offered A) d i.b).spend r core (appendCycles A d.part u.2.2)
      else if a.cacheLen < d.cap * d.entry || d.entry = 0 || d.cap = 0 then s.coreFault r core cfACCESS
      else
        let s := if (s.slot w.slot).encA.isSome then s else s.firstEncoder t w.slot w.len d
        let A := ((s.slot w.slot).encA).getD 0
        (s.putEncoder r w core (min offered A) d i.b a).spend r core (appendCycles A d.part 0)

/-- The run reads its descriptor; then `act`. -/
def State.withDesc (s : State) (r : Run) (m : Image) (core off : Nat) (act : State → Run → AttnDesc → State) : State :=
  if !m.holds core off 64 then s.coreFault r core cfACCESS
  else
    let s := s.runReads r.id core core off 64
    match s.onRun r.id core with
    | some x => act s x (s.descAt core off)
    | none => s

/-- APPEND_KV is valid by R262. -/
def appendOk (i : Ins) : Bool :=
  insPlain i && i.sub == 0 && i.cycles == 0 && i.c < 65536 && i.d == 0 && i.e == 0 && i.f == 0 && i.a % 64 == 0

/-- The row an operand names, while it goes on and its stream still has the chunk. -/
def State.namedRow (s : State) (r : Run) (row : Nat) : Option Row :=
  (r.rows[row]?).filter (fun w => w.fault.isNone && (s.rowChunk r w).isSome)

/-- APPEND_KV (R345). -/
def State.appendKv (s : State) (r : Run) (m : Image) (core : Nat) (i : Ins) (row : Nat) : State :=
  s.withDesc r m core i.a (fun u x d =>
    match u.namedRow x row with
    | some w => u.appendRow x m core i d w
    | none => u)

/-- APPEND_KV (R345). -/
def execAppendKv (core : Fin 64) (i : Ins) (row : Nat) (s : State) : Out :=
  s.done (s.onCore core 0x20 i (fun _ => appendOk i) (fun u r m => u.appendKv r m core i row))

/-! ## Attention (R349 to R356) -/

/-- A query's running state: m, l and o, fp32 patterns (R352). -/
structure Partial where
  m : Nat
  l : Nat
  o : List Nat

/-- The state before the first block. -/
def Partial.start (dim : Nat) : Partial := { m := fp32.infBits true, l := 0, o := List.replicate dim 0 }

/-- Bytes of the state, and back. -/
def Partial.bytes (p : Partial) : List Byte := record ((4, p.m) :: (4, p.l) :: p.o.map (fun x => (4, x)))
def parsePartial (b : List Byte) (dim : Nat) : Partial :=
  { m := le b 0 4, l := le b 4 4, o := (List.range dim).map (fun k => le b (8 + 4 * k) 4) }

/-- fp32(q · k) by the tiles' bf16 path, with its counts (R308, R352). -/
def dotBf (q k : List Nat) (dim : Nat) : Nat × List Nat :=
  (List.range (dim / 8)).foldl (fun a b => bfBlock a ((k.drop (8 * b)).take 8) ((q.drop (8 * b)).take 8)) (0, [])

/-- A key and value of bf16 patterns. -/
abbrev KeyVal := List Nat × List Nat

/-- A product, and a fused multiply-add, of fp32 patterns in the vector unit with its counts so far (R317, R318). -/
def mulC (x y : Nat) : Nat × List Nat :=
  let r := fp32.mulB x y
  (r, fpEvents [fp32.dec x, fp32.dec y] (fp32.dec r))
def fmaC (x y : Nat) (a : Nat × List Nat) : Nat × List Nat :=
  let r := fp32.fmaB x y a.1
  (r, addCounts a.2 (fpEvents [fp32.dec x, fp32.dec y, fp32.dec a.1] (fp32.dec r)))

/-- The counts of a list of counted values, added. -/
def sumCounts (a : List Nat) (l : List (Nat × List Nat)) : List Nat := l.foldl (fun n x => addCounts n x.2) a

/-- One block with its admissible keys in ascending order (R352). A score that is NaN or infinite makes l NaN for good (R353). -/
def attnBlock (dim scale : Nat) (q : List Nat) (ks : List KeyVal) (st : Partial × List Nat) : Partial × List Nat :=
  if ks.isEmpty then st
  else
    let dots := ks.map (fun kv => dotBf q kv.1 dim)
    let sc := dots.map (fun x => mulC x.1 scale)
    let ss := sc.map (fun x => x.1)
    let ct := sumCounts (sumCounts st.2 dots) sc
    let p := st.1
    if ss.any fp32.special then ({ p with l := fp32.qnan, o := p.o.map (fun _ => fp32.qnan) }, ct)
    else
      let m' := ss.foldl (fun a x => fp32.enc ((fp32.dec a).max (fp32.dec x))) p.m
      let c := if p.m = fp32.infBits true then 0 else vecExpB (fp32.subB p.m m')
      let ws := ss.map (fun x => vecExpB (fp32.subB x m'))
      let l := ws.foldl fp32.addB (fp32.mulB p.l c)
      let o := (List.range dim).map (fun e =>
        (List.zip ws ks).foldl (fun a x => fmaC x.1 (bf16.convert fp32 (x.2.2.getD e 0)) a) (mulC (p.o.getD e 0) c))
      ({ m := m', l := l, o := o.map (fun x => x.1) }, sumCounts ct o)

/-- What a query's output is (R352, R353): 0 a vector, 1 empty, 2 NaN. -/
def Partial.kind (p : Partial) : Nat := if fp32.isNan p.l then 2 else if p.l % two 31 = 0 then 1 else 0

/-- The output vector of a partial. -/
def Partial.output (p : Partial) : List Nat :=
  if p.kind = 2 then p.o.map (fun _ => fp32.qnan)
  else if p.kind = 1 then p.o.map (fun _ => 0)
  else
    let r := fp32.enc (fp32.dec p.l).rcp
    p.o.map (fun x => fp32.mulB x r)

/-- What making the output counts, its conversion to bf16 (format 1) among it (R317). -/
def Partial.outputCounts (p : Partial) (fmt : Nat) : List Nat :=
  if p.kind ≠ 0 then []
  else
    let l := p.o.map (fun x => mulC x (fp32.enc (fp32.dec p.l).rcp))
    let n := sumCounts [] l
    if fmt = 1 then l.foldl (fun a x => addCounts a (fpEvents [fp32.dec x.1] (bf16.dec (fp32.convert bf16 x.1)))) n else n

/-- The combine of SEQ_SPLIT partials in ascending order, with its counts (R317, R355). -/
def combineC (dim : Nat) (ps : List Partial) : Partial × List Nat :=
  if ps.any (fun p => p.kind == 2) then ({ Partial.start dim with l := fp32.qnan }, [])
  else
    let live := ps.filter (fun p => p.kind == 0)
    let M := live.foldl (fun a p => fp32.enc ((fp32.dec a).max (fp32.dec p.m))) (fp32.infBits true)
    live.foldl (fun a p =>
      let w := vecExpB (fp32.subB p.m M)
      let o := List.zipWith (fun x y => fmaC w x (y, [])) p.o a.1.o
      ({ m := M, l := fp32.fmaB w p.l a.1.l, o := o.map (fun x => x.1) }, sumCounts a.2 o)) (Partial.start dim, [])
def combine (dim : Nat) (ps : List Partial) : Partial := (combineC dim ps).1

/-- The view of a row: committed and appended positions (R349). -/
structure View where
  base : Nat
  len : Nat

/-- The row's view under a descriptor (R349). -/
def State.view (s : State) (d : AttnDesc) (w : Row) : View :=
  let q := s.slot w.slot
  if d.source = 1 then { base := 0, len := w.len }
  else if d.cache = 1 then { base := q.committed.dlen, len := q.committed.dlen + q.decA.getD 0 }
  else
    let c := if d.entry = 0 then 0 else q.committed.fill / d.entry
    { base := c, len := c + q.encA.getD 0 }

/-- Where the key of view index j lies: its space and byte address (R335, R341, R349). -/
def State.keyAt (s : State) (core : Nat) (d : AttnDesc) (x : AttnX) (w : Row) (a : Alloc) (j : Nat) : Space × Nat :=
  let q := s.slot w.slot
  let h := x.head * 4 * d.dim
  if d.source = 1 then (.sram, sramAt core (x.kv + j * d.part + h))
  else if d.cache = 1 then
    let pages := if q.working then q.other.pages else q.committed.pages
    (.felt, feltPageBytes * pages.getD (j / d.ppp) 0 + j % d.ppp * d.entry + d.layerOff + h)
  else
    let len := max 1 (d.cap * d.entry)
    (.sram, sramAt a.core (a.cacheOff + (q.committed.head + len - q.committed.fill % len + j * d.entry) % len + d.layerOff + h))

/-- The 16-bit values of `n` bytes' worth of elements. -/
def halves (b : List Byte) (n : Nat) : List Nat := (List.range n).map (fun k => le b (2 * k) 2)

/-- Key and value of view index j. -/
def State.keyVal (s : State) (core : Nat) (d : AttnDesc) (x : AttnX) (w : Row) (a : Alloc) (j : Nat) : KeyVal :=
  let p := s.keyAt core d x w a j
  (halves (s.rdBytes p.1 p.2 (2 * d.dim)) d.dim, halves (s.rdBytes p.1 (p.2 + 2 * d.dim) (2 * d.dim)) d.dim)

/-- The run reads key and value of view index j (R543); a page it may not reach stops it with ACCESS (R340, R371). -/
def State.readKey (s : State) (id core : Nat) (d : AttnDesc) (x : AttnX) (w : Row) (a : Alloc) (j : Nat) : State :=
  match s.keyAt core d x w a j with
  | (.sram, p) => s.runReads id core (p / 16777216) (p % 16777216) (4 * d.dim)
  | (.felt, p) =>
    match s.onRun id core with
    | none => s
    | some r => if s.mayReach r.rcd.tenancy (p / feltPageBytes) then s.rowReadsFelt id w.slot p (4 * d.dim) else s.coreFault r core cfACCESS
  | (.dram, _) => s

/-- The mask admits key j for query index q (R349). -/
def maskAdmits (d : AttnDesc) (q j : Nat) : Bool :=
  if d.mask = 0 then true else if d.mask = 1 then j ≤ q else q ≤ j + d.left && j ≤ q + d.right

/-- Segment number of a token; 0 where the descriptor has no segments (R349, R350). -/
def State.segment (s : State) (core : Nat) (i : Ins) (d : AttnDesc) (j : Nat) : Nat :=
  if d.source = 1 && bit d.flags 1 then s.rdLe .sram (sramAt core (i.e + 2 * j)) 2 else 0

/-- Key j is admissible for token t of the row (R349). -/
def State.admits (s : State) (core : Nat) (i : Ins) (d : AttnDesc) (v : View) (t j : Nat) : Bool :=
  maskAdmits d (v.base + t) j &&
  (!(d.source == 1 && bit d.flags 1) || (s.segment core i d j == s.segment core i d t && s.segment core i d j != 0xFFFF)) &&
  (!bit d.flags 0 || bit (s.rdLe .sram (sramAt core (i.d + j / 8)) 1) (j % 8))

/-- Operands of ATTN. -/
def attnQueries (i : Ins) : Nat := bits i.f 0 16
def attnBlockNo (i : Ins) : Nat := bits i.f 16 8
def attnLast (i : Ins) : Bool := bit i.f 24

/-- First and one past the last block of a part (R355). -/
def partBlocks (d : AttnDesc) (nb part : Nat) : Nat × Nat :=
  if d.place = 0 then (0, nb) else (part * nb / d.split, (part + 1) * nb / d.split)

/-- Bytes of a query's running state. -/
def stateBytes (d : AttnDesc) : Nat := 8 + 4 * d.dim

/-- The running state of query k after the block, with the counts. -/
def State.queryBlock (s : State) (core : Nat) (i : Ins) (x : AttnX) (d : AttnDesc) (w : Row) (keys : List (Nat × KeyVal)) (fresh : Bool)
    (k : Nat) : Partial × List Nat :=
  let v := s.view d w
  let t := x.first + k
  let st := if fresh then Partial.start d.dim else parsePartial (s.rdBytes .sram (sramAt core (i.c + k * stateBytes d)) (stateBytes d)) d.dim
  let q := halves (s.rdBytes .sram (sramAt core (i.b + k * 2 * d.dim)) (2 * d.dim)) d.dim
  if s.segment core i d t = 0xFFFF then (st, [])
  else attnBlock d.dim d.scale q ((keys.filter (fun y => s.admits core i d v t y.1)).map (fun y => y.2)) (st, [])

/-- Key of a partial in the run. -/
def partialKey (row head q part : Nat) : Nat := ((row * 64 + head) * 4096 + q) * 8 + part

/-- A query of a row is empty, or NaN: counted once in the chunk; a row once in the run (R353). -/
def State.flagQuery (s : State) (r : Run) (w : Row) (a : Alloc) (t kind : Nat) : State :=
  let tn := r.rcd.tenancy
  match s.rowChunk r w with
  | none => s
  | some c =>
    if kind = 1 then
      let s := s.onlyIf (!c.emptyQ.contains t) (fun u =>
        let u := u.modChunks w.slot (fun y => y.same c) (fun y => { y with emptyQ := y.emptyQ ++ [t] })
        let n := u.rdLe .sram (sramAt a.core (a.off + 8)) 4
        ((u.runWrites r.id a.core (sramAt a.core (a.off + 8)) (toLe 4 (min (two 32 - 1) (n + 1)))).bump FELT_EMPTY_QUERIES tn).raise FELT_INT_STAT_EMPTY tn)
      let first := (s.runBy r.id).any (fun y => y.rows.any (fun z => z.slot == w.slot && !z.empty))
      s.onlyIf first (fun u => (u.bump FELT_EMPTY_ROWS tn).modRun r.id
        (fun y => { y with rows := y.rows.map (fun z => if z.slot = w.slot then { z with empty := true } else z) }))
    else if kind = 2 then
      s.onlyIf (!c.nanQ.contains t) (fun u =>
        ((u.modChunks w.slot (fun y => y.same c) (fun y => { y with nanQ := y.nanQ ++ [t] })).bump FELT_NAN_QUERIES tn).raise
          FELT_INT_STAT_NAN_QUERY tn)
    else s

/-- Outputs of finished queries at operand C, in the format named (R352), and what making them counts (R317); `pads` are the tokens that are
padding (R350). -/
def State.putOutputs (s : State) (r : Run) (core : Nat) (i : Ins) (x : AttnX) (pads : List Nat) (w : Row) (a : Alloc) (ps : List Partial) : State :=
  let outs := ps.flatMap (fun p => p.output.flatMap (fun v => if x.fmt = 1 then toLe 2 (fp32.convert bf16 v) else toLe 4 v))
  let s := (s.runWrites r.id core (sramAt core i.c) outs).tally r.id core (ps.foldl (fun n p => addCounts n (p.outputCounts x.fmt)) [])
  (List.range ps.length).foldl (fun u k =>
    let t := x.first + k
    if pads.contains t then u
    else u.flagQuery r w a t ((ps[k]?).map (fun p => p.kind) |>.getD 0)) s

/-- The LAST block of a part is done: one part gives the outputs; of several, parts above 0 send their partials to part 0's core, and
part 0's combines them (R352, R355). -/
def State.attnFinish (s : State) (r : Run) (core : Nat) (i : Ins) (x : AttnX) (d : AttnDesc) (pads : List Nat) (w : Row) (a : Alloc)
    (ps : List Partial) : State :=
  if d.place = 0 then s.putOutputs r core i x pads w a ps
  else if x.part ≠ 0 then
    let add := fun (t : Map (List Nat)) (k : Nat) => match ps[k]? with
      | some p => Map.put (partialKey x.row x.head (x.first + k) x.part) (p.m :: p.l :: p.o) t
      | none => t
    s.modRun r.id (fun y => { y with partials := (List.range ps.length).foldl add y.partials })
  else
    let get := fun (k j : Nat) => match Map.find r.partials (partialKey x.row x.head (x.first + k) j) with
      | some (m :: l :: o) => ({ m := m, l := l, o := o } : Partial)
      | some _ | none => Partial.start d.dim
    let all := (List.range ps.length).map (fun k => combineC d.dim ((ps[k]?).toList ++ (List.range (d.split - 1)).map (fun j => get k (j + 1))))
    (s.tally r.id core (all.foldl (fun n y => addCounts n y.2) [])).putOutputs r core i x pads w a (all.map (fun y => y.1))

/-- Part 0's last block waits for the partials of the other parts (R355). -/
def Run.partialsMissing (r : Run) (i : Ins) (x : AttnX) (d : AttnDesc) : Bool :=
  d.place == 1 && attnLast i && x.part == 0 &&
    (List.range (attnQueries i)).any (fun k => (List.range (d.split - 1)).any (fun j =>
      (Map.find r.partials (partialKey x.row x.head (x.first + k) (j + 1))).isNone))

/-- Ranges an attention instruction names: queries, running state, key mask, segments, and the row's own tokens (R261, R349). -/
def attnRanges (i : Ins) (x : AttnX) (d : AttnDesc) (v : View) : List (Nat × Nat) :=
  let n := attnQueries i
  [(i.b, n * 2 * d.dim), (i.c, n * stateBytes d)] ++ (if bit d.flags 0 then [(i.d, ceilDiv v.len 8)] else []) ++
  (if d.source = 1 then [(x.kv, v.len * d.part)] ++ (if bit d.flags 1 then [(i.e, 2 * v.len)] else []) else [])

/-- ATTN on a row (R352 to R355). -/
def State.attnRow (s : State) (r : Run) (m : Image) (core : Nat) (i : Ins) (x : AttnX) (d : AttnDesc) (w : Row) (a : Alloc) : State :=
  let v := s.view d w
  let ranges := attnRanges i x d v
  if !ranges.all (fun y => m.holds core y.1 y.2) then s.coreFault r core cfACCESS
  else
    let nb := ceilDiv v.len 128
    let pb := partBlocks d nb x.part
    let b := attnBlockNo i
    let idx := if pb.1 ≤ b && b < pb.2 then (List.range (min 128 (v.len - 128 * b))).map (fun j => 128 * b + j) else []
    let s := ranges.foldl (fun u y => u.runReads r.id core core y.1 y.2) s
    let s := if d.source = 1 then s else idx.foldl (fun u j => u.readKey r.id core d x w a j) s
    if !s.rowLive r.id w.slot then s
    else
      let keys := idx.map (fun j => (j, s.keyVal core d x w a j))
      let res := (List.range (attnQueries i)).map (fun k => s.queryBlock core i x d w keys (b ≤ pb.1 || pb.2 ≤ pb.1) k)
      let ps := res.map (fun y => y.1)
      let pads := ((List.range (attnQueries i)).map (fun k => x.first + k)).filter (fun t => s.segment core i d t == 0xFFFF)
      let s := s.tally r.id core (res.foldl (fun n y => addCounts n y.2) [])
      let s := s.runWrites r.id core (sramAt core i.c) (ps.flatMap Partial.bytes)
      if attnLast i then s.attnFinish r core i x d pads w a ps else s

/-- ATTN is valid by R262. -/
def attnOk (i : Ins) : Bool :=
  insPlain i && i.sub == 0 && insFixed i 1 && 1 ≤ attnQueries i && attnQueries i ≤ 32 && i.f < two 25 && i.a % 64 == 0

/-- ATTN (R352). -/
def State.attn (s : State) (r : Run) (m : Image) (core : Nat) (i : Ins) (x : AttnX) : State :=
  s.withDesc r m core i.a (fun u y d =>
    match u.namedRow y x.row with
    | none => u
    | some w =>
      match w.alloc with
      | some a => if x.head < d.heads && x.part < max 1 d.split then u.attnRow y m core i x d w a else u
      | none => u.coreFault y core cfACCESS)

/-- The instruction waits for the partials of other cores (R355). -/
def State.attnWaits (s : State) (core : Nat) (i : Ins) (x : AttnX) : Bool :=
  (s.runOn core).any (fun r => (s.runImage r).any (fun m => s.meets r m core 4 i) && r.partialsMissing i x (s.descAt core i.a))

/-- ATTN (R352). -/
def execAttn (core : Fin 64) (i : Ins) (x : AttnX) (s : State) : Out :=
  s.done (if s.attnWaits core i x then s else s.onCore core 4 i (fun _ => attnOk i) (fun u r m => u.attn r m core i x))

/-! ## Commit of the caches (R336, R341, R357, R358) -/

/-- The encoder's head and fill after a commit (R336). -/
def encoderAfter (b : CacheBank) (A : Option Nat) (c : Option (Nat × Nat × Nat)) : Nat × Nat :=
  match A, c with
  | some n, some (entry, cap, win) =>
    ((b.head + n * entry) % max 1 (cap * entry), min (b.fill + n * entry) (win * entry))
  | _, _ => (b.head, b.fill)

/-- SPEC_N and SPEC_ACCEPT as taken, and how many were substituted (R357). -/
def specTaken (n acc A : Nat) : Nat × Nat × Nat :=
  let n' := if 8 < n || A < n then min n (min 8 A) else n
  let a' := if n' < acc then n' else acc
  (n', a', b2n (n' != n) + b2n (a' != acc))

/-- The rollback of a working list (R358): `old` is the committed list, `from_` the first position appended, `kept` the new length. -/
def State.rollback (s : State) (old work : List Nat) (ppp from_ kept : Nat) : State × List Nat :=
  (List.range work.length).foldl (fun (q : State × List Nat) l =>
    let w := work.getD l 0
    let holdsKept := from_ < kept && from_ / ppp ≤ l && l ≤ (kept - 1) / ppp
    if old[l]? = some w || holdsKept then (q.1, q.2 ++ [w])
    else match old[l]? with
      | some o => ((q.1.gainRef o).loseRef w, q.2 ++ [o])
      | none => (q.1.loseRef w, q.2)) (s, [])

/-- The working caches of a slot become committed (R93, R94, R336, R341, R357). -/
def State.commitCaches (s : State) (i : Nat) : State :=
  let q := s.slot i
  let t := s.tenancyOf i
  let old := q.committed
  let enc := encoderAfter old q.encA (s.encCache t q.family)
  let entry := s.decEntry t q.family
  let ppp := if entry = 0 then 1 else feltPageBytes / entry
  let hdr := match q.home with
    | some a => (s.rdLe .sram (sramAt a.core (a.off + 4)) 1, s.rdLe .sram (sramAt a.core (a.off + 5)) 1)
    | none => (0, 0)
  match q.decA with
  | none =>
    let new : CacheBank := { pages := old.pages, dlen := old.dlen, head := enc.1, fill := enc.2 }
    s.modSlot i (fun q =>
      let q := (q.setBank q.cur { q.committed with pages := [], dlen := 0 }).setBank (1 - q.cur) new
      { q with cur := 1 - q.cur, working := false, decA := none, encA := none })
  | some A =>
    let sp := specTaken hdr.1 hdr.2 A
    let kept := old.dlen + A - sp.1 + sp.2.1
    let s := s.onlyIf (sp.2.2 != 0) (fun u => (u.bump FELT_SPEC_CLAMP t 0 sp.2.2).raise FELT_INT_STAT_SPEC_CLAMP t)
    let s := s.bump FELT_SPEC_ROLLBACK t 0 (sp.1 - sp.2.1)
    let u := if sp.1 = sp.2.1 then (s, q.other.pages) else s.rollback old.pages q.other.pages ppp old.dlen kept
    let s := u.1.loseRefs old.pages
    let new : CacheBank := { pages := u.2, dlen := kept, head := enc.1, fill := enc.2 }
    s.modSlot i (fun q =>
      let q := (q.setBank q.cur { q.committed with pages := [], dlen := 0 }).setBank (1 - q.cur) new
      { q with cur := 1 - q.cur, working := false, decA := none, encA := none })

/-! ## Prefix handles (R343) -/

/-- Codes of FELT_PFX_STAT (R373). -/
def pxSLOT : Nat := 1
def pxSTATE : Nat := 2
def pxHANDLE_BUSY : Nat := 3
def pxHANDLE_EMPTY : Nat := 4
def pxNOT_EMPTY : Nat := 5
def pxCROSS : Nat := 6
def pxBUSY : Nat := 7

/-- A refused prefix command. -/
def State.pfxRefuse (s : State) (t code : Nat) : State :=
  ((s.set FELT_PFX_STAT_CODE code t).bump FELT_PFX_REFUSED t).raise FELT_INT_STAT_PFX_REFUSED t

/-- A prefix command bit is written: the slot and the handle are taken now (R343, R670). -/
def State.pfxTake (s : State) (t kind : Nat) : State :=
  if (Map.find s.pfx t).isSome || !s.cdReady then s.pfxRefuse t pxBUSY
  else
    let c : PfxCmd := { kind := kind, slot := s.get FELT_PFX_SLOT t, handle := s.get FELT_PFX_HANDLE_HANDLE t, cross := s.flag FELT_PFX_HANDLE_CROSS t, at_ := s.cnt }
    { (s.set FELT_STAT_PFX_PENDING 1 t).set FELT_PFX_STAT_PENDING 1 t with pfx := Map.put t c s.pfx }

/-- PFX_CAPTURE (R343). -/
def execPfxCapture (dt : Nat) (p : Party) (t : Fin 64) (s : State) : Out :=
  s.done ((s.elapse dt).access p .felt t .page (fun u => u.pfxTake t 0))
/-- PFX_ATTACH (R343). -/
def execPfxAttach (dt : Nat) (p : Party) (t : Fin 64) (s : State) : Out :=
  s.done ((s.elapse dt).access p .felt t .page (fun u => u.pfxTake t 1))
/-- PFX_DROP (R343). -/
def execPfxDrop (dt : Nat) (p : Party) (t : Fin 64) (s : State) : Out :=
  s.done ((s.elapse dt).access p .felt t .page (fun u => u.pfxTake t 2))

/-- A handle of a tenancy. -/
def State.handle (s : State) (t h : Nat) : Handle := Map.get s.handles (16 * t + h) {}

/-- A slot's state admits a prefix command (R343). -/
def Slot.pfxState (q : Slot) : Bool :=
  q.tearing.isNone && (q.state == .listen || q.state == .transcribe || q.state == .admitted || q.state == .parked)

/-- A chunk of the slot has begun stage 0 and has not ended. -/
def Slot.begun (q : Slot) : Bool :=
  q.chunks.any (fun c => c.status.isNone && (match c.stage with
    | .running _ _ | .committing => true
    | .eligible k => k != 0
    | .waiting | .settled => false))

/-- The refusal that a command meets at its boundary; 0 for none. -/
def State.pfxCheck (s : State) (t : Nat) (c : PfxCmd) : Nat :=
  let q := s.slot c.slot
  if c.kind = 0 then
    if !s.inRange t c.slot then pxSLOT
    else if !q.pfxState || q.committed.pages.isEmpty then pxSTATE
    else if (s.handle t c.handle).used then pxHANDLE_BUSY
    else if c.cross && t ≠ 0 then pxCROSS else 0
  else if c.kind = 1 then
    let h := s.handle (if c.cross then 0 else t) c.handle
    if !s.inRange t c.slot then pxSLOT
    else if !q.pfxState || q.holder == .engine || q.begun then pxSTATE
    else if !q.committed.pages.isEmpty then pxNOT_EMPTY
    else if !h.used then pxHANDLE_EMPTY
    else if c.cross && !(h.cross && bit (s.get2 FELT_XSHARE_LO FELT_XSHARE_HI) t) then pxCROSS else 0
  else if !(s.handle t c.handle).used then pxHANDLE_EMPTY else 0

/-- The effect of a prefix command (R343). -/
def State.pfxApply (s : State) (t : Nat) (c : PfxCmd) : State :=
  if c.kind = 0 then
    let b := (s.slot c.slot).committed
    let s := b.pages.foldl (fun u p => (u.gainRef p).modPage p (fun x => { x with shared := true })) s
    { s with handles := Map.put (16 * t + c.handle) { pages := b.pages, dlen := b.dlen, cross := c.cross, used := true } s.handles }
  else if c.kind = 1 then
    let h := s.handle (if c.cross then 0 else t) c.handle
    (s.gainRefs h.pages).modSlot c.slot (fun q => q.setBank q.cur { q.committed with pages := h.pages, dlen := h.dlen })
  else
    let s := s.loseRefs (s.handle t c.handle).pages
    { s with handles := Map.del (16 * t + c.handle) s.handles }

/-- A prefix command takes effect at a boundary, and its result is recorded. -/
def State.pfxDue (s : State) (t : Nat) (c : PfxCmd) : State :=
  let s := { (s.set FELT_STAT_PFX_PENDING 0 t).set FELT_PFX_STAT_PENDING 0 t with pfx := Map.del t s.pfx }
  let code := s.pfxCheck t c
  if code ≠ 0 then s.pfxRefuse t code
  else ((s.pfxApply t c).set FELT_PFX_STAT_CODE 0 t).raise FELT_INT_STAT_PFX_DONE t
def State.pfxBoundary (s : State) : State :=
  s.pfx.foldl (fun u e => if e.2.at_ < u.tickAt u.tt.tick then u.pfxDue e.1 e.2 else u) s

/-! ## The view (R373) -/

/-- A read of FELT_VIEW_DEC latches the view of the slot that FELT_SEL names. -/
def State.viewFelt (s : State) (p : Party) (t : Nat) : State :=
  let i := s.get FELT_SEL t
  let q := s.slot i
  let ok := s.inRange t i
  let entry := match s.encCache t q.family with
    | some c => max 1 c.1
    | none => 1
  let v := fun (n : Nat) => if ok then n else 0
  let s := s.latch p FELT_VIEW_DLEN (v q.committed.dlen) t
  let s := s.latch p FELT_VIEW_ENC_FILL (v (q.committed.fill / entry)) t
  let s := s.latch p FELT_VIEW_ENC_HEAD (v (q.committed.head / entry)) t
  s.returns (if ok then q.committed.pages.length else two 31)

/-- FELT_VIEW_DEC_READ (R373). -/
def execFeltViewDecRead (dt : Nat) (p : Party) (t : Fin 64) (s : State) : Out :=
  s.done ((s.elapse dt).reading p .felt t (fun u => u.viewFelt p t))

end Sys2Proof.Machine
end

