-- ==== Sys2Proof/Machine/Commit.lean ====
section
/-! DEFINITION. Machine/Commit.lean: results and commits at the stream die, and features on their way to the cores (R91, R94, R96, R101,
R107, R149, R274, R605, R607). -/
namespace Sys2Proof.Machine

/-! ## The result store (R605) -/

/-- Bytes of a message's payload (R279). -/
def payload : Nat := 4096

/-- Units of the result store, and bytes of one. -/
def resultUnits : Nat := 256
def resultUnit : Nat := 16384

/-- Units that hold a tenancy's results, if `n` more bytes are added (R605). -/
def State.resultUsed (s : State) (t n : Nat) : Nat :=
  ceilDiv (((s.iso.held.filter (fun e => e.2.1 == t)).map (fun e => e.2.2)).foldl (· + ·) 0 + n) resultUnit

/-- Units of the shared part that a tenancy uses, and all tenancies but one. -/
def State.sharedUse (s : State) (t n : Nat) : Nat := s.resultUsed t n - s.get ISO_RES_RESERVE t
def State.sharedOthers (s : State) (t : Nat) : Nat :=
  (((List.range 64).filter (fun u => u ≠ t)).map (fun u => s.sharedUse u 0)).foldl (· + ·) 0

/-- Units of the shared part (R605). -/
def State.sharedPart (s : State) : Nat := resultUnits - ((List.range 64).map (fun t => s.get ISO_RES_RESERVE t)).foldl (· + ·) 0

/-- The store accepts `n` more bytes of a tenancy (R605). -/
def State.resultRoom (s : State) (t n : Nat) : Bool :=
  s.sharedUse t n = 0 || s.sharedOthers t + s.sharedUse t n ≤ s.sharedPart

/-- The first message of a slot that satisfies `c`, and the others in order. -/
def takeMsg (c : CommitMsg → Bool) : List CommitMsg → Option (CommitMsg × List CommitMsg)
  | [] => none
  | x :: l => if c x then some (x, l) else (takeMsg c l).map (fun y => (y.1, x :: y.2))

/-- Change the first message that satisfies `c`. -/
def modMsg (c : CommitMsg → Bool) (f : CommitMsg → CommitMsg) : List CommitMsg → List CommitMsg
  | [] => []
  | x :: l => if c x then f x :: l else x :: modMsg c f l

/-- The record a message stands for. -/
def State.msgChunk (s : State) (x : CommitMsg) : Option Chunk :=
  (s.slot x.slot).chunks.find? (fun c => c.k == x.k && decide (c.stage = .committing) && c.status.isNone && c.trans == (x.lane == 0))

/-- A RESULT message of at most 4 KiB is accepted, or waits for room (R274, R279, R605). -/
def State.resultArrives (s : State) (x : CommitMsg) : State :=
  let t := s.tenancyOf x.slot
  let piece := x.rest.take payload
  let sel := fun (y : CommitMsg) => y.slot == x.slot && y.k == x.k && y.run == x.run
  if s.resultRoom t piece.length then
    let key := resKey x.slot x.k
    let old := (Map.get s.iso.held key (t, 0)).2
    let s : State := { s with commits := modMsg sel (fun y => { y with rest := y.rest.drop payload }) s.commits,
                              iso := { s.iso with held := Map.put key (t, old + piece.length) s.iso.held } }
    let s := match s.msgChunk x with
      | some c => s.modChunks x.slot (fun y => y.same c) (fun y => { y with result := y.result ++ piece })
      | none => s
    (s.onlyIf (old == 0) (fun u => u.placeItem 4 x.slot)).finishRun x.run
  else if x.waited then s
  else
    let s : State := { s with commits := modMsg sel (fun y => { y with waited := true }) s.commits, iso := { s.iso with resWait := true } }
    (s.bump ISO_T_RES_WAIT t).bump ISO_RES_WAIT

/-- RESULT_MESSAGE (R274): nothing happens where no result bytes of the slot are on the link. -/
def execResultMessage (dt : Nat) (slot : Fin 8192) (s : State) : Out :=
  let u := s.elapse dt
  s.done (if !u.couchUp then u
    else match u.commits.find? (fun x => x.slot == slot.val && !x.rest.isEmpty) with
      | some x => u.resultArrives x
      | none => u)

/-! ## The commit (R91, R94, R274) -/

/-- A commit takes effect where its epoch is the current one and the scheduler holds the token (R91, R92); while an EXPORT is in progress, also
where it is that of a chunk before the export tick under the scheduler's last epoch (R107). -/
def Slot.accepts (q : Slot) (x : CommitMsg) : Bool :=
  (q.holder == .scheduler && q.epoch == x.epoch) ||
  (match q.exp with
    | some e => q.limit.any (fun l => x.k < l) && x.epoch == e.oldEpoch
    | none => false)

/-- The last TRANSCRIBE chunk after a DEMOTE has ended (R101, R337). -/
def State.demoteOver (s : State) (i : Nat) : State :=
  let q := s.slot i
  s.onlyIf (q.demoting && !q.chunks.any (fun c => c.trans && c.joined.isSome && c.status.isNone)) (fun u => u.demoteEnd i)

/-- An accepted commit: CUR flips and the chunk's counters advance (R94, R101, R149). -/
def State.commitAccepted (s : State) (x : CommitMsg) (c : Chunk) : State :=
  let i := x.slot
  let s := if x.lane = 0 then s.commitCaches i else s.modSlot i Slot.flip
  let s := s.modChunks i (fun y => y.same c) (fun y => { y with status := some stOK, truncated := y.truncated || x.truncated })
  let s := s.modSlot i (fun q => { q with cnt := { q.cnt with chunks := q.cnt.chunks + 1 } })
  let demotes := x.eou && (s.slot i).par.autoDemote && (s.slot i).state == .transcribe && x.lane == 0
  let s := s.onlyIf demotes (fun u => u.modSlot i (fun q => { q with demoteNext := true }))
  ((s.demoteOver i).flush i).advance i

/-- The status of a chunk whose commit is dropped, by the state of its slot (R102, R106, R107, R115, R119). For a slot that still runs R119
names none: it is STOPPED in DRAINING and OK, without results, in LISTEN and TRANSCRIBE (assumption 55). -/
def Slot.droppedStatus (q : Slot) : Nat :=
  match q.state with
  | .faulted => stFAULTED
  | .parked => stPARKED
  | .draining => stSTOPPED
  | .listen | .transcribe => stOK
  | .free | .admitted => if q.tearing.isSome then stTORN else stFAULTED

/-- A dropped commit (R91, R94, R274): the result bytes are discarded and the previous state stays. -/
def State.commitDropped (s : State) (x : CommitMsg) : State :=
  let i := x.slot
  let s := s.stale i
  match s.msgChunk x with
  | some c =>
    let st := (s.slot i).droppedStatus
    let s := (s.dropWorking i).modChunks i (fun y => y.same c) (fun y => { y with status := some st, result := [] })
    (((s.freeResult i x.k).demoteOver i).flush i).advance i
  | none => s.freeResult i x.k

/-- A COMMIT message is tested (R91, R274): in a tenancy stopped by the ledger a current one goes without effect (R582), and a chunk that is to
fault does not commit (R102). -/
def State.commitTested (s : State) (x : CommitMsg) : State :=
  let q := s.slot x.slot
  match s.msgChunk x with
  | some c =>
    if !q.accepts x then s.commitDropped x
    else if s.stoppedT (s.tenancyOf x.slot) || q.faultDue.any (fun f => f.2 == x.k) then s.freeResult x.slot x.k
    else s.commitAccepted x c
  | none => s.commitDropped x

/-- COMMIT (R274): nothing happens where no COMMIT of the slot is on the link. -/
def execCommit (dt : Nat) (slot : Fin 8192) (s : State) : Out :=
  let u := s.elapse dt
  s.done (if !u.couchUp then u
    else match takeMsg (fun x => x.slot == slot.val && x.rest.isEmpty) u.commits with
      | some y => ({ u with commits := y.2 }).commitTested y.1
      | none => u)

/-! ## Features (R193, R266, R607) -/

/-- The next message of the features of the slot's next chunk arrives in its feature area; with the last they are all there (R266, R279, R607). -/
def State.featuresArrive (s : State) (i : Nat) (c : Chunk) : State :=
  let q := s.slot i
  match (if c.trans then q.home else q.listen) with
  | none => s
  | some a =>
    let v := Map.get q.audio.feats c.k []
    let b := fit (min a.feat (4 * v.length)) (v.flatMap (fun x => toLe 4 x))
    let n := c.featSent + payload
    let s := s.wr .sram (sramAt a.core (a.off + 64 + c.featSent)) ((b.drop c.featSent).take payload)
    let s := s.modChunks i (fun y => y.same c) (fun y => { y with featSent := n, featured := b.length ≤ n })
    s.onlyIf (b.length ≤ n) (fun t => t.modAudio i (fun u => { u with feats := Map.del c.k u.feats }))

/-- FEAT_MESSAGE (R607): nothing happens where the slot's next chunk has not joined a tick, or has its features. -/
def execFeatMessage (dt : Nat) (slot : Fin 8192) (s : State) : Out :=
  let u := s.elapse dt
  s.done (if !u.dieUp then u
    else match (u.slot slot).chunks.find? (fun c => c.status.isNone) with
      | some c => if c.joined.isSome && !c.featured then u.featuresArrive slot c else u
      | none => u)

end Sys2Proof.Machine
end

