-- ==== Sys2Proof/Machine/LinkOps.lean ====
section
/-! DEFINITION. Machine/LinkOps.lean: Buarcon Link: nodes, routes, packets, credits, the route map and its generations (11_buarcon_link.md). -/
namespace Sys2Proof.Machine

/-! ## Nodes and directions (R471, R475) -/

/-- This chip's node number and the consist's dimensions. -/
def State.node (s : State) : Nat := s.get BL_NODE_NODE
def State.dx (s : State) : Nat := s.get BL_NODE_DX
def State.dy (s : State) : Nat := s.get BL_NODE_DY

/-- Port states of R502. -/
def ptDARK : Nat := 0
def ptTRAINING : Nat := 1
def ptCHECK : Nat := 2
def ptIN_SERVICE : Nat := 3
def ptSIDING : Nat := 4
def ptSIDED : Nat := 5
def ptRETURNING : Nat := 6

/-- Ports of direction 0 +X, 1 −X, 2 +Y, 3 −Y (R471). -/
def dirPorts (dx dy d : Nat) : List Nat :=
  if dx * dy ≤ 1 then []
  else if dy = 1 then (if d = 0 then [0, 1, 4, 5] else if d = 1 then [2, 3, 6, 7] else [])
  else [2 * d, 2 * d + 1]

/-- The direction of a port (R471). -/
def portDir (dy p : Nat) : Nat := if dy ≤ 1 then p / 2 % 2 else p / 2

/-- The port that the neighbour's end of port p has (R471). -/
def pairedPort (p : Nat) : Nat := p ^^^ 2

/-- The neighbour of a node in a direction. -/
def neighbour (dx dy n d : Nat) : Nat :=
  let x := n % dx
  let y := n / dx
  if d = 0 then (x + 1) % dx + y * dx
  else if d = 1 then (x + dx - 1) % dx + y * dx
  else if d = 2 then x + (y + 1) % dy * dx
  else x + (y + dy - 1) % dy * dx

/-- The hop from a node in a direction crosses the dimension's wrap link (R476). -/
def wraps (dx dy n d : Nat) : Bool :=
  if d = 0 then n % dx + 1 == dx else if d = 1 then n % dx == 0 else if d = 2 then n / dx + 1 == dy else n / dx == 0

/-! ## Routes (R473, R474, R476) -/

/-- One hop of a route: the node it leaves, its direction, its class. -/
structure Hop where
  node : Nat
  dir : Nat
  cls : Nat
deriving DecidableEq, Repr

/-- `n` hops from a node in a direction; class 1 from the wrap link on. -/
def hops (dx dy d : Nat) : Nat → Nat → Bool → List Hop
  | 0, _, _ => []
  | n + 1, at_, past =>
    let w := past || wraps dx dy at_ d
    { node := at_, dir := d, cls := b2n w } :: hops dx dy d n (neighbour dx dy at_ d) w

/-- Direction and length of a dimension's hops: `base` is its + direction, n its length. -/
def leg (base n src dst : Nat) (longer : Bool) : Nat × Nat :=
  let off := (dst + n - src) % n
  if off = 0 then (base, 0) else if (decide (2 * off ≤ n)) != longer then (base, off) else (base + 1, n - off)

/-- The hops of a route of one kind (R473). -/
def route (dx dy src dst kind : Nat) : List Hop :=
  let lx := leg 0 dx (src % dx) (dst % dx) (kind == 2)
  let ly := leg 2 dy (src / dx) (dst / dx) (kind == 3)
  if kind % 2 = 0 then hops dx dy lx.1 lx.2 src false ++ hops dx dy ly.1 ly.2 (dst % dx + src / dx * dx) false
  else hops dx dy ly.1 ly.2 src false ++ hops dx dy lx.1 lx.2 (src % dx + dst / dx * dx) false

/-- The state of a port of the consist in the map in force: 0 where it is absent (R477). -/
def State.mapAt (s : State) (n p : Nat) : Nat := Map.get s.bl.map (8 * n + p) 0

/-- Every hop has an IN_SERVICE port in a map (R474). -/
def routeOpen (map : Map Nat) (dx dy : Nat) (r : List Hop) : Bool :=
  r.all (fun h => (dirPorts dx dy h.dir).any (fun p => Map.get map (8 * h.node + p) 0 == ptIN_SERVICE))

/-- The lowest-numbered route kind that is open in a map (R474). -/
def routeIn (map : Map Nat) (dx dy src dst : Nat) : Option Nat :=
  if dx = 0 || dy = 0 || dx * dy ≤ dst then none
  else (List.range 4).find? (fun k => routeOpen map dx dy (route dx dy src dst k))

/-- A destination is reachable under the map in force (R474). -/
def State.routeTo (s : State) (dst : Nat) : Option Nat := routeIn s.bl.map s.dx s.dy s.node dst
def State.reachable (s : State) (dst : Nat) : Bool := (s.routeTo dst).isSome

/-- The other nodes that a map reaches, as a mask (R474). -/
def State.reachIn (s : State) (map : Map Nat) : Nat :=
  maskOf ((List.range (s.dx * s.dy)).filter (fun n => n != s.node && (routeIn map s.dx s.dy s.node n).isSome))

/-! ## Ports, books and queues (R468 to R470, R576) -/

/-- A port beyond its registers. -/
def State.blPort (s : State) (p : Nat) : BlPort := Map.get s.bl.ports p {}
def State.modBl (s : State) (f : Bl → Bl) : State := { s with bl := f s.bl }
def State.modBlPort (s : State) (p : Nat) (f : BlPort → BlPort) : State :=
  s.modBl (fun b => { b with ports := Map.put p (f (s.blPort p)) b.ports })

/-- The state of one of this chip's ports. -/
def State.blState (s : State) (p : Nat) : Nat := s.get BL_PORT_STAT_STATE p

/-- Credits of a VC and class (R469); key is VC × 2 + class. -/
def creditsOf (key : Nat) : Nat := if key < 2 then 16 else if key < 4 then 48 else 96

/-- The VC of a packet type (R466). -/
def vcOf (kind : Nat) : Option Nat :=
  if kind = 1 || kind = 2 then some 0
  else if kind = 0x10 || kind = 0x11 then some 1
  else if 0x20 ≤ kind && kind ≤ 0x25 then some 2
  else if kind = 0x30 then some 3
  else none

/-- Flit bodies of a packet (R461, R465). -/
def bodiesOf (pk : Packet) : Nat := ceilDiv (16 + pk.payload.length) 228

/-- Change a book. -/
def BlPort.modBook (q : BlPort) (key : Nat) (f : LinkBook → LinkBook) : BlPort :=
  { q with books := Map.put key (f (Map.get q.books key {})) q.books }

/-- Flits of the replay buffer (R463). -/
def replayDepth : Nat := 128

/-- A flit leaves: it carries ACK, every credit owed, and a body where there is one, and stays in the replay buffer (R461, R463, R469). -/
def BlPort.sendFlit (q : BlPort) (body : Option (Nat × Packet × Nat)) : BlPort :=
  let f : SentFlit := { fseq := q.next, ack := (q.expect + 65535) % 65536, credits := (List.range 8).map (fun k => (Map.get q.books k {}).owed),
                        body := body }
  let paid := fun (u : BlPort) (k : Nat) => if (Map.get u.books k {}).owed = 0 then u
    else u.modBook k (fun b => { b with owed := 0, sentBack := (b.sentBack + b.owed) % two 32 })
  let ctl := if body.any (fun x => x.1 < 2) then q.next :: q.ctl else q.ctl
  { (List.range 8).foldl paid q with next := (q.next + 1) % 65536, unacked := q.unacked ++ [f],
                                     ctl := ctl.filter (fun c => (q.next + 1 + 65536 - c) % 65536 ≤ 1023) }

/-- Credits owed leave in an idle flit, where the replay buffer has room (R461, R463, R469). -/
def BlPort.returnCredits (q : BlPort) : BlPort :=
  if (List.range 8).any (fun k => (Map.get q.books k {}).owed != 0) && q.unacked.length < replayDepth then q.sendFlit none else q

/-- The flits that an ACK names as received leave the replay buffer (R461, R463). -/
def BlPort.acknowledge (q : BlPort) (ack : Nat) : BlPort :=
  { q with unacked := q.unacked.dropWhile (fun f => decide ((ack + 65536 - f.fseq) % 65536 < 32768)) }

/-- `n` bodies leave a receive buffer, and their credits are returned (R469). -/
def State.release (s : State) (o : Option (Nat × Nat × Nat)) : State :=
  match o with
  | none => s
  | some (p, key, n) =>
    s.modBlPort p (fun q => (q.modBook key (fun b => { b with buffered := b.buffered - n, owed := b.owed + n })).returnCredits)

/-- Flits of CONTROL that every window of 1,024 flits may hold: 5% (R468). -/
def ctlShare : Nat := 51

/-- The packet whose next body a VC may send: the first of its class in order, where a credit for it is held (R468, R469). -/
def BlPort.offers (q : BlPort) (vc : Nat) : Option OutPkt :=
  q.outq.find? (fun x => x.key / 2 == vc && 1 ≤ (Map.get q.books x.key {}).held && decide (q.outq.find? (fun y => y.key == x.key) = some x))

/-- The arbitration of one flit (R468): CONTROL first, within its share where another VC could send; the others in turn. Nothing leaves
while the replay buffer is full (R463). -/
def BlPort.choose (q : BlPort) : Option OutPkt :=
  let rest := [q.turn, q.turn % 3 + 1, (q.turn + 1) % 3 + 1].findSome? q.offers
  if replayDepth ≤ q.unacked.length then none
  else match q.offers 0 with
    | some x => if q.ctl.length < ctlShare || rest.isNone then some x else rest
    | none => rest

/-- Change the first packet of a key in a queue. -/
def atHead (key : Nat) (f : OutPkt → List OutPkt) : List OutPkt → List OutPkt
  | [] => []
  | x :: l => if x.key = key then f x ++ l else x :: atHead key f l

/-- The next body of a queued packet leaves; with its last body the packet has gone (R468, R469). -/
def BlPort.sendBody (q : BlPort) (x : OutPkt) : BlPort :=
  let last := decide (bodiesOf x.pk ≤ x.gone + 1)
  let q := { q with turn := if x.key < 2 then q.turn else x.key / 2 % 3 + 1,
                    outq := atHead x.key (fun y => if last then [] else [{ y with gone := y.gone + 1 }]) q.outq,
                    sent := if last then x.pk :: q.sent else q.sent }
  (q.modBook x.key (fun b => { b with held := b.held - 1, sent := (b.sent + 1) % two 32 })).sendFlit (some (x.key, x.pk, x.gone))

/-- Flit by flit, what waits at a port leaves (R463, R468, R469); a packet that has gone leaves the input buffer that held it. -/
def State.pumpGo (p : Nat) : Nat → State → State
  | 0, s => s
  | n + 1, s =>
    match (s.blPort p).choose with
    | none => s
    | some x =>
      let s := s.modBlPort p (fun q => q.sendBody x)
      State.pumpGo p n (s.onlyIf (decide (bodiesOf x.pk ≤ x.gone + 1)) (fun u => u.release x.from_))
def State.pump (s : State) (p : Nat) : State :=
  State.pumpGo p (((s.blPort p).outq.map (fun x => bodiesOf x.pk - x.gone)).foldl (· + ·) 0) s

/-- Queue a packet at an output. -/
def State.queueAt (s : State) (p : Nat) (x : OutPkt) : State := (s.modBlPort p (fun q => { q with outq := q.outq ++ [x] })).pump p

/-- The output port of a hop at this node (R475). -/
def State.pickPort (s : State) (pk : Packet) (d : Nat) : Option Nat :=
  let set := dirPorts s.dx s.dy d
  let n := pk.src.val + pk.dst.val
  let best := if s.dy = 1 then set.getD (n % 4) 0 else 2 * d + n % 2
  let order := if set.contains best then best :: set.filter (fun p => p != best) else set
  match order.find? (fun p => s.blState p == ptIN_SERVICE) with
  | some p => some p
  | none => order.find? (fun p => s.blState p == ptSIDING)

/-- A counted packet of a generation is injected, or delivered or discarded, here (R478). -/
def State.countInj (s : State) (pk : Packet) : State :=
  if pk.counted then s.modBl (fun b => { b with inj := b.inj.plus pk.gen 1 }) else s
def State.countEj (s : State) (pk : Packet) : State :=
  if pk.counted then s.modBl (fun b => { b with ej := b.ej.plus pk.gen 1 }) else s

/-- A packet leaves by the hop of its route at this node; where no port takes it, it is discarded (R475). -/
def State.forward (s : State) (pk : Packet) (o : Option (Nat × Nat × Nat)) : State :=
  let hop := (route s.dx s.dy pk.src pk.dst pk.route).find? (fun h => h.node == s.node)
  match hop.bind (fun h => (s.pickPort pk h.dir).map (fun p => (h, p))) with
  | some (h, p) => s.queueAt p { key := 2 * (vcOf pk.kind).getD 0 + h.cls, pk := pk, from_ := o }
  | none => ((s.bump BL_DARK_DISCARD).countEj pk).release o

/-- A number as a node, a tenancy, a table, a generation. -/
def fin32 (n : Nat) : Fin 32 := ⟨n % 32, Nat.mod_lt _ (by decide)⟩
def fin64 (n : Nat) : Fin 64 := ⟨n % 64, Nat.mod_lt _ (by decide)⟩
def fin16 (n : Nat) : Fin 16 := ⟨n % 16, Nat.mod_lt _ (by decide)⟩
def fin8 (n : Nat) : Fin 8 := ⟨n % 8, Nat.mod_lt _ (by decide)⟩
def fin4 (n : Nat) : Fin 4 := ⟨n % 4, Nat.mod_lt _ (by decide)⟩

/-- Inject a packet along an open route (R465, R474, R477, R478). -/
def State.injectPkt (s : State) (kind dst tenancy arg : Nat) (payload : List Byte) (k : Nat) : State :=
  let vc := (vcOf kind).getD 0
  let q := Map.get s.bl.seqOut (4 * dst + vc) 0
  let pk : Packet := { dst := fin32 dst, src := fin32 s.node, route := fin4 k, gen := fin4 (s.get BLG_STAT_GEN), counted := decide (kind ≠ 2),
                       kind := kind, tenancy := fin64 tenancy, seq := q, arg := arg, payload := payload }
  let s := (s.modBl (fun b => { b with seqOut := Map.put (4 * dst + vc) ((q + 1) % 65536) b.seqOut })).countInj pk
  if dst = s.node then (s.countEj pk).modBl (fun b => { b with arrived := b.arrived ++ [pk] }) else s.forward pk none

/-- Send a packet; it is not injected where the destination is unreachable (R474). -/
def State.sendPkt (s : State) (kind dst tenancy arg : Nat) (payload : List Byte) : State :=
  match s.routeTo dst with
  | some k => s.injectPkt kind dst tenancy arg payload k
  | none => s

/-- A unit takes the oldest delivered packet of a source and type. -/
def takeFirst (c : Packet → Bool) : List Packet → List Packet
  | [] => []
  | x :: l => if c x then l else x :: takeFirst c l
def State.takeArrived (s : State) (src kind : Nat) : State :=
  s.modBl (fun b => { b with arrived := takeFirst (fun k => k.src.val == src && k.kind == kind) b.arrived })

/-! ## The route map (R477 to R479) -/

/-- The current tick's number and the tick at which a change ready now takes effect (R477). -/
def State.changeTick (s : State) : Nat := s.tt.tick + s.get BL_MAP_LEAD

/-- The distinct neighbours of this chip. -/
def State.neighbours (s : State) : List Nat :=
  if s.dx * s.dy ≤ 1 then []
  else ([0, 1, 2, 3].filter (fun d => !(dirPorts s.dx s.dy d).isEmpty)).foldl (fun l d =>
    let n := neighbour s.dx s.dy s.node d
    if l.contains n || n = s.node then l else l ++ [n]) []

/-- The content of a notice as a payload. -/
def noticeBytes (n : MapNotice) : List Byte :=
  record [(1, n.origin), (1, n.changes.length), (2, 0), (4, n.serial), (8, n.tick)] ++
  n.changes.flatMap (fun c => record [(1, c.node), (1, c.port), (1, c.state), (1, 0)])

/-- A notice goes to every neighbour (R477). -/
def State.flood (s : State) (n : MapNotice) : State := s.neighbours.foldl (fun u d => u.sendPkt 1 d 0 0 (noticeBytes n)) s

/-- A notice not seen before is kept for its boundary and passed on (R477). -/
def State.takeNotice (s : State) (n : MapNotice) : State :=
  if s.bl.seen.contains (n.origin.val, n.serial) then s
  else
    let late := decide (n.tick ≤ s.tt.tick)
    let s := s.modBl (fun b => { b with seen := (n.origin.val, n.serial) :: b.seen, due := b.due ++ [n] })
    (s.onlyIf late (fun u => (u.bump BL_MAP_LATE).raise BLG_INT_STAT_MAP_LATE)).flood n

/-- This chip announces that one of its ports takes a state, at both its ends (R477). -/
def State.announce (s : State) (p st : Nat) : State :=
  let other := neighbour s.dx s.dy s.node (portDir s.dy p)
  let n : MapNotice := { origin := fin32 s.node, serial := s.bl.serial, tick := s.changeTick,
                         changes := [{ node := fin32 s.node, port := fin8 p, state := st },
                                     { node := fin32 other, port := fin8 (pairedPort p), state := st }] }
  (s.modBl (fun b => { b with serial := b.serial + 1 })).takeNotice n

/-- The map with changes. -/
def mapWith (map : Map Nat) (l : List MapChange) : Map Nat :=
  l.foldl (fun m c => if c.state = 0 then Map.del (8 * c.node.val + c.port.val) m else Map.put (8 * c.node.val + c.port.val) c.state m) map

/-- BL_REACH follows the map in force; a node that becomes unreachable is reported (R474, R502). -/
def State.refreshReach (s : State) : State :=
  let old := s.get BL_REACH
  let new := s.reachIn s.bl.map
  (s.set BL_REACH new).onlyIf (decide (old &&& new ≠ old)) (fun u => u.raise BLG_INT_STAT_UNREACHABLE)

/-- A port enters service in its generation (R489, R493). -/
def State.portUp (s : State) (p : Nat) : State :=
  let st := s.blState p
  if st = ptRETURNING || st = ptSIDING then
    let s := s.onlyIf (decide (st = ptRETURNING)) (fun u => u.bump BL_RETURNS p)
    let s := s.modBlPort p (fun q => { q with goneGen := none, back := false, reqSent := false, ackSent := false, ackSeen := false,
                                              drainedSent := false, drainedSeen := false })
    (s.setGen BL_PORT_STAT_STATE ptIN_SERVICE p).raise BLP_INT_STAT_UP p
  else s

/-- What a change of the map does at one of this chip's own ports. -/
def State.ownChange (s : State) (c : MapChange) : State :=
  if c.node.val ≠ s.node then s
  else if c.state = ptIN_SERVICE then s.portUp c.port
  else s.modBlPort c.port (fun q => { q with goneGen := some s.bl.gens })

/-- A new generation begins with the changes that are due (R477). -/
def State.newGeneration (s : State) (l : List MapChange) : State :=
  let g := s.bl.gens + 1
  let s := s.modBl (fun b => { b with
    gens := g, live := b.live ++ [g - 1], map := mapWith b.map l, inj := Map.del (g % 4) b.inj, ej := Map.del (g % 4) b.ej,
    reports := b.reports.filter (fun e => e.1 % 4 ≠ g % 4), mapAt := s.cnt })
  let s := ((s.set BLG_STAT_GEN (g % 4)).set BLG_STAT_LIVE s.bl.live.length).bumpGen .blg
  let s := (s.bump BL_MAP_CHANGES).raise BLG_INT_STAT_MAP_CHANGED
  (l.foldl State.ownChange s).refreshReach

/-- The changes due at the boundary of tick m form one generation; a fourth older one waits (R477, R479). -/
def State.mapBoundary (s : State) (m : Nat) : State :=
  let due := s.bl.due.filter (fun n => n.tick ≤ m)
  if due.isEmpty then s
  else if 3 ≤ s.bl.live.length then s.bump BL_MAP_DEFER
  else (s.modBl (fun b => { b with due := b.due.filter (fun n => m < n.tick) })).newGeneration (due.flatMap (fun n => n.changes))

/-! ## Drains (R478, R488) -/

/-- What this chip reports of generation g. -/
def State.ownReport (s : State) (g : Nat) : DrainGen :=
  { gen := fin4 g, inj := Map.get s.bl.inj (g % 4) 0, final := decide (g < s.bl.gens), ej := Map.get s.bl.ej (g % 4) 0 }

/-- A generation is drained: this chip's figures and every reachable chip's final report balance (R478). -/
def State.isDrained (s : State) (g : Nat) : Bool :=
  let peers := maskList (s.get BL_REACH) 32
  let rs := peers.map (fun n => Map.find s.bl.reports (4 * n + g % 4))
  let own := s.ownReport g
  rs.all (fun r => r.any (fun x => x.2.1)) &&
  ((rs.filterMap (fun r => r.map (fun x => x.1))).foldl (· + ·) own.inj) == ((rs.filterMap (fun r => r.map (fun x => x.2.2))).foldl (· + ·) own.ej)

/-- Every credit is held by its sender and nothing is buffered, at this end of a port (R488). -/
def State.creditsHome (s : State) (p : Nat) : Bool :=
  (List.range 8).all (fun k =>
    let b := Map.get (s.blPort p).books k {}
    b.held == creditsOf k && b.buffered == 0 && b.owed == 0)

/-- Lanes stop. -/
def State.lanesStop (s : State) (p : Nat) : State := (s.setGen BL_PORT_STAT_WIDTH 0 p).setGen BL_PORT_STAT_LANES_OK 0 p

/-- A port in SIDING sends DRAINED when nothing of the older generations can need it, and is SIDED when DRAINED has crossed both ways
(R488). -/
def State.blSettleOne (s : State) (p : Nat) : State :=
  let q := s.blPort p
  if s.blState p ≠ ptSIDING || q.back then s
  else
    let old := q.goneGen.any (fun g => s.bl.live.all (fun x => g ≤ x))
    let s := s.onlyIf (!q.drainedSent && old && q.outq.isEmpty && s.creditsHome p)
      (fun u => u.modBlPort p (fun x => { x with drainedSent := true }))
    let q := s.blPort p
    if q.drainedSent && q.drainedSeen then
      (((s.setGen BL_PORT_STAT_STATE ptSIDED p).lanesStop p).bump BL_SIDINGS p).raise BLP_INT_STAT_SIDED p
    else s
def State.blSettle (s : State) : State := (List.range 8).foldl State.blSettleOne s

/-- Generations found drained are no longer live (R478). -/
def State.judgeDrains (s : State) : State :=
  let left := s.bl.live.filter (fun g => !s.isDrained g)
  if left = s.bl.live then s.blSettle
  else (((s.modBl (fun b => { b with live := left })).set BLG_STAT_LIVE left.length).bumpGen .blg).blSettle

/-- The content of a DRAIN report as a payload. -/
def drainBytes (l : List DrainGen) : List Byte :=
  l.flatMap (fun g => record [(1, g.gen), (1, b2n g.final), (2, 0), (4, g.inj), (4, g.ej)])

/-- Reports of every live generation go to every reachable chip (R478). -/
def State.sendReports (s : State) : State :=
  let b := drainBytes ((s.bl.live ++ [s.bl.gens]).map s.ownReport)
  ((maskList (s.get BL_REACH) 32).foldl (fun u n => u.sendPkt 2 n 0 0 b) s).modBl (fun x => { x with reportAt := s.cnt })

/-! ## A port goes DARK (R463, R495) -/

/-- A body in the replay buffer is discarded: its packet is counted with its last body (R478, R495). -/
def State.discardFlit (s : State) (f : SentFlit) : State :=
  match f.body with
  | some (_, pk, k) => (s.bump BL_DARK_DISCARD).onlyIf (k + 1 == bodiesOf pk) (fun u => u.countEj pk)
  | none => s

/-- Bodies queued at a port, flits not acknowledged, and bodies of packets not yet whole there are discarded (R495). -/
def State.discardPort (s : State) (p : Nat) : State :=
  let q := s.blPort p
  let s := q.outq.foldl (fun u x => ((u.bump BL_DARK_DISCARD 0 0 (bodiesOf x.pk - x.gone)).countEj x.pk).release x.from_) s
  let s := q.unacked.foldl State.discardFlit s
  let s := q.asm.foldl (fun (u : State) e => u.bump BL_DARK_DISCARD 0 0 (ceilDiv e.2.length 228)) s
  (List.range 8).foldl (fun u r => u.modBlPort r (fun x => { x with outq := x.outq.map (fun o =>
    if o.from_.any (fun f => f.1 == p) then { o with from_ := none } else o) })) s

/-- A port goes DARK (R495): its queues go, and, where the map holds it, a change that removes it is flooded. -/
def State.goDark (s : State) (p : Nat) : State :=
  let st := s.blState p
  if st = ptDARK then s
  else
    let had := s.mapAt s.node p != 0 || st == ptSIDING || st == ptIN_SERVICE
    let s := s.discardPort p
    let s := s.modBlPort p (fun q => { laneSb := q.laneSb, sent := q.sent })
    let s := ((s.setGen BL_PORT_STAT_STATE ptDARK p).lanesStop p).raise BLP_INT_STAT_DARK p
    (s.onlyIf had (fun u => u.announce p 0)).judgeDrains

/-- LOSS_OF_SIGNAL (R495). -/
def execLossOfSignal (dt : Nat) (port : Fin 8) (s : State) : Out := s.done ((s.elapse dt).goDark port)

end Sys2Proof.Machine
end

