-- ==== Sys2Proof/Machine/GatherOps.lean ====
section
/-! DEFINITION. Machine/GatherOps.lean: tables, their rows, the gather engine's tags, reads and pooling (09_tables_and_gather.md). -/
namespace Sys2Proof.Machine

/-! ## Tables (R374 to R378) -/

/-- Table states of R416. -/
def tbUNDEFINED : Nat := 0
def tbDISABLED : Nat := 1
def tbENABLED : Nat := 2

/-- Key of table T of tenancy t, and of a member of its group. -/
def tabKey (t T : Nat) : Nat := 16 * t + T
def memberKey (t T node : Nat) : Nat := 32 * tabKey t T + node

/-- A table. -/
def State.table (s : State) (t T : Nat) : Table := Map.get s.gx.tables (tabKey t T) {}
def State.modGx (s : State) (f : Gx → Gx) : State := { s with gx := f s.gx }

/-- Put a table's record, and show its state (R416). -/
def State.putTable (s : State) (t T : Nat) (b : Table) : State :=
  let v := s.get GX_TBL_STATE t
  (s.modGx (fun g => { g with tables := Map.put (tabKey t T) b g.tables })).set GX_TBL_STATE (v - bits v (2 * T) 2 * two (2 * T) + b.state * two (2 * T)) t

/-- A member of a table's group, and a change of one. -/
def State.member (s : State) (t T node : Nat) : Member := Map.get s.gx.members (memberKey t T node) {}
def State.modMember (s : State) (t T node : Nat) (f : Member → Member) : State :=
  s.modGx (fun g => { g with members := Map.put (memberKey t T node) (f (s.member t T node)) g.members })

/-- S of a class (R377). -/
def stride (cls dim : Nat) : Nat :=
  if cls = 0 then 2 * dim else if cls = 1 then 32 * ceilDiv (4 + dim) 32 else 32 * ceilDiv (4 + dim / 2) 32

/-- count_i of a range on shard k (R378). -/
def rangeCount (first last k n : Nat) : Nat := ceilDiv (last - first - k) n

/-- Ranges of a table with their ends: (START, end, CLASS). -/
def ranges (map : List (Nat × Nat)) (rows : Nat) : List (Nat × Nat × Nat) :=
  (List.range map.length).map (fun i => ((map.getD i (0, 0)).1, (map.getD (i + 1) (rows, 0)).1, (map.getD i (0, 0)).2))

/-- Bytes that a shard needs: Σ count_i × S_i (R378). -/
def shardNeeds (map : List (Nat × Nat)) (rows dim k n : Nat) : Nat :=
  ((ranges map rows).map (fun x => rangeCount x.1 x.2.1 k n * stride x.2.2 dim)).foldl (· + ·) 0

/-- The class of a row, and its offset in its shard's storage (R378). -/
def placeIn (dim k n r : Nat) : List (Nat × Nat × Nat) → Nat → Nat × Nat
  | [], base => (0, base)
  | x :: l, base =>
    if r < x.2.1 then (x.2.2, base + (r - x.1) / n * stride x.2.2 dim)
    else placeIn dim k n r l (base + rangeCount x.1 x.2.1 k n * stride x.2.2 dim)
def Table.place (b : Table) (r : Nat) : Nat × Nat := placeIn b.dim (r % b.n) b.n r (ranges b.map b.rows) 0
def Table.cls (b : Table) (r : Nat) : Nat := (b.place r).1
def Table.stride (b : Table) (r : Nat) : Nat := Machine.stride (b.cls r) b.dim

/-- The node of the shard that owns a row (R374). -/
def Table.owner (b : Table) (r : Nat) : Nat := b.nodes.getD (r % b.n) 0

/-- LPDDR5X address of a row of this chip's shard (R375). -/
def State.rowAddr (s : State) (t : Nat) (b : Table) (r : Nat) : Nat := s.winBase t + b.off + (b.place r).2

/-! ## Row values (R301, R377) -/

/-- An integer as an fp32 value times another fp32 value, rounded once. -/
def scaled (q : Int) (s : Nat) : Nat := fp32.enc ((Fv.ofInt false q 0).mul (fp32.dec s))

/-- v of element j of a row's bytes, as an fp32 pattern (R377). -/
def rowValue (cls : Nat) (b : List Byte) (j : Nat) : Nat :=
  if cls = 0 then fp16.convert fp32 (le b (2 * j) 2)
  else if cls = 1 then scaled (toS 8 (byteAt b (4 + j))) (le b 0 4)
  else
    let c := bits (byteAt b (4 + j / 2)) (4 * (j % 2)) 4
    fp32.enc ((fp32.dec (scaled (gridLevel c) (le b 0 4))).mul (.fin false 1 (-7)))

/-- The grid code nearest a finite t, the lower on a tie (R301, R400, R482); beyond [−1, 1] the end codes. -/
def gridCode (t : Fv) : Nat :=
  let far := fun (c : Nat) => (t.sub (Fv.fixed (gridLevel c) 7)).abs
  (List.range 16).foldl (fun best c => if (far c).lt (far best) then c else best) 0

/-! ## Counts (R389) -/

/-- A count and its interrupt. -/
def State.gxCount (s : State) (t : Nat) (c i : Fld) (n : Nat := 1) : State := if n = 0 then s else (s.bump c t 0 n).raise i t
def State.gxAbsent (s : State) (t n : Nat) : State := s.gxCount t GX_ABSENT GX_INT_STAT_ABSENT n
def State.gxPoison (s : State) (t n : Nat) : State := s.gxCount t GX_POISON GX_INT_STAT_POISON n
def State.gxMismatch (s : State) (t : Nat) : State := s.gxCount t GX_MISMATCH GX_INT_STAT_MISMATCH
def State.updDropped (s : State) (t : Nat) (n : Nat := 1) : State := s.gxCount t GX_UPD_DROPPED GX_INT_STAT_UPD_DROPPED n

/-! ## Pooling and the result record (R383, R393) -/

/-- One element of a bag (R393): pieces are (weight, row class, row bytes). -/
def poolElem (pieces : List (Nat × Nat × List Byte)) (e : Nat) : Nat :=
  pieces.foldl (fun acc p => fp32.fmaB p.1 (rowValue p.2.1 p.2.2 e) acc) 0

/-- What an index gave. -/
def IdxOut.bytes : IdxOut → Option (List Byte)
  | .row b => some b
  | .waiting | .null | .invalid | .absent | .poison => none

/-- The indices of a bag that are pooled (R393). -/
def GList.pieces (l : GList) (b : Table) (bag : Nat) : List (Nat × Nat × List Byte) :=
  let lo := l.bounds.getD bag 0
  (List.range (l.bounds.getD (bag + 1) 0 - lo)).filterMap (fun i =>
    ((l.got.getD (lo + i) .waiting).bytes).map (fun d => (l.weights.getD (lo + i) 0x3F800000, b.cls (l.rows.getD (lo + i) 0), d)))

/-- Indices of a kind. -/
def GList.count (l : GList) (c : IdxOut) : Nat := (l.got.filter (fun x => decide (x = c))).length
def GList.pooled (l : GList) : Nat := (l.got.filter (fun x => x.bytes.isSome)).length

/-- The list only fills the prefetch store; its results are bf16; it sorts (R382). -/
def GList.prefetch (l : GList) : Bool := bit l.flags 2
def GList.bf (l : GList) : Bool := bit l.flags 3
def GList.sorted (l : GList) : Bool := bit l.flags 0
def GList.bags (l : GList) : Nat := l.bounds.length - 1

/-- The result record (R383, R393); `dim` is 0 where the table has no descriptor. -/
def GList.record (l : GList) (b : Table) (dim : Nat) : List Byte :=
  let ps := (List.range l.bags).map (fun k => l.pieces b k)
  let empty := (ps.filter (fun p => p.isEmpty)).length
  let head := Machine.record [(4, if l.prefetch then l.placed else l.pooled), (4, l.count .null), (4, l.count .invalid), (4, l.count .absent),
    (4, l.count .poison), (4, if l.prefetch then 0 else empty), (4, l.distinct), (4, l.lateView)]
  if l.prefetch then head
  else head ++ ps.flatMap (fun p => (List.range dim).flatMap (fun e =>
    let v := poolElem p e
    if l.bf then toLe 2 (fp32.convert bf16 v) else toLe 4 v))

/-! ## Lists -/

/-- A list by its number, and a change of one. -/
def State.listBy (s : State) (id : Nat) : Option GList := s.gx.lists.find? (fun l => l.id == id)
def State.modList (s : State) (id : Nat) (f : GList → GList) : State :=
  s.modGx (fun g => { g with lists := g.lists.map (fun l => if l.id = id then f l else l) })

/-- A list whose every index is settled writes its record and is over (R383, R384, R389). -/
def State.endList (s : State) (id : Nat) : State :=
  match s.listBy id with
  | none => s
  | some l =>
    if !l.todo.isEmpty || l.got.contains .waiting then s
    else
      let b := s.table l.tenancy l.table
      let s := s.wr .sram (sramAt l.core l.out) (l.record b (if b.state = tbUNDEFINED then 0 else b.dim))
      let s := (s.modGx (fun g => { g with lists := g.lists.filter (fun x => x.id ≠ id) })).bump GX_GATHERS l.tenancy
      s.stageReady l.run

/-- The positions of a row that its read settles: every one in a sorted or prefetch list, else the first that waits (R391). -/
def GList.fill (l : GList) (row : Nat) (o : IdxOut) : List IdxOut × Nat :=
  let one := !(l.sorted || l.prefetch)
  ((List.range l.got.length).foldl (fun (a : List IdxOut × Nat) i =>
    if l.rows.getD i 0 = row && decide (l.got.getD i .null = .waiting) && !(one && 0 < a.2) then (a.1 ++ [o], a.2 + 1)
    else (a.1 ++ [l.got.getD i .null], a.2)) ([], 0))

/-- Bytes of the prefetch store in use, by all or by one tenancy (R397). -/
def State.pfBytes (s : State) (t : Option Nat) : Nat :=
  ((s.gx.prefetch.filter (fun r => t.all (fun x => r.tenancy == x))).map (fun r => r.bytes.length)).foldl (· + ·) 0

/-- A row of a PREFETCH list is placed, or counted as not placed (R397, R398). -/
def State.placeRow (s : State) (l : GList) (row : Nat) (data : List Byte) : State :=
  let t := l.tenancy
  let n := data.length
  if s.pfBytes (some t) + n ≤ s.get GX_PF_QUOTA t * 65536 && s.pfBytes none + n ≤ 8388608 then
    let b := s.table t l.table
    let node := b.owner row
    let told := (s.member t l.table node).applied
    let r : PfRow := { tenancy := t, table := l.table, row := row, view := l.view, shard := node, bytes := data,
                       clean := told.any (fun a => a.1 == l.view && a.2 == 0) }
    ((s.modGx (fun g => { g with prefetch := g.prefetch ++ [r] })).placeItem 5 r.key).modList l.id (fun x => { x with placed := x.placed + 1 })
  else s.bump GX_PF_DROPPED t

/-- The read of a row for a list is over (R383, R389, R397). -/
def State.settle (s : State) (id row : Nat) (o : IdxOut) (late : Bool) : State :=
  match s.listBy id with
  | none => s
  | some l =>
    let f := l.fill row o
    let t := l.tenancy
    let s := s.modList id (fun x => { x with got := f.1, lateView := x.lateView + (if late then f.2 else 0) })
    let s := if late then s.bump GX_VIEW_LATE t 0 f.2 else s
    let s := match o with
      | .absent => s.gxAbsent t f.2
      | .poison => s.gxPoison t f.2
      | .row d => if l.prefetch then s.placeRow l row d else s
      | .waiting | .null | .invalid => s
    s

/-! ## Tags and reads (R385 to R389) -/

/-- Tags that a tenancy holds (R385). -/
def State.tagsHeld (s : State) (t : Nat) : Nat := (s.gx.tags.filter (fun e => e.2.tenancy == t)).length

/-- Tags of the engine. -/
def tagCount : Nat := 2048

/-- The lowest-numbered free tag. -/
def State.freeTag (s : State) : Option Nat := (List.range tagCount).find? (fun k => (Map.find s.gx.tags k).isNone)

/-- A tag is freed (R385, R575). -/
def State.dropTag (s : State) (k : Nat) : State :=
  match Map.find s.gx.tags k with
  | none => s
  | some g => (s.modGx (fun x => { x with tags := Map.del k x.tags })).ledger
      (fun l => { l with tags := l.tags.plus g.tenancy (-1), tagFree := l.tagFree + 1 })

/-- A tag is taken for a read (R385, R386, R389): its generation advances, its limit is fixed. -/
def State.takeTag (s : State) (k : Nat) (g : Tag) : State :=
  (s.modGx (fun x => { x with tags := Map.put k g x.tags, gens := Map.put k g.gen x.gens })).ledger
    (fun l => { l with tags := l.tags.plus g.tenancy 1, tagFree := l.tagFree - 1 })

/-- This chip's shard reads one of its rows (R377, R539, R540, R543): the bytes, or none where a word of it is uncorrectable or the read of its
block `block` fails on the link and again on the retry. -/
def State.readRow (s : State) (t : Nat) (b : Table) (row src : Nat) (link : LinkEcc := .good) (block : Nat := 0) : State × Option (List Byte) :=
  let a := s.rowAddr t b row
  let n := b.stride row
  let v : Verdict := { action := acDROPPED, source := src }
  let s := (s.demand .dram a n).linkRead (a + 32 * (block % max 1 (ceilDiv n 32))) link v
  if s.poisoned .dram a n then (s.meet .dram a n v, none)
  else if link = .failed then (s, none)
  else (s, some (s.rdBytes .dram a n))

/-- A read by this chip of its own shard is served, and its tag is free (R385, R395, R405). -/
def State.serveOwn (s : State) (k : Nat) (g : Tag) : State :=
  match s.listBy g.list with
  | none => s.dropTag k
  | some l =>
    let b := s.table l.tenancy l.table
    let r := s.readRow l.tenancy b g.row srGATHER
    let o := match r.2 with
      | some d => IdxOut.row d
      | none => IdxOut.poison
    (r.1.settle g.list g.row o (decide (l.view < b.next))).dropTag k

/-- The content of a read request as a payload. -/
def reqBytes (T key row view tag gen : Nat) : List Byte := record [(1, T), (1, gen), (2, tag), (4, key), (4, row), (4, 0), (8, view)]

/-- The ARG of a reply (R388). -/
def replyArg (poison part last : Bool) (gen tag : Nat) : Nat := b2n poison + 2 * b2n part + 4 * b2n last + 8 * (gen % 256) + 2048 * (tag % 2048)

/-- A row of the prefetch store that serves a read (R398). -/
def State.pfHit (s : State) (l : GList) (row : Nat) : Option PfRow :=
  s.gx.prefetch.find? (fun r => r.tenancy == l.tenancy && r.table == l.table && r.row == row && r.view + 1 == l.view && r.clean)

/-- A stored copy with an uncorrectable word is discarded (R543). -/
def State.pfCheck (s : State) (r : PfRow) : State × Bool :=
  let q := s.readItem 5 r.key srGATHER
  let s := q.1
  match q.2 with
  | none => (s, true)
  | some d => ((s.countUE d { action := acDROPPED, source := srGATHER }).modGx (fun g => { g with prefetch := g.prefetch.filter (fun x => decide (x ≠ r)) }), false)

/-- A read is issued with tag k (R385, R386, R395). -/
def State.issueRead (s : State) (l : GList) (row k : Nat) : State :=
  let t := l.tenancy
  let b := s.table t l.table
  let node := b.owner row
  let gen := (Map.get s.gx.gens k 0 + 1) % 256
  let g : Tag := { tenancy := t, list := l.id, row := row, gen := gen, at_ := s.cnt + s.get GX_TIMEOUT_NS, node := node }
  let s := ((s.takeTag k g).bump GX_ROWS t).modList l.id (fun x => { x with distinct := x.distinct + 1 })
  if node = s.node then (if l.view ≤ b.next then s.serveOwn k g else s)
  else
    let s := s.onlyIf (l.view == s.viewNow) (fun u => u.modMember t l.table node (fun m => { m with readsSent := m.readsSent + 1 }))
    s.sendPkt 0x20 node t 0 (reqBytes l.table b.key row l.view k gen)

/-- The next row of a list: served from the prefetch store, absent at once, or issued; false where it must wait for a tag (R385, R389,
R398, R408). -/
def State.issueOne (s : State) (l : GList) (row : Nat) : State × Bool :=
  let t := l.tenancy
  let node := (s.table t l.table).owner row
  let hit := if l.prefetch then none else s.pfHit l row
  let c := match hit with
    | some r => s.pfCheck r
    | none => (s, false)
  match hit, c.2 with
  | some r, true => ((((c.1.bump GX_PF_HITS t).modList l.id (fun x => { x with distinct := x.distinct + 1 })).settle l.id row (.row r.bytes) false), true)
  | _, _ =>
    if (s.table t l.table).state ≠ tbENABLED || (node ≠ s.node && !s.reachable node) then (c.1.settle l.id row .absent false, true)
    else if s.get GX_TAG_QUOTA t ≤ s.tagsHeld t then (c.1, false)
    else match s.freeTag with
      | none => (c.1, false)
      | some k => (c.1.issueRead l row k, true)

/-- Rows of a list are issued in order until one must wait; `n` bounds the rows left. -/
def State.issueList (id : Nat) : Nat → State → State
  | 0, s => s
  | n + 1, s =>
    match s.listBy id with
    | none => s
    | some l =>
      match l.todo with
      | [] => s
      | row :: rest =>
        let q := s.issueOne l row
        if q.2 then State.issueList id n (q.1.modList id (fun x => { x with todo := rest })) else q.1

/-- Every waiting read that can be issued is, list by list; lists that are settled end (R384, R385). -/
def State.runLists (s : State) : State :=
  let ids := s.gx.lists.map (fun l => l.id)
  let s := ids.foldl (fun (u : State) id => State.issueList id (((u.listBy id).map (fun l => l.todo.length)).getD 0) u) s
  ids.foldl (fun u id => u.endList id) s

/-- Reads of this chip's own shard that waited for its application are served (R396). -/
def State.serveWaitingOwn (s : State) (t T : Nat) : State :=
  (s.gx.tags.filter (fun e => e.2.tenancy == t && e.2.node == s.node &&
    (s.listBy e.2.list).any (fun l => l.table == T && l.view ≤ (s.table t T).next))).foldl (fun u e => u.serveOwn e.1 e.2) s

/-! ## Reads served for other chips (R386 to R388, R395) -/

/-- A request is answered with a refusal (R387). -/
def State.refuseReq (s : State) (q : ReadReq) (mismatch : Bool) : State :=
  s.sendPkt 0x22 q.src q.tenancy (replyArg false false true q.gen q.tag) [BitVec.ofNat 8 (b2n mismatch)]

/-- A row is sent in one part or two (R388, R542). -/
def State.sendRow (s : State) (q : ReadReq) (d : Option (List Byte)) : State :=
  match d with
  | none => s.sendPkt 0x21 q.src q.tenancy (replyArg true false true q.gen q.tag) []
  | some b =>
    if b.length ≤ 4096 then s.sendPkt 0x21 q.src q.tenancy (replyArg false false true q.gen q.tag) b
    else (s.sendPkt 0x21 q.src q.tenancy (replyArg false false false q.gen q.tag) (b.take 4096)).sendPkt 0x21 q.src q.tenancy
      (replyArg false true true q.gen q.tag) (b.drop 4096)

/-- A request is served (R386, R395). -/
def State.serveReq (s : State) (q : ReadReq) (link : LinkEcc := .good) (block : Nat := 0) : State :=
  let b := s.table q.tenancy q.table
  if b.rows ≤ q.row || b.owner q.row ≠ s.node then s.refuseReq q false
  else
    let r := s.readRow q.tenancy b q.row srGATHER link block
    let s := r.1.modMember q.tenancy q.table q.src (fun m => { m with served := m.served.plus q.view 1 })
    s.sendRow q r.2

/-- A request arrives: refused, served, or kept until the shard's application of the interval before its view ends and the earlier requests
of its chip are served (R386, R387, R396, R499). -/
def State.takeReq (s : State) (q : ReadReq) (link : LinkEcc := .good) (block : Nat := 0) : State :=
  let b := s.table q.tenancy q.table
  if s.standby || b.state ≠ tbENABLED then s.refuseReq q false
  else if b.key ≠ q.key then (s.gxMismatch q.tenancy).refuseReq q true
  else if b.next < q.view || s.gx.waiting.any (fun x => x.src == q.src) then s.modGx (fun g => { g with waiting := g.waiting ++ [q] })
  else s.serveReq q link block

/-- The requests that wait are served, those of each chip in arrival order, up to the first that still waits (R386, R396). -/
def State.serveWaiting (s : State) : State :=
  s.gx.waiting.foldl (fun (u : State) q =>
    if (u.table q.tenancy q.table).next < q.view || u.gx.waiting.any (fun x => x.src == q.src) then
      u.modGx (fun g => { g with waiting := g.waiting ++ [q] })
    else u.serveReq q) (s.modGx (fun g => { g with waiting := [] }))

/-! ## Replies (R386 to R389) -/

/-- The read of a tag is over; its tag is free (R385). -/
def State.endRead (s : State) (k : Nat) (g : Tag) (o : IdxOut) : State :=
  let late := (s.listBy g.list).any (fun l => ((s.member g.tenancy l.table g.node).applied).any (fun a => l.view ≤ a.1))
  let late := late && (match o with
    | .row _ => true
    | .waiting | .null | .invalid | .absent | .poison => false)
  ((s.dropTag k).settle g.list g.row o late).runLists

/-- The tag that a reply names, if its generation and its sender are right (R386, R389). -/
def State.tagOf (s : State) (src arg : Nat) : Option (Nat × Tag) :=
  let k := bits arg 11 11
  match Map.find s.gx.tags k with
  | some g => if g.gen = bits arg 3 8 && g.node = src then some (k, g) else none
  | none => none

/-- A reply part arrives (R388, R389). -/
def State.takeReply (s : State) (src t arg : Nat) (data : List Byte) : State :=
  match s.tagOf src arg with
  | none => s.bump GX_LATE_REPLY t
  | some (k, g) =>
    if bit arg 0 then s.endRead k g .poison
    else if !bit arg 2 then s.modGx (fun x => { x with tags := Map.put k { g with part0 := some data } x.tags })
    else s.endRead k g (.row (g.part0.getD [] ++ data))

/-- A refusal arrives (R387). -/
def State.takeRefuse (s : State) (src t arg : Nat) (mismatch : Bool) : State :=
  let s := s.onlyIf mismatch (fun u => u.gxMismatch t)
  match s.tagOf src arg with
  | none => s.bump GX_LATE_REPLY t
  | some (k, g) => s.endRead k g .absent

end Sys2Proof.Machine
end

