-- ==== Sys2Proof/Machine/Gather.lean ====
section
/-! DEFINITION. Machine/Gather.lean: the commands of tables and the gather engine (09_tables_and_gather.md). -/
namespace Sys2Proof.Machine

/-! ## Table commands (R379 to R381, R415, R670, R757) -/

def gxBAD_FORMAT : Nat := 1
def gxMAP : Nat := 2
def gxNODES : Nat := 3
def gxBOUNDS : Nat := 4
def gxSTATE : Nat := 5
def gxBUSY : Nat := 6
def gxFETCH : Nat := 7

/-- A command is refused (R381). -/
def State.gxRefuse (s : State) (t code : Nat) : State := (s.set GX_CMD_STAT_CODE code t).raise GX_INT_STAT_CMD_REFUSED t

/-- A command begins, and is over (R380). -/
def State.gxBegin (s : State) (t st : Nat) (c : GxCmd) : State :=
  ((s.set GX_CMD_STAT_STATE st t).set GX_STAT_CMD_BUSY 1 t).modGx (fun g => { g with cmds := Map.put t c g.cmds })
def State.gxClear (s : State) (t : Nat) : State :=
  ((s.set GX_CMD_STAT_STATE 0 t).set GX_STAT_CMD_BUSY 0 t).modGx (fun g => { g with cmds := Map.del t g.cmds })
def State.gxDone (s : State) (t : Nat) : State := ((s.gxClear t).set GX_CMD_STAT_CODE 0 t).raise GX_INT_STAT_CMD_DONE t

/-- A command bit is written: BUSY, the table's state, then the command's own `f`, which may refuse it with a code (R380, R381, R670). -/
def State.gxTake (s : State) (t need : Nat) (f : State → Nat → Table → State) : State :=
  let T := s.get GX_TBL_SEL t
  let b := s.table t T
  if (Map.find s.gx.cmds t).isSome || !s.cdReady then s.gxRefuse t gxBUSY
  else if b.state ≠ need then s.gxRefuse t gxSTATE
  else f s T b

/-- DEFINE starts fetching the descriptor. -/
def State.gxStartDefine (t : Nat) (s : State) (T : Nat) (_b : Table) : State :=
  let a := s.get GX_DESC_ADDR_LO t + two 32 * s.get GX_DESC_ADDR_HI t
  if a % 64 ≠ 0 then s.gxRefuse t gxBOUNDS else s.gxBegin t 1 { kind := 0, table := T, addr := a }

/-- GX_DEFINE (R380). -/
def execGxDefine (dt : Nat) (p : Party) (t : Fin 64) (s : State) : Out :=
  s.done ((s.elapse dt).access p .gx t .page (fun u => u.gxTake t tbUNDEFINED (State.gxStartDefine t)))

/-- DELETE (R380). -/
def State.gxDelete (s : State) (t : Nat) : State := s.gxTake t tbDISABLED (fun v T _ => (v.putTable t T {}).gxDone t)

/-- GX_DELETE (R380). -/
def execGxDelete (dt : Nat) (p : Party) (t : Fin 64) (s : State) : Out :=
  s.done ((s.elapse dt).access p .gx t .page (fun u => u.gxDelete t))

/-- ENABLE and DISABLE wait for the next boundary. -/
def State.gxAwait (t kind : Nat) (s : State) (T : Nat) (b : Table) : State :=
  (s.putTable t T { b with pend := kind - 1 }).gxBegin t 3 { kind := kind, table := T, at_ := s.cnt }

/-- GX_ENABLE (R380). -/
def execGxEnable (dt : Nat) (p : Party) (t : Fin 64) (s : State) : Out :=
  s.done ((s.elapse dt).access p .gx t .page (fun u => u.gxTake t tbDISABLED (State.gxAwait t 2)))
/-- GX_DISABLE (R380). -/
def execGxDisable (dt : Nat) (p : Party) (t : Fin 64) (s : State) : Out :=
  s.done ((s.elapse dt).access p .gx t .page (fun u => u.gxTake t tbENABLED (State.gxAwait t 3)))

/-- A memory write request from LPDDR5X: poisoned blocks are sent as zero, with the EP bit (R544). -/
def State.dramPiece (s : State) (a n : Nat) : List Byte × Bool :=
  let bad := s.poisonIn .dram a n
  ((List.range n).map (fun i => if bad.any (fun d => inSpan (a + i) d.place 32) then (0 : Byte) else s.rd .dram (a + i)), !bad.isEmpty)

/-- LPDDR5X bytes are queued for host memory (R151, R152, R544). -/
def State.storeDram (s : State) (fn : Nat) (kind : StoreKind) (addr a n : Nat) : State :=
  let c := (Map.get s.fns fn {}).cfg
  let w := payloadBytes c
  let s := (s.demand .dram a n).meet .dram a n { action := acEP_SENT, source := srPCIE_WRITE }
  (List.range (ceilDiv n w)).foldl (fun (u : State) i =>
    let q := u.dramPiece (a + w * i) (min w (n - w * i))
    u.store { fn := fn, kind := kind, addr := addr + w * i, data := q.1, ro := c.ro, ep := q.2 }) s

/-- LOAD and SAVE: the range is checked, and moving starts (R380, R381). -/
def State.gxMove (t kind : Nat) (s : State) (T : Nat) (b : Table) : State :=
  let a := s.get GX_XFER_ADDR_LO t + two 32 * s.get GX_XFER_ADDR_HI t
  let o := s.get GX_XFER_OFF_LO t + two 32 * s.get GX_XFER_OFF_HI t
  let n := s.get GX_XFER_LEN t
  if a % 64 ≠ 0 || o % 64 ≠ 0 || n % 64 ≠ 0 || b.bytes < o + n then s.gxRefuse t gxBOUNDS
  else
    (s.gxBegin t 2 { kind := kind, table := T, off := o, len := n, addr := a }).onlyIf (decide (kind = 5))
      (fun u => u.storeDram t .tableSave a (u.winBase t + b.off + o) n)

/-- GX_LOAD (R380). -/
def execGxLoad (dt : Nat) (p : Party) (t : Fin 64) (s : State) : Out :=
  s.done ((s.elapse dt).access p .gx t .page (fun u => u.gxTake t tbDISABLED (State.gxMove t 4)))
/-- GX_SAVE (R380). -/
def execGxSave (dt : Nat) (p : Party) (t : Fin 64) (s : State) : Out :=
  s.done ((s.elapse dt).access p .gx t .page (fun u => u.gxTake t tbDISABLED (State.gxMove t 5)))

/-- The width map entries of a descriptor, and the table it gives (R379). -/
def parseTable (d : List Byte) : Table :=
  { state := tbDISABLED, n := le d 7 1, rows := le d 8 4, dim := le d 0xC 2, shard := le d 0xE 1, off := le d 0x10 8, bytes := le d 0x18 8,
    nodes := (List.range (min 32 (le d 7 1))).map (fun k => byteAt d (0x20 + k)),
    map := (List.range (min 8 (le d 0xF 1))).map (fun i => (le d (0x40 + 8 * i) 4, byteAt d (0x44 + 8 * i))),
    key := crc32 (patch (patch d 0xE [0]) 0x10 (zeros 16)) }

/-- BAD_FORMAT: a constant or reserved byte is wrong, or a field is out of range (R379, R381). -/
def tableMalformed (d : List Byte) (T : Nat) : Bool :=
  let n := le d 7 1
  let g := le d 0xF 1
  le d 0 4 != 0x4D494254 || le d 4 2 != 1 || le d 6 1 != T || n == 0 || 32 < n || le d 8 4 == 0 || le d 8 4 == 0xFFFFFFFF ||
  le d 0xC 2 < 32 || 4096 < le d 0xC 2 || le d 0xC 2 % 32 != 0 || n ≤ le d 0xE 1 || g == 0 || 8 < g || le d 0x10 8 % 4096 != 0 ||
  (List.range 32).any (fun k => n ≤ k && byteAt d (0x20 + k) != 0) ||
  (List.range 8).any (fun i => if i < g then 2 < byteAt d (0x44 + 8 * i) || (slice d (0x45 + 8 * i) 3).any (fun x => x != 0)
    else (slice d (0x40 + 8 * i) 8).any (fun x => x != 0))

/-- The width map obeys R378. -/
def mapOk (b : Table) : Bool :=
  let st := b.map.map (fun x => x.1)
  st.headD 1 == 0 && st.all (fun x => x < b.rows && x % b.n == 0) &&
  (List.range (st.length - 1)).all (fun i => st.getD i 0 < st.getD (i + 1) 0)

/-- The nodes of a descriptor are this chip's and distinct nodes of the consist (R381). -/
def State.nodesOk (s : State) (b : Table) : Bool :=
  b.nodes.getD b.shard 0 == s.node && b.nodes.all (fun n => n < s.dx * s.dy) && b.nodes.eraseDups.length == b.nodes.length

/-- The first refusal a descriptor meets; 0 for none (R381). -/
def State.tableCheck (s : State) (t T : Nat) (d : List Byte) : Nat :=
  let b := parseTable d
  if tableMalformed d T then gxBAD_FORMAT
  else if !mapOk b then gxMAP
  else if !s.nodesOk b then gxNODES
  else if s.winSize t < b.off + b.bytes || b.bytes < shardNeeds b.map b.rows b.dim b.shard b.n then gxBOUNDS
  else 0

/-- A fetch or transfer has ended with data, or in an error (R380, R381). -/
def State.gxEnd (s : State) (t : Nat) (c : GxCmd) (data : Option (List Byte)) : State :=
  match data with
  | none => (s.gxClear t).gxRefuse t gxFETCH
  | some d =>
    if c.kind = 0 then
      let d := fit 128 d
      let code := s.tableCheck t c.table d
      if code = 0 then (s.putTable t c.table (parseTable d)).gxDone t else (s.gxClear t).gxRefuse t code
    else if c.kind = 4 then (s.wr .dram (s.winBase t + (s.table t c.table).off + c.off) (fit c.len d)).gxDone t
    else s.gxDone t

/-- GX_CMD_DONE (R153, R381): nothing happens where no fetch or transfer of the page is under way. -/
def execGxCmdDone (dt : Nat) (t : Fin 64) (data : Option (List Byte)) (s : State) : Out :=
  let u := s.elapse dt
  s.done (match Map.find u.gx.cmds t with
    | some c => if c.kind = 5 || ((c.kind = 0 || c.kind = 4) && u.mayRequest t) then u.gxEnd t c data else u
    | none => u)

/-- A table is enabled: its shard starts with the interval under way (R380, R395). -/
def State.tableOn (s : State) (t T : Nat) (b : Table) : State := s.putTable t T { b with state := tbENABLED, pend := 0, next := s.viewNow }

/-- This chip's own reads of its shard that still wait are not served (R408). -/
def State.dropWaitingOwn (s : State) (t T : Nat) : State :=
  (s.gx.tags.filter (fun e => e.2.tenancy == t && e.2.node == s.node && (s.listBy e.2.list).any (fun l => l.table == T))).foldl
    (fun u e => (u.settle e.2.list e.2.row .absent false).dropTag e.1) s

/-- A table is disabled (R408): held entries and prefetched copies go, reads that waited are refused, and every index of this chip's own
lists not yet read is absent. -/
def State.tableOff (s : State) (t T : Nat) (b : Table) : State :=
  let s := s.putTable t T { b with state := tbDISABLED, pend := 0 }
  let mine := fun (x : UpdEntry) => x.tenancy == t && x.table == T
  let s := s.updDropped t (s.gx.upds.filter mine).length
  let held := s.gx.waiting.filter (fun q => q.tenancy.val == t && q.table.val == T)
  let s := s.modGx (fun g => { g with
    upds := g.upds.filter (fun x => !mine x), limits := Map.del (tabKey t T) g.limits,
    prefetch := g.prefetch.filter (fun r => !(r.tenancy == t && r.table == T)),
    waiting := g.waiting.filter (fun q => !(q.tenancy.val == t && q.table.val == T)),
    members := g.members.filter (fun e => e.1 / 32 != tabKey t T) })
  ((held.foldl (fun u q => u.refuseReq q false) s).serveWaiting.dropWaitingOwn t T).runLists

/-- ENABLE and DISABLE take effect at a boundary (R380, R415). -/
def State.gxBoundary (s : State) : State :=
  s.gx.cmds.foldl (fun u e =>
    let b := u.table e.1 e.2.table
    if u.tickAt u.tt.tick ≤ e.2.at_ then u
    else if e.2.kind = 2 then (u.tableOn e.1 e.2.table b).gxDone e.1
    else if e.2.kind = 3 then (u.tableOff e.1 e.2.table b).gxDone e.1
    else u) s

/-! ## GATHER (R382 to R393) -/

/-- GATHER, UPDATE, SEND and SOLVE have one operand, and open length (R261, R262). -/
def oneOperand (i : Ins) (align : Nat) : Bool :=
  insPlain i && i.sub == 0 && i.cycles == 0 && i.a % align == 0 && i.b == 0 && i.c == 0 && i.d == 0 && i.e == 0 && i.f == 0

/-- A run reads named ranges of a core, each where it is not empty, while the run lasts. -/
def State.runReadsAll (s : State) (id core : Nat) : List (Nat × Nat) → State
  | [] => s
  | x :: l => State.runReadsAll (if (s.onRun id core).isSome then s.runReads id core core x.1 x.2 else s) id core l

/-- 32-bit words of a core. -/
def State.words (s : State) (core off n : Nat) : List Nat := (List.range n).map (fun i => s.rdLe .sram (sramAt core (off + 4 * i)) 4)

/-- The arrays that a gather list names: indices, weights, bounds (R382). -/
def gatherArrays (h : List Byte) : List (Nat × Nat) :=
  [(le h 0xC 4, 4 * le h 4 4), (le h 0x14 4, 4 * (le h 2 2 + 1))] ++ (if bit (le h 1 1) 1 then [(le h 0x10 4, 4 * le h 4 4)] else [])

/-- Bytes of a list's result record. -/
def gatherOut (h : List Byte) (dim : Nat) : Nat :=
  if bit (le h 1 1) 2 then 32 else 32 + le h 2 2 * dim * (if bit (le h 1 1) 3 then 2 else 4)

/-- A list header is good (R382). -/
def gatherOk (h : List Byte) : Bool :=
  le h 0 1 < 16 && le h 1 1 < 16 && 1 ≤ le h 2 2 && le h 2 2 ≤ 4096 && 1 ≤ le h 4 4 && le h 4 4 ≤ 65536 && le h 8 4 % 64 == 0 && le h 0x18 8 == 0

/-- The bounds of a list are good (R382). -/
def boundsOk (b : List Nat) (n : Nat) : Bool :=
  b.headD 1 == 0 && b.getLastD 0 == n && (List.range (b.length - 1)).all (fun i => b.getD i 0 ≤ b.getD (i + 1) 0)

/-- What becomes of an index before any read (R389, R390). -/
def indexOut (on : Bool) (rows r : Nat) : IdxOut :=
  if !on then .absent else if r = 0xFFFFFFFF then .null else if rows ≤ r then .invalid else .waiting

/-- Insert a number in rising order, once. -/
def insertOnce (x : Nat) : List Nat → List Nat
  | [] => [x]
  | y :: l => if x < y then x :: y :: l else if x = y then y :: l else y :: insertOnce x l

/-- The reads of a list in issue order (R391, R397). -/
def readOrder (sorted prefetch : Bool) (rows : List Nat) : List Nat :=
  if sorted then rows.foldl (fun l r => insertOnce r l) [] else if prefetch then rows.eraseDups else rows

/-- A list enters the engine (R384, R389, R390). -/
def State.startList (s : State) (t id core : Nat) (h : List Byte) (bounds rows weights : List Nat) : State :=
  let b := s.table t (le h 0 1)
  let got := rows.map (indexOut (b.state == tbENABLED) b.rows)
  let fl := le h 1 1
  let n := fun (o : IdxOut) => (got.filter (fun x => decide (x = o))).length
  let todo := readOrder (bit fl 0) (bit fl 2) ((List.range rows.length).filterMap (fun i =>
    if got.getD i .null = .waiting then some (rows.getD i 0) else none))
  let l : GList := { id := s.gx.nextList, tenancy := t, table := le h 0 1, core := core, run := id, flags := fl, out := le h 8 4,
                     view := s.viewNow, bounds := bounds, rows := rows, weights := weights, got := got, todo := todo }
  let s := (s.bump GX_NULL t 0 (n .null)).gxCount t GX_INVALID GX_INT_STAT_INVALID (n .invalid)
  let s := (s.gxAbsent t (n .absent)).modGx (fun g => { g with lists := g.lists ++ [l], nextList := g.nextList + 1 })
  s.runLists

/-- A GATHER instruction of a run on a core (R382). -/
def State.gatherOn (s : State) (r : Run) (m : Image) (core a : Nat) : State :=
  if !m.holds core a 32 then s.coreFault r core cfACCESS
  else
    let s := s.runReads r.id core core a 32
    let h := s.rdBytes .sram (sramAt core a) 32
    let t := r.rcd.tenancy
    let b := s.table t (le h 0 1)
    let dim := if b.state = tbUNDEFINED then 0 else b.dim
    if (s.onRun r.id core).isNone then s
    else if !gatherOk h || !(gatherArrays h).all (fun x => m.holds core x.1 x.2) || !m.holds core (le h 8 4) (gatherOut h dim) then
      s.coreFault r core cfACCESS
    else
      let s := s.runReadsAll r.id core (gatherArrays h)
      let bounds := s.words core (le h 0x14 4) (le h 2 2 + 1)
      if (s.onRun r.id core).isNone then s
      else if !boundsOk bounds (le h 4 4) then s.coreFault r core cfACCESS
      else s.startList t r.id core h bounds (s.words core (le h 0xC 4) (le h 4 4))
        (if bit (le h 1 1) 1 then s.words core (le h 0x10 4) (le h 4 4) else [])

/-- GATHER (R382). -/
def execGather (dt : Nat) (core : Fin 64) (i : Ins) (s : State) : Out :=
  s.done ((s.elapse dt).onCore core 0x21 i (fun _ => oneOperand i 64) (fun u r m => (u.spend r core (openCycles dt)).gatherOn r m core i.a))

/-! ## Requests and replies (R386 to R389) -/

/-- READ_REQ (R386). -/
def execReadReq (dt : Nat) (q : RowRead) (s : State) : Out :=
  s.done (((s.elapse dt).takeArrived q.req.src 0x20).takeReq q.req q.link q.block)
/-- READ_REPLY (R388). -/
def execReadReply (dt : Nat) (src : Fin 32) (t : Fin 64) (arg : Nat) (data : List Byte) (s : State) : Out :=
  s.done (((s.elapse dt).takeArrived src 0x21).takeReply src t arg data)
/-- REFUSE (R387). -/
def execRefuse (dt : Nat) (src : Fin 32) (t : Fin 64) (arg : Nat) (mismatch : Bool) (s : State) : Out :=
  s.done (((s.elapse dt).takeArrived src 0x22).takeRefuse src t arg mismatch)
/-- GATHER_READ_TIMEOUT (R389): nothing happens where the tag is free. -/
def execGatherReadTimeout (tag : Fin 2048) (s : State) : Out :=
  s.done (match Map.find s.gx.tags tag with
    | some g => (s.reach g.at_).endRead tag g .absent
    | none => s)

/-! ## Updates (R399 to R401, R388) -/

/-- An entry joins the interval at its owner. -/
def State.holdEntry (s : State) (e : UpdEntry) : State := s.modGx (fun g => { g with upds := g.upds ++ [e] })

/-- The 32-byte head of an UPDATE packet (R388). -/
def updHead (b : Table) (T row seq eta decay rule flags part parts : Nat) : List Byte :=
  record [(4, row), (4, seq), (4, eta), (4, decay), (4, b.key), (1, rule), (1, flags), (1, part), (1, parts), (1, T), (7, 0)]

/-- One entry of an update list leaves for its owner (R388, R399, R401). -/
def State.sendEntry (s : State) (t T : Nat) (b : Table) (h : List Byte) (row : Nat) (g : List Nat) : State :=
  let seq := s.gx.seq
  let s := s.modGx (fun x => { x with seq := (x.seq + 1) % two 32 })
  let node := b.owner row
  let parts := ceilDiv b.dim 1016
  let piece := fun (k : Nat) => (g.drop (1016 * k)).take 1016
  if b.state ≠ tbENABLED then (s.updDropped t).gxAbsent t 1
  else if b.rows ≤ row then s.updDropped t
  else if node = s.node then
    s.holdEntry { tenancy := t, table := T, interval := s.viewNow, node := node, seq := seq, row := row, rule := le h 1 1, flags := le h 2 1,
                  eta := le h 8 4, decay := le h 0xC 4, parts := parts, got := (List.range parts).map (fun k => (k, piece k)), key := b.key }
  else if !s.reachable node then (s.updDropped t).gxAbsent t 1
  else
    let s := s.modMember t T node (fun m => { m with updsSent := m.updsSent + parts })
    (List.range parts).foldl (fun (u : State) k =>
      u.sendPkt 0x23 node t 0 (updHead b T row seq (le h 8 4) (le h 0xC 4) (le h 1 1) (le h 2 1) k parts ++ (piece k).flatMap (fun v => toLe 4 v))) s

/-- An update list header is good (R399). -/
def updateOk (h : List Byte) : Bool :=
  le h 0 1 < 16 && le h 1 1 ≤ 2 && le h 2 1 ≤ 1 && le h 3 1 == 0 && 1 ≤ le h 4 4 && le h 4 4 ≤ 65536 && le h 0x18 8 == 0

/-- An UPDATE instruction of a run on a core (R399). -/
def State.updateOn (s : State) (r : Run) (m : Image) (core a : Nat) : State :=
  if !m.holds core a 32 then s.coreFault r core cfACCESS
  else
    let s := s.runReads r.id core core a 32
    let h := s.rdBytes .sram (sramAt core a) 32
    let t := r.rcd.tenancy
    let T := le h 0 1
    let b := s.table t T
    let dim := if b.state = tbUNDEFINED then 0 else b.dim
    let arrays := [(le h 0x10 4, 4 * le h 4 4), (le h 0x14 4, 4 * le h 4 4 * dim)]
    if (s.onRun r.id core).isNone then s
    else if !updateOk h || !arrays.all (fun x => m.holds core x.1 x.2) then s.coreFault r core cfACCESS
    else
      let s := s.runReadsAll r.id core arrays
      if (s.onRun r.id core).isNone then s
      else
        let rows := s.words core (le h 0x10 4) (le h 4 4)
        (List.range rows.length).foldl (fun (u : State) k =>
          u.sendEntry t T b h (rows.getD k 0) (u.words core (le h 0x14 4 + 4 * dim * k) dim)) s

/-- UPDATE (R399). -/
def execUpdate (dt : Nat) (core : Fin 64) (i : Ins) (s : State) : Out :=
  s.done ((s.elapse dt).onCore core 0x22 i (fun _ => oneOperand i 64) (fun u r m => (u.spend r core (openCycles dt)).updateOn r m core i.a))

/-- The interval to which a packet from a member belongs: the first not yet fenced by it (R396, R405). -/
def State.packetInterval (s : State) (t T node : Nat) : Nat :=
  let b := s.table t T
  let m := s.member t T node
  ((List.range (m.fences.length + 1)).find? (fun k => (Map.find m.fences (b.next + k)).isNone)).getD 0 + b.next

/-- One part of an entry arrives at its owner (R388); an entry refused is counted once, at its last part (R401, R410). -/
def State.takeUpdate (s : State) (src t : Nat) (d : List Byte) : State :=
  let T := le d 0x18 1 % 16
  let b := s.table t T
  let seq := le d 4 4
  let n := if le d 0x16 1 + 1 = le d 0x17 1 then 1 else 0
  if s.standby || b.state ≠ tbENABLED then s.updDropped t n
  else if b.key ≠ le d 0x10 4 then s.onlyIf (n == 1) (fun u => ((u.gxMismatch t).updDropped t).gxAbsent t 1)
  else
    let i := s.packetInterval t T src
    let s := s.modMember t T src (fun m => { m with updsGot := m.updsGot.plus i 1 })
    let part := le d 0x16 1
    let vals := (List.range ((d.length - 32) / 4)).map (fun k => le d (32 + 4 * k) 4)
    let same := fun (e : UpdEntry) => e.tenancy == t && e.table == T && e.node == src && e.seq == seq
    if s.gx.gone.contains (tabKey t T, src, seq) then s
    else if s.gx.upds.any same then
      s.modGx (fun g => { g with upds := g.upds.map (fun e => if same e then { e with got := Map.put part vals e.got } else e) })
    else s.holdEntry { tenancy := t, table := T, interval := i, node := src, seq := seq, row := le d 0 4, rule := le d 0x14 1, flags := le d 0x15 1,
                       eta := le d 8 4, decay := le d 0xC 4, parts := le d 0x17 1, got := [(part, vals)], key := le d 0x10 4 }

/-- UPDATE_PACKET (R388). -/
def execUpdatePacket (dt : Nat) (src : Fin 32) (t : Fin 64) (payload : List Byte) (s : State) : Out :=
  s.done (((s.elapse dt).takeArrived src 0x23).takeUpdate src t payload)

/-! ### One entry (R400) -/

/-- v′ of an element (R400). -/
def updElem (rule eta decay g v : Nat) : Nat :=
  let ne := eta ^^^ two 31
  if rule = 0 then fp32.fmaB ne g v else if rule = 1 then fp32.fmaB ne (fp32.fmaB decay v g) v else g

/-- The largest magnitude of a list of fp32 values. -/
def maxAbs (l : List Nat) : Nat := l.foldl (fun a v => if (fp32.dec a).lt ((fp32.dec v).abs) then v % two 31 else a) 0

/-- s in force for the new row, and whether every code is the class's zero (R400). -/
def newScale (cls old : Nat) (rescale : Bool) (vs : List Nat) : Nat × Bool :=
  let m := maxAbs vs
  if !rescale then (old, false)
  else if m = 0 then (old, true)
  else if cls = 1 then (fp32.divB m 0x42FE0000, false) else (m, false)

/-- The code of an element, and whether it was clamped (R400); `free` stands for the code of a quotient that is no number. -/
def updCode (cls scale v free : Nat) : Nat × Bool :=
  match fp32.dec (fp32.divB v scale) with
  | .nan => (free, false)
  | .inf neg => (if cls = 1 then (if neg then 0x80 else 0x7F) else if neg then 0 else 15, true)
  | t =>
    if cls = 1 then
      let q := t.toInt
      (ofS 8 (clampI (-128) 127 q), decide (q < -128 || 127 < q))
    else
      let out := (Fv.fixed 1 0).lt t.abs
      (if out then (if t.neg? then 0 else 15) else gridCode t, out)

/-- 4-bit codes packed two to a byte (R302). -/
def packNibbles : List Nat → List Byte
  | [] => []
  | [a] => [BitVec.ofNat 8 a]
  | a :: b :: l => BitVec.ofNat 8 (a + 16 * b) :: packNibbles l

/-- The new bytes of a row, and the elements clamped; none where the entry is dropped (R400, R401). -/
def newRow (cls n : Nat) (old : List Byte) (rescale : Bool) (vs : List Nat) (draw : Nat) : Option (List Byte × Nat) :=
  if vs.any (fun v => fp32.special v) then none
  else if cls = 0 then
    let hs := vs.map (fun v => fp32.convert fp16 v)
    if hs.any (fun h => fp16.special h) then none else some (fit n (hs.flatMap (fun h => toLe 2 h)), 0)
  else
    let sc := newScale cls (le old 0 4) rescale vs
    let codes := (List.range vs.length).map (fun j =>
      if sc.2 then (if cls = 1 then 0 else 7, false)
      else updCode cls sc.1 (vs.getD j 0) ((Config.freeWord draw j).toNat % (if cls = 1 then 256 else 16)))
    let cs := codes.map (fun c => c.1)
    some (fit n (toLe 4 sc.1 ++ (if cls = 1 then cs.map (fun c => BitVec.ofNat 8 c) else packNibbles cs)), (codes.filter (fun c => c.2)).length)

/-- Values g of an entry whose parts have all arrived (R388). -/
def UpdEntry.values (e : UpdEntry) : Option (List Nat) :=
  if e.parts = e.got.length && (List.range e.parts).all (fun k => (Map.find e.got k).isSome) then some (e.got.flatMap (fun x => x.2)) else none

/-- An entry's read of its row: SET reads nothing of a poisoned row (R401). -/
def State.updRead (s : State) (t : Nat) (b : Table) (e : UpdEntry) : State × Option (List Byte) :=
  if e.rule = 2 then (s, some (s.rdBytes .dram (s.rowAddr t b e.row) (b.stride e.row)))
  else s.readRow t b e.row srUPDATE

/-- An entry is applied, or dropped (R388, R400, R401); true where a row was updated. -/
def State.applyEntry (s : State) (e : UpdEntry) : State × Bool :=
  let t := e.tenancy
  let b := s.table t e.table
  match e.values with
  | none => ((s.updDropped t).modGx (fun g => { g with gone := (tabKey t e.table, e.node, e.seq) :: g.gone }), false)
  | some g =>
    if b.rows ≤ e.row || b.owner e.row ≠ s.node then (s.updDropped t, false)
    else
      let r := s.updRead t b e
      match r.2 with
      | none => ((r.1.updDropped t).gxPoison t 1, false)
      | some old =>
        let cls := b.cls e.row
        let vs := (List.range b.dim).map (fun j => updElem e.rule e.eta e.decay (g.getD j 0) (rowValue cls old j))
        let d := r.1.draw
        match newRow cls (b.stride e.row) old (bit e.flags 0) vs d.1 with
        | none => (r.1.updDropped t, false)
        | some n => ((((d.2.wr .dram (d.2.rowAddr t b e.row) n.1).bump GX_UPDATES t).bump GX_UPD_CLAMP t 0 n.2), true)

/-- The order of R400. -/
def UpdEntry.before (a b : UpdEntry) : Bool := a.node < b.node || (a.node == b.node && a.seq < b.seq)
def insertEntry (x : UpdEntry) : List UpdEntry → List UpdEntry
  | [] => [x]
  | y :: l => if x.before y then x :: y :: l else y :: insertEntry x l

/-- Apply entries in order; counts the rows updated. -/
def State.applyEntries : List UpdEntry → State × Nat → State × Nat
  | [], s => s
  | e :: l, s =>
    let r := s.1.applyEntry e
    State.applyEntries l (r.1, s.2 + b2n r.2)

/-! ## Intervals (R394 to R398, R405) -/

/-- An APPLIED notice of a shard (R398). -/
def State.appliedBy (s : State) (t T node interval rows : Nat) : State :=
  let s := s.modMember t T node (fun m => { m with applied := some (interval, rows) })
  let hers := fun (r : PfRow) => r.tenancy == t && r.table == T && r.shard == node
  let keep := if rows = 0 then s.gx.prefetch.map (fun r => if hers r && r.view == interval then { r with clean := true } else r)
    else s.gx.prefetch.filter (fun r => !hers r)
  s.modGx (fun g => { g with prefetch := keep })

/-- The other members of a table's group. -/
def State.others (s : State) (b : Table) : List Nat := b.nodes.filter (fun n => n != s.node)

/-- The fences of interval a are in, with what they count (R396). -/
def State.fenced (s : State) (t T : Nat) (b : Table) : Bool :=
  (s.others b).all (fun n =>
    let m := s.member t T n
    match Map.find m.fences b.next with
    | some f => f.1 ≤ Map.get m.served b.next 0 && f.2 ≤ Map.get m.updsGot b.next 0
    | none => false)

/-- A shard applies its first interval not yet applied (R396, R400). -/
def State.applyInterval (s : State) (t T : Nat) (b : Table) : State :=
  let a := b.next
  let due := fun (e : UpdEntry) => e.tenancy == t && e.table == T && e.interval ≤ a
  let l := (s.gx.upds.filter due).foldl (fun q e => insertEntry e q) []
  let s := s.modGx (fun g => { g with upds := g.upds.filter (fun e => !due e) })
  let r := State.applyEntries l (s, 0)
  let s := r.1.putTable t T { b with next := a + 1 }
  let s := (s.others b).foldl (fun u n => u.modMember t T n (fun m =>
    { m with fences := Map.del a m.fences, served := Map.del a m.served, updsGot := Map.del a m.updsGot })) s
  let s := s.modGx (fun g => { g with limits := if a + 1 < s.gx.interval then g.limits else Map.del (tabKey t T) g.limits })
  let s := (s.others b).foldl (fun u n => u.sendPkt 0x25 n t 0 (record [(1, T), (3, 0), (4, b.key), (8, a), (4, r.2)])) s
  ((s.appliedBy t T s.node a r.2).serveWaitingOwn t T).serveWaiting.runLists

/-- The cut of the interval that a shard applies next has been taken (R396). -/
def State.cutTaken (s : State) (b : Table) : Bool := b.state == tbENABLED && b.next < s.gx.interval

/-- INTERVAL_APPLY (R400): nothing happens before the cut, or while a fence or what it counts is missing. -/
def execIntervalApply (dt : Nat) (t : Fin 64) (table : Fin 16) (s : State) : Out :=
  let u := s.elapse dt
  let b := u.table t table
  s.done (if u.cutTaken b && u.fenced t table b then u.applyInterval t table b else u)

/-- FENCE_LIMIT_EXPIRY (R405): nothing happens before the cut, or where nothing is missing. -/
def execFenceLimitExpiry (t : Fin 64) (table : Fin 16) (s : State) : Out :=
  let b := s.table t table
  s.done (match Map.find s.gx.limits (tabKey t table) with
    | none => s
    | some l =>
      if s.cutTaken b && !s.fenced t table b then
        ((s.reach l).gxCount t GX_FENCE_LATE GX_INT_STAT_FENCE_LATE).applyInterval t table b
      else s)

/-- The cut of interval a ends it for one table (R394, R396). -/
def State.cutTable (a at_ : Nat) (s : State) (e : Nat × Table) : State :=
  let t := e.1 / 16
  let T := e.1 % 16
  if e.2.state ≠ tbENABLED then s
  else
    let s := (s.others e.2).foldl (fun (u : State) n =>
      let m := u.member t T n
      let u := u.modMember t T n (fun m => { m with readsSent := 0, updsSent := 0 })
      if u.reachable n then u.sendPkt 0x24 n t 0 (record [(1, T), (3, 0), (4, e.2.key), (8, a), (4, m.readsSent), (4, m.updsSent)])
      else u.modMember t T n (fun m => { m with fences := Map.put a (0, 0) m.fences })) s
    s.modGx (fun g => { g with limits := Map.put e.1 ((Map.find g.limits e.1).getD (at_ + s.get GX_FENCE_LIMIT_NS)) g.limits })

/-- UPDATE_CUT (R394), whether the timetable runs or not: nothing happens before SD_READY, or where the cut of the tick in progress has been
taken. -/
def State.updateCut (s : State) : State :=
  let a := s.tt.tick
  if !s.pkg.sdUp || a < s.gx.interval then s
  else
    let s := s.reach (s.slotAt a (s.get GX_CUT))
    let s := s.modGx (fun g => { g with interval := a + 1, prefetch := g.prefetch.filter (fun r => a < r.view + 1) })
    s.gx.tables.foldl (State.cutTable a s.cnt) s

/-- UPDATE_CUT (R394). -/
def execUpdateCut (s : State) : Out := s.done s.updateCut

/-- FENCE (R396, R410): one with another group key is ignored, and its sender counts as unreachable. -/
def State.takeFence (s : State) (src : Nat) (f : FenceMsg) : State :=
  let b := s.table f.tenancy f.table
  if b.state ≠ tbENABLED || f.interval < b.next then s
  else
    let bad := decide (b.key ≠ f.key)
    (s.onlyIf bad (fun u => u.gxMismatch f.tenancy)).modMember f.tenancy f.table src
      (fun m => { m with fences := Map.put f.interval (if bad then (0, 0) else (f.reads, f.updates)) m.fences })

/-- FENCE (R396). -/
def execFence (dt : Nat) (src : Fin 32) (f : FenceMsg) (s : State) : Out :=
  s.done (((s.elapse dt).takeArrived src 0x24).takeFence src f)

/-- APPLIED (R398). -/
def execApplied (dt : Nat) (src : Fin 32) (f : AppliedMsg) (s : State) : Out :=
  let u := (s.elapse dt).takeArrived src 0x25
  s.done (if (u.table f.tenancy f.table).key = f.key then u.appliedBy f.tenancy f.table src f.interval f.rows else u)

/-! ## Quotas and windows (R414, R415) -/

/-- A quota write is pending for the boundary, or ignored where the sum would exceed the pool (R414). -/
def State.quotaWrite (s : State) (p : Party) (f : Fld) (t v most : Nat) : State :=
  let others := (((List.range 64).filter (fun u => u ≠ t)).map (fun u => s.shown f u)).foldl (· + ·) 0
  if most < others + v % two f.w then s.raise GX_INT_STAT_QUOTA_REFUSED 0 else s.pendWrite p f v t

/-- GX_TAG_QUOTA_WRITE (R414). -/
def execGxTagQuotaWrite (dt : Nat) (p : Party) (t : Fin 64) (value : Nat) (s : State) : Out :=
  s.done ((s.elapse dt).access p .gx t .fn0 (fun u => u.quotaWrite p GX_TAG_QUOTA t value 2048) (some (0x10C, value)))
/-- GX_PF_QUOTA_WRITE (R414). -/
def execGxPfQuotaWrite (dt : Nat) (p : Party) (t : Fin 64) (value : Nat) (s : State) : Out :=
  s.done ((s.elapse dt).access p .gx t .fn0 (fun u => u.quotaWrite p GX_PF_QUOTA t value 128) (some (0x110, value)))

/-- A window register is written, only while every table of the tenancy is UNDEFINED; a size must end within the capacity (R375, R415,
R416). -/
def State.windowWrite (s : State) (t off v : Nat) : State :=
  if s.sameWord .gx t off v then s
  else if s.get GX_TBL_STATE t ≠ 0 then s.raise GX_INT_STAT_CMD_REFUSED t
  else if off = 0x100 then s.set GX_WIN_BASE_LO (v / two 20) t
  else if off = 0x104 then s.set GX_WIN_BASE_HI v t
  else if off = 0x108 then
    (if s.winBase t / two 20 + v % two 18 ≤ Config.dramMib && v % two 18 ≤ 131072 then s.set GX_WIN_SIZE v t
     else s.raise GX_INT_STAT_CMD_REFUSED t)
  else s

/-- GX_WIN_WRITE (R415). -/
def execGxWinWrite (dt : Nat) (p : Party) (t : Fin 64) (off : Nat) (value : Nat) (s : State) : Out :=
  s.done ((s.elapse dt).access p .gx t .fn0 (fun u => u.windowWrite t off value) (some (off, value)))

end Sys2Proof.Machine
end

