-- ==== Sys2Proof/Machine/Link.lean ====
section
/-! DEFINITION. Machine/Link.lean: the commands of Buarcon Link: flits, ports, the route map, state transfers (R460 to R502, R671). -/
namespace Sys2Proof.Machine

/-! ## Flits (R461, R463, R465 to R469) -/

/-- The packet at the front of a stream (R465). -/
def parsePkt (b : List Byte) : Packet :=
  { dst := fin32 (le b 0 1), src := fin32 (le b 1 1), route := fin4 (le b 2 1), gen := fin4 (le b 2 1 / 4), counted := bit (le b 2 1) 4, kind := le b 3 1,
    tenancy := fin64 (le b 4 1), seq := le b 8 2, arg := le b 0xC 4, payload := slice b 16 (le b 6 2) }

/-- Packets of a source and VC that follow in order leave the reorder store (R467). -/
def State.drainReorder (src vc : Nat) : Nat → State → State
  | 0, s => s
  | n + 1, s =>
    let q := Map.get s.bl.seqIn (4 * src + vc) 0
    match s.bl.reorder.find? (fun k => k.src.val == src && vcOf k.kind == some vc && k.seq == q) with
    | none => s
    | some pk =>
      let q' := s.readItem 6 (pktKey pk) acNONE
      let s := q'.1
      let s := match q'.2 with
        | some d => (s.countUE d { action := acDROPPED }).bump BL_DARK_DISCARD
        | none => s.modBl (fun b => { b with arrived := b.arrived ++ [pk] })
      State.drainReorder src vc n ((s.countEj pk).modBl (fun b =>
        { b with reorder := b.reorder.filter (fun x => decide (x ≠ pk)), seqIn := Map.put (4 * src + vc) ((q + 1) % 65536) b.seqIn }))

/-- A packet for this chip is delivered in order, or held (R467). -/
def State.deliver (s : State) (pk : Packet) (vc : Nat) : State :=
  let key := 4 * pk.src.val + vc
  let q := Map.get s.bl.seqIn key 0
  let ahead := (pk.seq + 65536 - q) % 65536
  if ahead = 0 then
    State.drainReorder pk.src vc s.bl.reorder.length ((s.countEj pk).modBl (fun b =>
      { b with arrived := b.arrived ++ [pk], seqIn := Map.put key ((q + 1) % 65536) b.seqIn }))
  else if ahead < 32768 then (s.modBl (fun b => { b with reorder := b.reorder ++ [pk] })).placeItem 6 (pktKey pk)
  else s.countEj pk

/-- A whole packet has arrived at a port in the bodies `o` (R465, R466, R475). -/
def State.takePkt (s : State) (pk : Packet) (vc : Nat) (o : Option (Nat × Nat × Nat)) : State :=
  if vcOf pk.kind ≠ some vc || 4096 < pk.payload.length then ((s.bump BL_PKT_BAD).countEj pk).release o
  else if pk.dst.val = s.node then (s.deliver pk vc).release o
  else s.forward pk o

/-- Whole packets leave the front of a stream; a body is part of the packet that its last byte belongs to (R465). -/
def State.parseStream (p key : Nat) : Nat → List Byte → State → State
  | 0, b, s => s.modBlPort p (fun q => { q with asm := Map.put key b q.asm })
  | n + 1, b, s =>
    if b.length < 16 || b.length < 16 + le b 6 2 then s.modBlPort p (fun q => { q with asm := Map.put key b q.asm })
    else
      let rest := b.drop (16 + le b 6 2)
      let bodies := ceilDiv b.length 228 - ceilDiv rest.length 228
      State.parseStream p key n rest (s.takePkt (parsePkt b) (key / 2) (some (p, key, bodies)))

/-- A body enters the receive buffer (R469). -/
def State.takeBody (s : State) (p key : Nat) (data : List Byte) : State :=
  let s := s.modBlPort p (fun q => q.modBook key (fun b => { b with buffered := b.buffered + 1, received := (b.received + 1) % two 32 }))
  let b := Map.get (s.blPort p).asm key [] ++ data
  State.parseStream p key (b.length / 16 + 1) b s

/-- Credits come back (R469). -/
def State.takeCredits (s : State) (p : Nat) (f : List Byte) : State :=
  s.modBlPort p (fun q => (List.range 8).foldl (fun (q : BlPort) k =>
    q.modBook k (fun b => { b with held := b.held + byteAt f (8 + k), returned := (b.returned + byteAt f (8 + k)) % two 32 })) q)

/-- WIDTH of a set of lanes (R460). -/
def widthOf (lanes : Nat) : Nat :=
  let n := (maskList lanes 4).length
  if 4 ≤ n then 4 else if 2 ≤ n then 2 else n

/-- The lanes a port runs on change (R490). -/
def State.setLanes (s : State) (p lanes : Nat) : State :=
  let old := s.get BL_PORT_STAT_WIDTH p
  let s := (s.setGen BL_PORT_STAT_LANES_OK lanes p).setGen BL_PORT_STAT_WIDTH (widthOf lanes) p
  s.onlyIf (decide (old ≠ widthOf lanes)) (fun u => u.raise BLP_INT_STAT_WIDTH_CHANGED p)

/-- The agreed flit has come (R490). -/
def State.widthDue (s : State) (p fseq : Nat) : State :=
  match (s.blPort p).widthAt with
  | some (lanes, at_) => if at_ = fseq then (s.modBlPort p (fun q => { q with widthAt := none })).setLanes p lanes else s
  | none => s

/-- A good flit in sequence (R461): its ACK empties the replay buffer up to the flit it names; whether it also asks for the rest again is not
fixed by the spec, and what is resent is then all of it (R463). -/
def State.goodFlit (s : State) (p : Nat) (f : List Byte) : State :=
  let n := le f 0 2
  let s := s.modBlPort p (fun q => { q.acknowledge (le f 2 2) with expect := (n + 1) % 65536, fails := 0 })
  let d := s.draw
  let again := if Config.flitReplay d.1 then (d.2.blPort p).unacked.length else 0
  let s := ((d.2.bump BL_REPLAYS p 0 again).widthDue p n).takeCredits p f
  let body := le f 4 1
  let carries := s.blState p == ptIN_SERVICE || s.blState p == ptSIDING
  let s := if carries && !bit body 3 then s.takeBody p (body % 4 * 2 + bits body 2 1) (slice f 0x14 228) else s
  ((s.pump p).modBlPort p BlPort.returnCredits).blSettle

/-- A flit arrives: one with a bad CRC is not accepted, and the eighth failure of one flit darkens the port (R463). -/
def State.takeFlit (s : State) (p : Nat) (f : List Byte) : State :=
  let st := s.blState p
  if !(st == ptCHECK || st == ptIN_SERVICE || st == ptSIDING || st == ptRETURNING) || s.get BL_PORT_STAT_WIDTH p = 0 then s
  else if crc64 (f.take 0xF8) ≠ le f 0xF8 8 then
    let s := s.bump BL_CRC_ERR p
    let n := (s.blPort p).fails + 1
    if 8 ≤ n then s.goDark p else s.modBlPort p (fun q => { q with fails := n })
  else if le f 0 2 ≠ (s.blPort p).expect then s
  else s.goodFlit p f

/-- FLIT_RECEIVE (R461). -/
def execFlitReceive (dt : Nat) (port : Fin 8) (flit : List Byte) (s : State) : Out :=
  s.done ((s.elapse dt).takeFlit port (fit 256 flit))

/-- SEQ_GAP_EXPIRY (R467): nothing happens where no later packet of the source waits. -/
def execSeqGapExpiry (src : Fin 32) (vc : Fin 4) (s : State) : Out :=
  s.done (if s.bl.reorder.any (fun k => k.src == src && vcOf k.kind == some vc.val) then
      let s := (s.reach (s.bl.mapAt + s.get BL_GAP_NS)).bump BL_SEQ_GAP
      let key := 4 * src.val + vc.val
      let s := s.modBl (fun b => { b with seqIn := Map.put key ((Map.get b.seqIn key 0 + 1) % 65536) b.seqIn })
      State.drainReorder src vc s.bl.reorder.length s
    else s)

/-! ## Ports: training, HELLO, siding, width, rate (R472, R487 to R490, R499) -/

/-- Lanes that no request sides. -/
def State.lanesAllowed (s : State) (p lanes : Nat) : Nat :=
  lanes &&& (15 ^^^ ((s.get BL_PORT_CTL_LANE_SIDE p ||| (s.blPort p).laneSb) &&& 15))

/-- The port proposes a set of lanes from a flit 64 ahead (R490). -/
def State.proposeLanes (s : State) (p lanes : Nat) : State :=
  if lanes = 0 || lanes = s.get BL_PORT_STAT_LANES_OK p then s
  else s.modBlPort p (fun q => { q with widthAt := some (lanes, (q.expect + 64) % 65536) })

/-- The port runs: flits cross it in both directions. -/
def State.portRuns (s : State) (p : Nat) : Bool := s.blState p == ptIN_SERVICE || s.blState p == ptSIDING

/-- Lanes are trained: credits are at their allocation, buffers empty (R489); lanes that return to a running port are taken in at an agreed
flit (R490). -/
def State.trained (s : State) (p lanes : Nat) : State :=
  let ok := s.lanesAllowed p lanes
  let st := s.blState p
  if s.portRuns p then s.proposeLanes p (s.lanesAllowed p (s.get BL_PORT_STAT_LANES_OK p ||| lanes)) else
  let may := st == ptRETURNING || ((st == ptDARK || st == ptTRAINING) && s.bl.noded)
  if !may || ok = 0 || s.flag MEMG_STAT_FATAL then s
  else
    let books := (List.range 8).map (fun k => (k, ({ held := creditsOf k } : LinkBook)))
    let s := s.modBlPort p (fun q => { books := books, laneSb := q.laneSb, sent := q.sent })
    let s := ((s.setGen BL_PORT_STAT_STATE (if st = ptRETURNING then ptRETURNING else ptCHECK) p).setGen BL_PORT_STAT_LANES_OK ok p)
    (s.setGen BL_PORT_STAT_WIDTH (widthOf ok) p).set BL_PORT_STAT_RATE 4 p

/-- PORT_TRAINED (R489). -/
def execPortTrained (dt : Nat) (port : Fin 8) (lanes : Fin 16) (s : State) : Out := s.done ((s.elapse dt).trained port lanes)

/-- The first cause of R472 that a HELLO meets; 0 for none. -/
def State.helloCause (s : State) (p : Nat) (h : HelloMsg) : Nat :=
  let near := decide (h.tick ≤ s.tt.tick + 1) && decide (s.tt.tick ≤ h.tick + 1)
  if h.period ≠ s.get TT_PERIOD then 1
  else if h.consist ≠ s.get BL_CONSIST_ID || h.dx ≠ s.dx || h.dy ≠ s.dy then 2
  else if !(dirPorts s.dx s.dy (portDir s.dy p)).contains p || h.node.val ≠ neighbour s.dx s.dy s.node (portDir s.dy p) then 3
  else if h.port.val ≠ pairedPort p then 4
  else if !(h.everLocked && s.flag HT_STAT_EVER_LOCKED && near) then 5
  else if h.stepping ≠ s.get PKG_STEPPING_DIGIT + 16 * s.get PKG_STEPPING_LETTER then 6
  else 0

/-- A change that puts a port in service is on its way. -/
def State.comingUp (s : State) (p : Nat) : Bool :=
  s.bl.due.any (fun n => n.changes.any (fun c => c.node.val == s.node && c.port.val == p && c.state == ptIN_SERVICE))

/-- A HELLO on a trained port (R472, R489). -/
def State.takeHello (s : State) (p : Nat) (h : HelloMsg) : State :=
  let st := s.blState p
  if !(st == ptCHECK || st == ptRETURNING) || s.get BL_PORT_STAT_WIDTH p = 0 || (s.blPort p).ready then s
  else
    let c := s.helloCause p h
    let s := (s.set BL_PORT_STAT_PARTNER h.node p).set BL_PORT_STAT_CAUSE c p
    if c ≠ 0 then (s.setGen BL_PORT_STAT_STATE ptCHECK p).raise BLP_INT_STAT_CHECK_FAIL p
    else
      let s := (s.setGen BL_PORT_STAT_STATE ptRETURNING p).modBlPort p (fun q => { q with ready := true })
      if s.comingUp p then s else s.announce p ptIN_SERVICE

/-- HELLO (R472). -/
def execHello (dt : Nat) (port : Fin 8) (h : HelloMsg) (s : State) : Out := s.done ((s.elapse dt).takeHello port h)

/-- SIDE_REQ (R488): the port enters SIDING and answers. -/
def execSideReq (dt : Nat) (port : Fin 8) (s : State) : Out :=
  let u := s.elapse dt
  let st := u.blState port
  s.done (if st = ptIN_SERVICE || st = ptSIDING then
      (u.setGen BL_PORT_STAT_STATE ptSIDING port).modBlPort port (fun q => { q with ackSent := true })
    else u)

/-- SIDE_ACK (R488). -/
def execSideAck (dt : Nat) (port : Fin 8) (s : State) : Out :=
  let u := s.elapse dt
  s.done (if u.blState port = ptSIDING && (u.blPort port).reqSent then u.modBlPort port (fun q => { q with ackSeen := true }) else u)

/-- DRAINED (R488): DRAINED has come from the partner. -/
def execDrained (dt : Nat) (port : Fin 8) (s : State) : Out :=
  let u := s.elapse dt
  s.done (if u.blState port = ptSIDING then (u.modBlPort port (fun q => { q with drainedSeen := true })).blSettle else u)

/-- WIDTH (R490): the lanes in use from a flit 64 ahead. -/
def execWidth (dt : Nat) (port : Fin 8) (lanes : Fin 16) (s : State) : Out :=
  let u := s.elapse dt
  s.done (if u.portRuns port && lanes.val ≠ 0 then
      u.modBlPort port (fun q => { q with widthAt := some (lanes.val, (q.expect + 64) % 65536) })
    else u)

/-- RATE (R499). -/
def execRate (dt : Nat) (port : Fin 8) (code : Fin 8) (s : State) : Out :=
  let u := s.elapse dt
  s.done (if u.portRuns port && code.val ≤ 4 then u.set BL_PORT_STAT_RATE code.val port else u)

/-! ### Requests at a boundary (R487 to R490, R493, R507) -/

/-- The requests of a port, as BL_PORT_STAT.REQ shows them (R487, R507); the signal box's bit is set by it alone. -/
def State.portReq (s : State) (p : Nat) : Nat :=
  let m := s.get PWRG_STAT_MODE
  b2n (s.flag BL_PORT_CTL_SIDE p) + (s.get BL_PORT_STAT_REQ p &&& 2) + 4 * b2n ((m == 1 || m == 2) && bit (s.get PWR_TRIM_PORT_MASK) p)

/-- A siding of port p, with the changes already on their way, would leave a node unreachable (R487, R498). -/
def State.sidingCuts (s : State) (p : Nat) : Bool :=
  let other := neighbour s.dx s.dy s.node (portDir s.dy p)
  let base := mapWith s.bl.map (s.bl.due.flatMap (fun n => n.changes))
  let map := Map.del (8 * other + pairedPort p) (Map.del (8 * s.node + p) base)
  decide (s.reachIn base &&& s.reachIn map ≠ s.reachIn base)

/-- A port that stood sided is wanted again: a return with training, or without it where it was still SIDING (R489, R493). -/
def State.portBack (s : State) (p : Nat) : State :=
  let st := s.blState p
  if st = ptSIDED then s.setGen BL_PORT_STAT_STATE ptRETURNING p
  else if st = ptSIDING && (s.blPort p).reqSent && !(s.blPort p).back then
    (s.modBlPort p (fun q => { q with back := true })).announce p ptIN_SERVICE
  else s

/-- A siding begins (R488). -/
def State.portSide (s : State) (p : Nat) : State :=
  ((s.setGen BL_PORT_STAT_STATE ptSIDING p).modBlPort p (fun q => { q with reqSent := true, back := false })).announce p 0

/-- A running port's lane requests at a boundary narrow it (R490). -/
def State.sideLanes (s : State) (p : Nat) : State :=
  s.onlyIf (s.portRuns p) (fun u => u.proposeLanes p (u.lanesAllowed p (u.get BL_PORT_STAT_LANES_OK p)))

/-- One port's requests at a boundary (R487, R490, R494): lanes that would leave none count as a request for the port. -/
def State.sidePort (s : State) (p : Nat) : State :=
  let s := s.sideLanes p
  let req := s.portReq p
  let s := s.setGen BL_PORT_STAT_REQ req p
  let lanesGone := decide (s.get BL_PORT_STAT_LANES_OK p ≠ 0) && s.lanesAllowed p 15 == 0
  let sbLanes := (s.blPort p).laneSb % 16 == 15
  let st := s.blState p
  if req ≠ 0 || lanesGone then
    if st = ptIN_SERVICE then
      (if s.sidingCuts p && !bit req 1 && !sbLanes then s.raise BLP_INT_STAT_SIDE_REFUSED p else s.portSide p)
    else if st = ptRETURNING && !s.comingUp p then s.setGen BL_PORT_STAT_STATE ptSIDED p
    else s
  else s.portBack p
def State.sidePorts (s : State) : State := (List.range 8).foldl State.sidePort s

/-! ## The route map and drains (R477, R478) -/

/-- MAP_NOTICE (R477). -/
def execMapNotice (dt : Nat) (port : Fin 8) (n : MapNotice) (s : State) : Out :=
  let u := s.elapse dt
  s.done ((u.takeArrived (neighbour u.dx u.dy u.node (portDir u.dy port)) 1).takeNotice n)

/-- DRAIN (R478). -/
def execDrain (dt : Nat) (_port : Fin 8) (d : DrainMsg) (s : State) : Out :=
  let u := (s.elapse dt).takeArrived d.src 2
  s.done (u.modBl (fun b => { b with reports := d.gens.foldl (fun m g => Map.put (4 * d.src.val + g.gen.val) (g.inj, g.final, g.ej) m) b.reports })).judgeDrains

/-- DRAIN_REPORT_TIMER (R478): nothing happens while no older generation is live. -/
def execDrainReportTimer (s : State) : Out :=
  s.done (if s.bl.live.isEmpty then s else ((s.reach (s.bl.reportAt + 10000)).sendReports).judgeDrains)

/-! ## Configuration (R471, R501, R671) -/

/-- Every port is DARK or SIDED (R501). -/
def State.portsQuiet (s : State) : Bool := (List.range 8).all (fun p => s.blState p == ptDARK || s.blState p == ptSIDED)

/-- A topology of R471. -/
def formOk (dx dy : Nat) : Bool :=
  (dx == 1 && dy == 1) || (dy == 1 && [2, 4, 8, 16, 32].contains dx) || ([2, 4, 8].contains dx && (dy == 2 || dy == 4))

/-- BL_NODE_WRITE (R671): the first write lets the ports train. -/
def State.writeNode (s : State) (v : Nat) : State :=
  if !s.portsQuiet then (if s.sameWord .blg 0 0x100 v then s else s.raise BLG_INT_STAT_CFG_REFUSED)
  else if !formOk (bits v 8 6) (bits v 16 3) then s.raise BLG_INT_STAT_CFG_REFUSED
  else
    let s := ((s.set BL_NODE_NODE v).set BL_NODE_DX (bits v 8 6)).set BL_NODE_DY (bits v 16 3)
    (s.modBl (fun b => { b with noded := true })).refreshReach

/-- BL_NODE_WRITE (R671). -/
def execBlNodeWrite (dt : Nat) (p : Party) (value : Nat) (s : State) : Out :=
  s.done ((s.elapse dt).access p .blg 0 .page (fun u => u.writeNode value))

/-- The consist identifier is written while every port is DARK or SIDED (R501). -/
def State.writeConsist (s : State) (v : Nat) : State :=
  if s.portsQuiet then s.set BL_CONSIST_ID v else if s.sameWord .blg 0 0x104 v then s else s.raise BLG_INT_STAT_CFG_REFUSED

/-- BL_CONSIST_ID_WRITE (R501). -/
def execBlConsistIdWrite (dt : Nat) (p : Party) (value : Nat) (s : State) : Out :=
  s.done ((s.elapse dt).access p .blg 0 .page (fun u => u.writeConsist value))

/-! ## State transfers (R485, R486) -/

def xfUNREACHABLE : Nat := 1
def xfNO_WINDOW : Nat := 2
def xfBOUNDS : Nat := 3
def xfFETCH : Nat := 4
def xfWRITE : Nat := 5
def xfBUSY : Nat := 6
def xfDARK : Nat := 7

/-- A transfer of the page is over (R485, R486). -/
def State.xferFail (s : State) (t code : Nat) : State :=
  ((s.set BL_XFER_STAT_CODE code t).bump BL_XFER_FAILS t).raise BLT_INT_STAT_XFER_FAIL t
def State.xferClear (s : State) (t : Nat) : State :=
  (s.set BL_XFER_STAT_STATE 0 t).modBl (fun b => { b with xfers := Map.del t b.xfers })

/-- BL_XFER_CMD.START (R485, R486, R757). -/
def State.xferBegin (s : State) (t : Nat) : State :=
  let a := s.get BL_XFER_SRC_LO t + two 32 * s.get BL_XFER_SRC_HI t
  let n := s.get BL_XFER_LEN t
  let o := s.get BL_XFER_OFF t
  if (Map.find s.bl.xfers t).isSome then s.xferFail t xfBUSY
  else if a % 64 ≠ 0 || o % 64 ≠ 0 || n % 64 ≠ 0 || 16777216 < n then s.xferFail t xfBOUNDS
  else if !s.reachable (s.get BL_XFER_NODE t) then s.xferFail t xfUNREACHABLE
  else (s.set BL_XFER_STAT_STATE 1 t).modBl (fun b =>
    { b with xfers := Map.put t { src := a, node := s.get BL_XFER_NODE t, off := o, len := n } b.xfers })

/-- XFER_START (R485). -/
def execXferStart (dt : Nat) (p : Party) (t : Fin 64) (s : State) : Out :=
  s.done ((s.elapse dt).access p .blt t .page (fun u => u.xferBegin t))

/-- The data of a transfer leave in XFER_DATA packets: ARG is the window offset, with bit 0 set on the last (R485). -/
def State.xferSend (s : State) (t : Nat) (x : Xfer) (d : List Byte) : State :=
  let n := max 1 (ceilDiv x.len 4096)
  let s := (List.range n).foldl (fun (u : State) k =>
    u.sendPkt 0x10 x.node t (x.off + 4096 * k + b2n (k + 1 == n)) (((fit x.len d).drop (4096 * k)).take 4096)) s
  (s.set BL_XFER_STAT_STATE 2 t).modBl (fun b => { b with xfers := Map.put t { x with state := 2, since := s.cnt } b.xfers })

/-- XFER_SEND_COMPLETE (R486): nothing happens where the page sends nothing. -/
def execXferSendComplete (dt : Nat) (t : Fin 64) (data : Option (List Byte)) (s : State) : Out :=
  let u := s.elapse dt
  s.done (match Map.find u.bl.xfers t with
    | some x =>
      if x.state ≠ 1 || !u.mayRequest t then u
      else match data with
        | none => (u.xferClear t).xferFail t xfFETCH
        | some d => u.xferSend t x d
    | none => u)

/-- Why a piece of a transfer is refused at its destination; 0 for not (R486, R499, R757). -/
def State.xferCode (s : State) (t off n : Nat) (err : Bool) : Nat :=
  let size := s.get BL_RXWIN_SIZE t * 4096
  if size = 0 || s.get BL_RXWIN_LO t % 4096 ≠ 0 then xfNO_WINDOW
  else if size < off + n then xfBOUNDS
  else if s.standby || err || !(s.fnState t).bme then xfWRITE
  else 0

/-- The acknowledgement of a transfer received, and its marks (R485). -/
def State.xferAnswer (s : State) (src t code : Nat) : State :=
  let s := s.sendPkt 0x11 src t code []
  if code = 0 then (s.set BL_RX_LAST src t).raise BLT_INT_STAT_RX_DONE t else s

/-- Queue received bytes for host memory; the last store carries `note` (R151, R485). -/
def State.storeRx (s : State) (t a : Nat) (d : List Byte) (note : Note) : State :=
  let c := (s.fnState t).cfg
  let ps := pieces (payloadBytes c) (d.length / payloadBytes c + 1) a d
  (List.range ps.length).foldl (fun (u : State) k =>
    match ps[k]? with
    | some p => u.store { fn := t, kind := .transfer, addr := p.1, data := p.2, ro := c.ro, note := if k + 1 = ps.length then note else .none }
    | none => u) s

/-- Transfer data arrive (R485, R486): the acknowledgement of a good transfer waits for its last store. -/
def State.takeXfer (s : State) (pk : Packet) (err : Bool) : State :=
  let t := pk.tenancy.val
  let src := pk.src.val
  let key := 64 * src + t
  let last := bit pk.arg 0
  let off := pk.arg - b2n last
  let old := Map.get s.bl.rx key 0
  let code := if old ≠ 0 then old else s.xferCode t off pk.payload.length err
  let s := s.modBl (fun b => { b with rx := if last then Map.del key b.rx else Map.put key code b.rx })
  if code ≠ 0 then s.onlyIf last (fun u => u.xferAnswer src t code)
  else if last && pk.payload.isEmpty then s.xferAnswer src t 0
  else s.storeRx t (s.get BL_RXWIN_LO t + two 32 * s.get BL_RXWIN_HI t + off) pk.payload (if last then .transfer src t else .none)

/-- XFER_DATA (R485). -/
def execXferData (dt : Nat) (pk : Packet) (err : Bool) (s : State) : Out :=
  s.done (((s.elapse dt).takeArrived pk.src 0x10).takeXfer pk err)

/-- XFER_ACK (R485): nothing happens where no transfer to that node is under way. -/
def execXferAck (dt : Nat) (src : Fin 32) (t : Fin 64) (code : Nat) (s : State) : Out :=
  let u := (s.elapse dt).takeArrived src 0x11
  s.done (match Map.find u.bl.xfers t with
    | some x =>
      if x.node ≠ src.val then u
      else if code = 0 then (((u.xferClear t).set BL_XFER_STAT_CODE 0 t).bump BL_XFERS t).raise BLT_INT_STAT_XFER_DONE t
      else (u.xferClear t).xferFail t code
    | none => u)

/-- XFER_ACK_TIMEOUT (R486): nothing happens where the page awaits no acknowledgement. -/
def execXferAckTimeout (t : Fin 64) (s : State) : Out :=
  s.done (match Map.find s.bl.xfers t with
    | some x => if x.state = 2 then ((s.reach (x.since + 1000000000)).xferClear t).xferFail t xfDARK else s
    | none => s)

/-- The last store of a transfer received has been issued: it is acknowledged (R485). -/
def State.afterTransfer (s : State) (before : Nat) : State :=
  match s.txq with
  | (_, x) :: _ =>
    if s.txq.length ≤ before then s
    else match x.note with
      | .transfer src t => s.xferAnswer src t 0
      | .none | .completion _ _ _ _ _ | .result _ _ => s
  | [] => s

/-- UPSTREAM_STORE_ISSUE (R152, R153, R156): nothing leaves while the link is down or the part is in STANDBY. -/
def execUpstreamStoreIssue (dt : Nat) (s : State) : Out :=
  let t := s.elapse dt
  s.done (if t.linkUp && (!t.standby || t.flag PWRG_STAT_ENTERING) then t.issueStore.afterTransfer t.txq.length else t)

end Sys2Proof.Machine
end

