-- ==== Sys2Proof/Machine/Calender.lean ====
section
/-! DEFINITION. Machine/Calender.lean: tensor traffic through the calender, SEND, mailboxes and WAIT (R480 to R484). -/
namespace Sys2Proof.Machine

/-! ## Flows (R481, R484, R501) -/

/-- A flow of a tenancy, and a change of one. -/
def State.flow (s : State) (t f : Nat) : Flow := Map.get s.bl.flows (256 * t + f) {}
def State.modFlow (s : State) (t f : Nat) (g : Flow → Flow) : State :=
  s.modBl (fun b => { b with flows := Map.put (256 * t + f) (g (s.flow t f)) b.flows })

/-- ceil(log2 v) of a positive finite fp32 value. -/
def ceilLog2 (v : Nat) : Int :=
  match fp32.dec v with
  | .fin _ m e => (bitLen m : Int) - (if m = two (bitLen m - 1) then 1 else 0) + e
  | .nan | .inf _ => 0

/-- E of a flow for the tick that begins (R481). -/
def Flow.ceiling (f : Flow) : Int :=
  let a := f.past.foldl max 0
  if f.mode = 1 || a = 0 then f.e0 else clampI (-111) 127 (ceilLog2 a)

/-- A value of CAL_FLOW_CFG takes effect (R484, R501). -/
def Flow.config (f : Flow) (v : Nat) : Flow :=
  { f with mode := bits v 0 1, steps := bits v 1 5, e0 := toS 8 (bits v 8 8), thr := bits v 16 16 }

/-- The pending value of a flow's configuration falls due at this boundary (R699, R701 to R703). -/
def State.flowFalls (s : State) (t : Nat) (f : Flow) : Option Nat :=
  match f.pend with
  | some (v, w, c) => if s.dueNow .cal t w c then some v else none
  | none => none

/-- One flow at a boundary (R481). -/
def State.flowTick (s : State) (e : Nat × Flow) : State :=
  let t := e.1 / 256
  let due := s.flowFalls t e.2
  let f := e.2
  let g := match due with
    | some v => { f.config v with pend := none }
    | none => f
  let g := { g with past := (f.now :: f.past).take 4, now := 0, sat := 0 }
  let g := { g with e := g.ceiling }
  let s := s.modBl (fun b => { b with flows := Map.put e.1 g b.flows })
  s.onlyIf (g.mode != f.mode || g.steps != f.steps || decide (g.e0 ≠ f.e0) || g.thr != f.thr) (fun u => u.bumpGen .cal t)
def State.calBoundary (s : State) : State := s.bl.flows.foldl State.flowTick s

/-! ## Coding (R482) -/

/-- What coding a group gives: its step, codes, saturations, NaNs, and its largest finite magnitude (an fp32 pattern). -/
structure Coded where
  step : Nat
  codes : List Nat
  sat : Nat
  nans : Nat
  top : Nat

/-- The largest |x| of the finite elements. -/
def topOf (l : List Nat) : Nat := l.foldl (fun a v => if fp32.special v then a else max a (v % two 31)) 0

/-- The code of an element, and whether it saturates, or is NaN. -/
def codeOf (e : Int) (j : Nat) (v : Nat) : Nat × Nat × Nat :=
  match fp32.dec v with
  | .nan => (7, 0, 1)
  | .inf neg => (if neg then 0 else 15, 1, 0)
  | .fin s m x =>
    let t := Fv.fin s m (x + (j : Int) - e)
    if (Fv.fixed 1 0).lt t then (15, 1, 0) else if t.lt (Fv.fixed (-1) 0) then (0, 1, 0) else (gridCode t, 0, 0)

/-- A group of 32 elements; a short one is filled with code 7 (R482). -/
def codeGroup (e : Int) (k : Nat) (l : List Nat) : Coded :=
  let top := topOf l
  let j := if top = 0 then k - 1 else (clampI 0 ((k : Int) - 1) (e - ceilLog2 top)).toNat
  let cs := l.map (codeOf e j)
  { step := j, codes := cs.map (fun c => c.1) ++ List.replicate (32 - l.length) 7, sat := (cs.map (fun c => c.2.1)).foldl (· + ·) 0,
    nans := (cs.map (fun c => c.2.2)).foldl (· + ·) 0, top := top }

/-- Cut a list into pieces of `n`; `fuel` bounds their number. -/
def chunksOf (n : Nat) : Nat → List Nat → List (List Nat)
  | 0, _ => []
  | fuel + 1, l => if l.isEmpty then [] else l.take n :: chunksOf n fuel (l.drop n)

/-- A block: 8 bytes of steps, then 16 bytes of codes per group (R482). -/
def blockBytes (gs : List Coded) : List Byte :=
  packNibbles (gs.map (fun g => g.step) ++ List.replicate (16 - gs.length) 0) ++ gs.flatMap (fun g => packNibbles g.codes)

/-- The groups of a message, sixteen to a block. -/
def blocksOf : Nat → List Coded → List (List Coded)
  | 0, _ => []
  | fuel + 1, l => if l.isEmpty then [] else l.take 16 :: blocksOf fuel (l.drop 16)

/-! ## SEND (R480, R484) -/

/-- A send descriptor (R480). -/
structure SendDesc where
  node : Nat
  core : Nat
  flow : Nat
  inBf : Bool
  outBf : Bool
  elems : Nat
  src : Nat
  dst : Nat
  mbox : Nat

def parseSend (h : List Byte) : SendDesc :=
  { node := le h 0 1, core := le h 1 1, flow := le h 2 1, inBf := bit (le h 3 1) 0, outBf := bit (le h 3 1) 2, elems := le h 4 4, src := le h 8 4,
    dst := le h 0xC 4, mbox := le h 0x10 1 }

/-- A descriptor's fields are in range and its reserved bits zero (R480). -/
def sendOk (h : List Byte) : Bool :=
  let f := le h 3 1
  le h 0 1 < 32 && le h 1 1 < 64 && bits f 0 2 ≤ 1 && bits f 2 2 ≤ 1 && bits f 4 4 == 0 && 1 ≤ le h 4 4 && le h 4 4 ≤ 1048576 &&
  le h 0x10 1 < 64 && (slice h 0x11 15).all (fun x => x == 0)

/-- The saturations of a flow advance; the event is once per flow per tick (R484). -/
def State.flowSat (s : State) (t f n : Nat) : State :=
  let g := s.flow t f
  let hit := g.thr != 0 && decide (g.sat < g.thr) && decide (g.thr ≤ g.sat + n)
  let s := (s.bump CAL_SAT t 0 n).modFlow t f (fun x => { x with sat := x.sat + n })
  s.onlyIf hit (fun u => (u.set CAL_SAT_FLOW f t).raise CAL_INT_STAT_SAT_EVENT t)

/-- The range lies in a SCRATCH section of a loaded image of the tenancy (R483). -/
def State.scratchHolds (s : State) (t core off n : Nat) : Bool :=
  (s.imagesOf t).any (fun m => m.sections.any (fun x => x.core == core && x.kind == 7 && x.off ≤ off && off + n ≤ x.off + x.len))

/-! ### Mailboxes and WAIT (R483) -/

/-- The key of a mailbox; its counter. -/
def mboxKey (t core mbox : Nat) : Nat := 4096 * t + 64 * core + mbox
def State.mailbox (s : State) (t core mbox : Nat) : Nat := Map.get s.bl.mbox (mboxKey t core mbox) 0

/-- The counter has reached a target, counted modulo 2³². -/
def reached (count target : Nat) : Bool := decide (idxSub count target < two 31)

/-- A WAIT ends: the time it took is part of its instruction (R262, R273). -/
def State.endWait (s : State) (r : Run) (core : Nat) : State :=
  match Map.find r.waits core with
  | some w => (s.modRun r.id (fun x => { x with waits := Map.del core x.waits })).spend r core (openCycles (s.cnt - w.since))
  | none => s

/-- A mailbox advances; a WAIT of the tenancy on that core may end (R483). -/
def State.mailIn (s : State) (t core mbox : Nat) : State :=
  let n := (s.mailbox t core mbox + 1) % two 32
  let s := s.modBl (fun b => { b with mbox := Map.put (mboxKey t core mbox) n b.mbox })
  (s.runs.filter (fun r => r.rcd.tenancy == t && (Map.find r.waits core).any (fun w => w.mailbox == mbox && reached n w.target))).foldl
    (fun u r => u.endWait r core) s

/-- A message is not accepted at its destination (R483, R499). -/
def State.tensorReject (s : State) (t : Nat) : State := (s.bump CAL_RX_REJECT t).raise CAL_INT_STAT_RX_REJECT t

/-- Elements as fp32 values are written at their destination, in the output format (R314, R483). -/
def State.tensorWrite (s : State) (t core dst : Nat) (bf : Bool) (vs : List Nat) : State :=
  if s.standby || !s.scratchHolds t core dst (vs.length * (if bf then 2 else 4)) then s.tensorReject t
  else s.wr .sram (sramAt core dst) (if bf then vs.flatMap (fun v => toLe 2 (fp32.convert bf16 v)) else vs.flatMap (fun v => toLe 4 v))

/-- The elements of a message, as fp32 values. -/
def State.sendElems (s : State) (core : Nat) (d : SendDesc) : List Nat :=
  (List.range d.elems).map (fun i =>
    if d.inBf then bf16.convert fp32 (s.rdLe .sram (sramAt core (d.src + 2 * i)) 2) else s.rdLe .sram (sramAt core (d.src + 4 * i)) 4)

/-- A message to this chip is copied without the calender (R480). -/
def State.sendHere (s : State) (t : Nat) (d : SendDesc) (vs : List Nat) : State :=
  (s.tensorWrite t d.core d.dst d.outBf vs).mailIn t d.core d.mbox

/-- One TENSOR_DATA packet, of blocks from `first` on (R482). -/
def State.sendTensor (s : State) (t : Nat) (d : SendDesc) (e : Int) (first left : Nat) (bs : List (List Coded)) : State :=
  let n := min left (512 * bs.length)
  let head := record [(1, ofS 8 e), (1, b2n d.outBf), (1, d.mbox), (1, d.core), (4, d.dst + first * (if d.outBf then 2 else 4))]
  s.sendPkt 0x30 d.node t (n + (if n = left then two 31 else 0)) (head ++ bs.flatMap blockBytes)

/-- Packets of up to 15 blocks (R480). -/
def State.sendTensors (t : Nat) (d : SendDesc) (e : Int) : Nat → Nat → List (List Coded) → State → State
  | 0, _, _, s => s
  | fuel + 1, first, bs, s =>
    if bs.isEmpty then s
    else State.sendTensors t d e fuel (first + 7680) (bs.drop 15) (s.sendTensor t d e first (d.elems - first) (bs.take 15))

/-- A message to another chip is coded and sent (R481, R482, R484). -/
def State.sendAway (s : State) (t : Nat) (d : SendDesc) (vs : List Nat) : State :=
  let f := s.flow t d.flow
  let gs := (chunksOf 32 (d.elems / 32 + 1) vs).map (codeGroup f.e f.steps)
  let top := (gs.map (fun g => g.top)).foldl max 0
  let s := s.modFlow t d.flow (fun x => { x with now := max x.now top })
  let s := (s.flowSat t d.flow ((gs.map (fun g => g.sat)).foldl (· + ·) 0)).bump CAL_NAN t 0 ((gs.map (fun g => g.nans)).foldl (· + ·) 0)
  let bs := blocksOf (gs.length / 16 + 1) gs
  State.sendTensors t d f.e bs.length 0 bs s

/-- A SEND instruction of a run on a core (R480). -/
def State.sendOn (s : State) (r : Run) (m : Image) (core a : Nat) : State :=
  if !m.holds core a 32 then s.coreFault r core cfACCESS
  else
    let s := s.runReads r.id core core a 32
    let h := s.rdBytes .sram (sramAt core a) 32
    let d := parseSend h
    let n := d.elems * (if d.inBf then 2 else 4)
    let t := r.rcd.tenancy
    if (s.onRun r.id core).isNone then s
    else if !sendOk h || !m.holds core d.src n then s.coreFault r core cfACCESS
    else
      let s := s.runReads r.id core core d.src n
      if (s.onRun r.id core).isNone then s
      else if d.node = s.node then s.sendHere t d (s.sendElems core d)
      else if !s.reachable d.node then (s.bump CAL_TX_UNREACH t).raise CAL_INT_STAT_TX_UNREACH t
      else s.sendAway t d (s.sendElems core d)

/-- SEND (R480). -/
def execSend (dt : Nat) (core : Fin 64) (i : Ins) (s : State) : Out :=
  s.done ((s.elapse dt).onCore core 0x23 i (fun _ => oneOperand i 1) (fun u r m => (u.spend r core (openCycles dt)).sendOn r m core i.a))

/-! ## Reception (R483) -/

/-- Element i of a payload, as an fp32 value: L(c) × 2^(E − j − 7). -/
def tensorElem (d : List Byte) (i : Nat) : Nat :=
  let blk := 8 + 264 * (i / 512)
  let g := i % 512 / 32
  let j := bits (byteAt d (blk + g / 2)) (4 * (g % 2)) 4
  let c := bits (byteAt d (blk + 8 + 16 * g + i % 32 / 2)) (4 * (i % 2)) 4
  fp32.enc (Fv.ofInt false (gridLevel c) (toS 8 (byteAt d 0) - (j : Int) - 7))

/-- A TENSOR_DATA packet arrives (R483, R499). -/
def State.takeTensor (s : State) (pk : Packet) : State :=
  let t := pk.tenancy.val
  let d := pk.payload
  let core := byteAt d 3 % 64
  let s := s.tensorWrite t core (le d 4 4) (byteAt d 1 == 1) ((List.range (pk.arg % 8192)).map (tensorElem d))
  if bit pk.arg 31 then s.mailIn t core (byteAt d 2 % 64) else s

/-- TENSOR_DATA (R483). -/
def execTensorData (dt : Nat) (pk : Packet) (s : State) : Out :=
  s.done (((s.elapse dt).takeArrived pk.src 0x30).takeTensor pk)

/-- WAIT has a mailbox, a target and a limit (R262). -/
def waitOk (i : Ins) : Bool := insPlain i && i.sub == 0 && i.cycles == 0 && i.a < 64 && i.d == 0 && i.e == 0 && i.f == 0

/-- WAIT (R483): the core waits until the mailbox reaches its target. -/
def execWaitMbx (core : Fin 64) (i : Ins) (s : State) : Out :=
  s.done (s.onCore core 0x24 i (fun _ => waitOk i) (fun u r _ =>
    if reached (u.mailbox r.rcd.tenancy core i.a) i.b then u
    else u.modRun r.id (fun x => { x with waits := Map.put core { mailbox := i.a, target := i.b, limit := i.c, since := u.cnt } x.waits })))

/-- ns of a number of core cycles at 1.2 GHz, rounded up (R3). -/
def coreNs (n : Nat) : Nat := ceilDiv (5 * n) 6

/-- WAIT_LIMIT_EXPIRY (R483): nothing happens where no WAIT is in progress on the core. -/
def execWaitLimitExpiry (core : Fin 64) (s : State) : Out :=
  s.done (match s.runs.find? (fun r => (Map.find r.waits core).isSome) with
    | none => s
    | some r =>
      match Map.find r.waits core with
      | none => s
      | some w =>
        let t := r.rcd.tenancy
        let s := (s.reach (w.since + coreNs w.limit)).endWait r core
        (s.bump CAL_WAIT_EXPIRED t).raise CAL_INT_STAT_WAIT_EXPIRED t)

end Sys2Proof.Machine
end

