-- ==== Sys2Proof/Machine/Schedule.lean ====
section
/-! DEFINITION. Machine/Schedule.lean: the solver engine's schedules, handles, arithmetic and assembly (R417 to R432). -/
namespace Sys2Proof.Machine

/-! ## Schedules (R418, R425 to R427) -/

/-- Header fields of a schedule image (R425). -/
def sdMode (b : List Byte) : Nat := le b 0x18 1
def sdIterMax (b : List Byte) : Nat := le b 0x19 1
def sdRefineMax (b : List Byte) : Nat := le b 0x1A 1
def sdN (b : List Byte) : Nat := le b 0x1C 2
def sdME (b : List Byte) : Nat := le b 0x1E 2
def sdMI (b : List Byte) : Nat := le b 0x20 2
def sdParams (b : List Byte) : Nat := le b 0x22 2
def sdMeas (b : List Byte) : Nat := le b 0x24 2
def sdStore (b : List Byte) : Nat := le b 0x2C 4
def sdSetup (b : List Byte) : Nat := le b 0x30 4
def sdIter (b : List Byte) : Nat := le b 0x34 4
def sdRefine (b : List Byte) : Nat := le b 0x38 4
def sdTerms (b : List Byte) : Nat := le b 0x3C 4
def sdFixed (b : List Byte) : Bool := sdMode b == 1

/-- Offset and length of a section (R425). -/
def sdSec (b : List Byte) (i : Nat) : Nat × Nat := (le b (0x60 + 8 * i) 4, le b (0x64 + 8 * i) 4)

/-- NNZ_P, NNZ_E, NNZ_G; entries of the data array; elements of x, y, z and s (R425, R433). -/
def sdNnz (b : List Byte) (k : Nat) : Nat := le b ((sdSec b 0).1 + 4 * k) 4
def sdData (b : List Byte) : Nat := sdNnz b 0 + sdN b + sdNnz b 1 + sdME b + sdNnz b 2 + sdMI b
def sdElems (b : List Byte) : Nat := sdN b + sdME b + 2 * sdMI b

/-- The worst case W (R426). -/
def sdWorst (b : List Byte) : Nat :=
  sdSetup b + sdRefineMax b * sdRefine b + sdIterMax b * (sdIter b + 2 * sdRefineMax b * sdRefine b)

/-- Fraction widths of RANGES: of an element, of parameter or measurement i, of a data entry (R423, R425). -/
def fracElem (b : List Byte) (i : Nat) : Nat := byteAt b ((sdSec b 2).1 + 2 * i)
def rangeAt (b : List Byte) (i : Nat) : Nat := (sdSec b 2).1 + 2 * sdElems b + 24 * i
def fracIn (b : List Byte) (i : Nat) : Nat := byteAt b (rangeAt b i)
def fracData (b : List Byte) (d : Nat) : Nat := byteAt b (rangeAt b (sdParams b + sdMeas b) + 2 * d)

/-- BAD_FORMAT of the header (R425, R427). -/
def sdHeadBad (b : List Byte) (len : Nat) : Bool :=
  len < 128 || le b 0 4 != 0x4D495351 || le b 4 2 != 1 || le b 6 2 != 0x80 || le b 8 8 != len || !crcOk (fit len b) 0x10 || 1 < sdMode b ||
  le b 0x26 2 != 0 || le b 0x58 8 != 0 || sdStore b % 65536 != 0 || sdStore b == 0 ||
  (List.range 4).any (fun i => len < (sdSec b i).1 + (sdSec b i).2)

/-- Entries of PATTERN from `k` on lie in a matrix of `r` rows and `c` columns; `low` asks for its lower triangle. -/
def patternOk (b : List Byte) (k n r c : Nat) (low : Bool) : Bool :=
  (List.range n).all (fun i =>
    let o := (sdSec b 0).1 + 16 + 4 * (k + i)
    le b o 2 < r && le b (o + 2) 2 < c && (!low || le b (o + 2) 2 ≤ le b o 2))

/-- PATTERN, TEMPLATE and RANGES are inconsistent with the header, or FACTOR is not valid (R425, R427, R432). -/
def sdBodyBad (b : List Byte) : Bool :=
  let p := sdNnz b 0
  let e := sdNnz b 1
  let g := sdNnz b 2
  let t := sdSec b 1
  let r := sdSec b 2
  (sdSec b 0).2 != 16 + 4 * (p + e + g) || le b ((sdSec b 0).1 + 12) 4 != 0 || !patternOk b 0 p (sdN b) (sdN b) true ||
  !patternOk b p e (sdME b) (sdN b) false || !patternOk b (p + e) g (sdMI b) (sdN b) false || t.2 != 16 * sdTerms b ||
  (List.range (sdTerms b)).any (fun i =>
    let o := t.1 + 16 * i
    sdData b ≤ le b o 4 || 2 < le b (o + 4) 1 || le b (o + 5) 1 != 0 ||
    (le b (o + 4) 1 == 1 && sdParams b ≤ le b (o + 6) 2) || (le b (o + 4) 1 == 2 && sdMeas b ≤ le b (o + 6) 2)) ||
  (if sdFixed b then
    r.2 != 2 * sdElems b + 24 * (sdParams b + sdMeas b) + 2 * sdData b ||
    (List.range (sdElems b)).any (fun i => 62 < fracElem b i || byteAt b (r.1 + 2 * i + 1) != 0) ||
    (List.range (sdParams b + sdMeas b)).any (fun i => 62 < fracIn b i || (slice b (rangeAt b i + 1) 7).any (fun x => x != 0)) ||
    (List.range (sdData b)).any (fun d => 62 < fracData b d || byteAt b (rangeAt b (sdParams b + sdMeas b) + 2 * d + 1) != 0)
   else r.2 != 0) ||
  !Config.factorOk b

/-- A value of R418, or REF_EXP, is out of range: LIMITS (R427). -/
def sdLimits (b : List Byte) : Bool :=
  sdN b == 0 || 4096 < sdN b || 8192 < sdME b + sdMI b || le b 0x28 4 == 0 || 262144 < le b 0x28 4 || 8192 < sdParams b || 4096 < sdMeas b ||
  sdTerms b == 0 || 1048576 < sdTerms b || sdIterMax b == 0 || 100 < sdIterMax b || 7 < sdRefineMax b || le b 0x1B 1 < 10 || 60 < le b 0x1B 1

/-! ## Handles and the store (R420, R427, R428) -/

/-- A handle of a tenancy, and a change of one. -/
def State.solHandle (s : State) (t h : Nat) : SolHandle := if h < 4 then Map.get s.sol.handles (4 * t + h) {} else {}
def State.modSol (s : State) (f : Sol → Sol) : State := { s with sol := f s.sol }
def State.modHandle (s : State) (t h : Nat) (f : SolHandle → SolHandle) : State :=
  s.modSol (fun x => { x with handles := Map.put (4 * t + h) (f (s.solHandle t h)) x.handles })

/-- Store units held by a tenancy, and by all. -/
def State.solUsed (s : State) (t : Nat) : Nat :=
  ((s.sol.handles.filter (fun e => e.1 / 4 == t)).map (fun e => e.2.units)).foldl (· + ·) 0
def State.solFree (s : State) : Nat := 240 - ((s.sol.handles.map (fun e => e.2.units)).foldl (· + ·) 0)

/-- The lowest run of free units of the shared store; 240 where none is long enough. -/
def State.solPlace (s : State) (n : Nat) : Nat :=
  let held := (s.sol.handles.filter (fun e => e.2.units != 0)).map (fun e => (e.2.base, e.2.units))
  let starts := 0 :: held.map (fun x => x.1 + x.2)
  let good := starts.filter (fun b => b + n ≤ 240 && !held.any (fun x => Span.meets (b, n) x))
  good.foldl min 240

/-- The parameter bank in force. -/
def SolHandle.bank (h : SolHandle) : List Nat := if h.cur = some 1 then h.bank1 else h.bank0

/-- A word of a handle's store is damaged. -/
def SolHandle.holds (h : SolHandle) (d : Damage) : Bool := d.store == 3 && inSpan d.addr (65536 * h.base) (65536 * h.units)

/-! ## Arithmetic and assembly (R422, R423, R432) -/

/-- A signed 64-bit value, saturated; and whether it was. -/
def sat64 (v : Int) : Nat × Nat := (ofS 64 (satS 64 v), b2n (decide (satS 64 v ≠ v)))

/-- Term i of TEMPLATE applied to the data array, with the saturations so far (R432). A coefficient has its data entry's fraction width. -/
def sdTerm (b : List Byte) (params meas : List Nat) (a : List Nat × Nat) (i : Nat) : List Nat × Nat :=
  let o := (sdSec b 1).1 + 16 * i
  let d := le b o 4
  let src := le b (o + 4) 1
  let k := le b (o + 6) 2
  let coef := le b (o + 8) 8
  let v := a.1.getD d 0
  if sdFixed b then
    let u : Int := if src = 0 then 1 else if src = 1 then toS 64 (params.getD k 0) else toS 64 (meas.getD k 0)
    let f := if src = 0 then 0 else if src = 1 then fracIn b k else fracIn b (sdParams b + k)
    let p := sat64 (rshift (toS 64 coef * u) f)
    let q := sat64 (toS 64 v + toS 64 p.1)
    (a.1.set d q.1, a.2 + p.2 + q.2)
  else
    let u := if src = 0 then 0x3FF0000000000000 else if src = 1 then params.getD k 0 else meas.getD k 0
    (a.1.set d (fp64.fmaB coef u v), a.2)

/-- Assembly of the data array (R432). -/
def assemble (b : List Byte) (params meas : List Nat) : List Nat × Nat :=
  (List.range (sdTerms b)).foldl (sdTerm b params meas) (List.replicate (sdData b) 0, 0)

/-- An 8-byte input is not finite, or outside its range (R430, R432). -/
def inputBad (b : List Byte) (i v : Nat) : Bool :=
  if sdFixed b then
    let o := rangeAt b i
    decide (toS 64 v < toS 64 (le b (o + 8) 8)) || decide (toS 64 (le b (o + 16) 8) < toS 64 v)
  else fp64.special v

/-- a ≤ b in a mode's format. -/
def solLe (fixed : Bool) (a b : Nat) : Bool := if fixed then decide (toS 64 a ≤ toS 64 b) else (fp64.dec a).le (fp64.dec b)

/-- 8-byte values of a record. -/
def words64 (d : List Byte) (off n : Nat) : List Nat := (List.range n).map (fun i => le d (off + 8 * i) 8)

end Sys2Proof.Machine
end

