-- ==== Sys2Proof/Machine/Kkt.lean ====
section
/-! DEFINITION. Machine/Kkt.lean: the solver engine's KKT matrix, factorisation, refinement and iteration (R419, R423, R433 to R438). What a
phase computes is a function of the schedule, the data array, the iterate and SOL_PIVOT_EPS alone (R424). -/
namespace Sys2Proof.Machine

/-! ## Numbers of a mode (R422, R423) -/

/-- 2ᶠ × 2⁻ᵉ rounded to an integer by R16. -/
def fixPow (f e : Nat) : Int := rshift (two f : Int) e

/-- The value 2⁻ᵉ, and its negative, in a mode's format; fixed: of fraction width `f`. -/
def solPow (fixed neg : Bool) (f e : Nat) : Nat :=
  if fixed then ofS 64 (if neg then -(fixPow f e) else fixPow f e) else fp64.enc (.fin neg 1 (-(e : Int)))

/-- The number 1. -/
def solOne (fixed : Bool) (f : Nat) : Nat := solPow fixed false f 0

/-- The negative of a value; a fixed one saturates. -/
def solNeg (fixed : Bool) (a : Nat) : Nat := if fixed then (sat64 (-(toS 64 a))).1 else fp64.enc (fp64.dec a).negate

/-- The exact value of a number; fixed: of fraction width `f`. -/
def solVal (fixed : Bool) (f a : Nat) : Fv := if fixed then Fv.fixed (toS 64 a) f else fp64.dec a

/-- a ÷ c, once rounded by R16, and the saturations: fixed operands have fraction widths `fa` and `fc`, the result `f`; by zero it takes the
bound of the numerator's sign, and 0 ÷ 0 is 0 (R422, R423). -/
def solDiv (fixed : Bool) (f fa fc a c : Nat) : Nat × Nat :=
  if !fixed then (fp64.divB a c, 0)
  else
    let x := toS 64 a
    let y := toS 64 c
    if y = 0 then (if x = 0 then 0 else if 0 < x then two 63 - 1 else two 63, 1)
    else sat64 (rneDiv ((if y < 0 then -x else x) * (two (f + fc) : Int)) (y.natAbs * two fa))

/-- a × c, once rounded by R16, and the saturations (R422, R423). -/
def solMul (fixed : Bool) (f fa fc a c : Nat) : Nat × Nat :=
  if fixed then sat64 (rneDiv (toS 64 a * toS 64 c * (two f : Int)) (two (fa + fc))) else (fp64.mulB a c, 0)

/-- a + c of one format, and the saturations. -/
def solAdd (fixed : Bool) (a c : Nat) : Nat × Nat := if fixed then sat64 (toS 64 a + toS 64 c) else (fp64.addB a c, 0)

/-- The magnitude of a value. -/
def solAbs (fixed : Bool) (a : Nat) : Nat := if fixed then (sat64 ((toS 64 a).natAbs : Int)).1 else fp64.enc (fp64.dec a).abs

/-- The larger of two values of one format. -/
def solMax (fixed : Bool) (a c : Nat) : Nat := if fixed then (if toS 64 a < toS 64 c then c else a) else fp64.enc ((fp64.dec a).max (fp64.dec c))

/-- The largest magnitude of a vector, ‖v‖∞. -/
def infNorm (fixed : Bool) (v : List Nat) : Nat := v.foldl (fun m x => solMax fixed m (solAbs fixed x)) 0

/-! ## The KKT matrix (R419) -/

/-- Rows of the KKT matrix, ordered x, then y, then z. -/
def kktRows (b : List Byte) : Nat := sdN b + sdME b + sdMI b

/-- ROW and COL of an entry of PATTERN (R425). -/
def patternAt (b : List Byte) (k : Nat) : Nat × Nat := (le b ((sdSec b 0).1 + 16 + 4 * k) 2, le b ((sdSec b 0).1 + 18 + 4 * k) 2)

/-- Values of the data array: P, c, E, b, G, h (R425). -/
def dataP (b : List Byte) (d : List Nat) : List Nat := d.take (sdNnz b 0)
def dataC (b : List Byte) (d : List Nat) : List Nat := (d.drop (sdNnz b 0)).take (sdN b)
def dataE (b : List Byte) (d : List Nat) : List Nat := (d.drop (sdNnz b 0 + sdN b)).take (sdNnz b 1)
def dataB (b : List Byte) (d : List Nat) : List Nat := (d.drop (sdNnz b 0 + sdN b + sdNnz b 1)).take (sdME b)
def dataG (b : List Byte) (d : List Nat) : List Nat := (d.drop (sdNnz b 0 + sdN b + sdNnz b 1 + sdME b)).take (sdNnz b 2)
def dataH (b : List Byte) (d : List Nat) : List Nat := (d.drop (sdNnz b 0 + sdN b + sdNnz b 1 + sdME b + sdNnz b 2)).take (sdMI b)

/-- An entry of the lower triangle of a KKT matrix. -/
structure Kkt where
  row : Nat
  col : Nat
  val : Nat
deriving DecidableEq, Repr

/-- A block of the matrix: entries of PATTERN from `k` on, with their values, moved down by `r` rows. -/
def kktBlock (b : List Byte) (k r : Nat) (v : List Nat) : List Kkt :=
  (List.range v.length).map (fun i => { row := r + (patternAt b (k + i)).1, col := (patternAt b (k + i)).2, val := v.getD i 0 })

/-- The KKT matrix: P, E, G, and −W on the diagonal of z; the block of y is zero (R419). -/
def kktOf (b : List Byte) (data w : List Nat) : List Kkt :=
  kktBlock b 0 0 (dataP b data) ++ kktBlock b (sdNnz b 0) (sdN b) (dataE b data) ++
  kktBlock b (sdNnz b 0 + sdNnz b 1) (sdN b + sdME b) (dataG b data) ++
  (List.range (sdMI b)).map (fun j =>
    { row := sdN b + sdME b + j, col := sdN b + sdME b + j, val := solNeg (sdFixed b) (w.getD j 0) })

/-- The entry of a symmetric matrix at a row and column; 0 where the pattern has none. -/
def kktAt (k : List Kkt) (r c : Nat) : Nat := ((k.find? (fun e => e.row == max r c && e.col == min r c)).map (fun e => e.val)).getD 0

/-- The expected pivot sign of a row is negative: y and z rows (R419). -/
def pivotNeg (b : List Byte) (row : Nat) : Bool := decide (sdN b ≤ row)

/-! ## What FACTOR computes (R425, R434) -/

/-- Places of FACTOR whose values the iteration's steps use. -/
inductive Site where
  | resD | resE | resI | mu | start | pivot | solve | resid | affine | step | muAff | sigma | correct | move | w | alpha | tau
deriving DecidableEq, Repr

/-- The number of element `i` of a place. -/
def Site.at (k : Site) (i : Nat) : Nat := 32 * i + k.ctorIdx

/-- A vector FACTOR computes at a place from the values given. -/
def evalVec (b : List Byte) (k : Site) (n : Nat) (inputs : List Nat) : List Nat :=
  (List.range n).map (fun i => Config.factorEval b (k.at i) inputs % two 64)

/-- The fraction width of an intermediate, 0 to 62 (R423). -/
def midFrac (b : List Byte) (k : Site) (i : Nat) : Nat := Config.factorFrac b (k.at i) % 63

/-- Fraction widths of s_j and of z_j. -/
def fracZ (b : List Byte) (j : Nat) : Nat := fracElem b (sdN b + sdME b + j)
def fracS (b : List Byte) (j : Nat) : Nat := fracElem b (sdN b + sdME b + sdMI b + j)

/-- An iterate's values in order x, y, z, s. -/
def Iterate.all (i : Iterate) : List Nat := i.x ++ i.y ++ i.z ++ i.s

/-- The residuals r_d, r_e, r_i of an iterate, and its μ, 0 where MI is 0. -/
structure Residuals where
  d : List Nat
  e : List Nat
  i : List Nat
  mu : Nat
deriving DecidableEq, Repr
def residuals (b : List Byte) (data : List Nat) (it : Iterate) : Residuals :=
  let v := data ++ it.all
  { d := evalVec b .resD (sdN b) v, e := evalVec b .resE (sdME b) v, i := evalVec b .resI (sdMI b) v,
    mu := if sdMI b = 0 then 0 else Config.factorEval b (Site.mu.at 0) (it.s ++ it.z) % two 64 }

/-- W_jj = s_j ÷ z_j, and the saturations (R419). -/
def wOf (b : List Byte) (it : Iterate) : List Nat × Nat :=
  let q := (List.range (sdMI b)).map (fun j => solDiv (sdFixed b) (midFrac b .w j) (fracS b j) (fracZ b j) (it.s.getD j 0) (it.z.getD j 0))
  (q.map (fun x => x.1), (q.map (fun x => x.2)).foldl (· + ·) 0)

/-! ## Factorisation, pivots and refinement (R437, R438) -/

/-- What a solve's phases share: the data array, EPS_EXP and SHIFT_EXP, ALWAYS_REFINE. -/
structure PhaseIn where
  data : List Nat
  eps : Nat
  shift : Nat
  always : Bool

/-- The factor K̃ of a matrix: the matrix, its pivots in elimination order, and how many were replaced. -/
structure Factor where
  k : List Kkt
  piv : List Nat
  replaced : Nat

/-- Pivot `d` of row `row`, step `i`, is tiny: σ × d < EPS, where a fixed EPS is rounded to the pivot's format and is at least one unit. -/
def tinyPivot (b : List Byte) (p : PhaseIn) (i row d : Nat) : Bool :=
  let f := midFrac b .pivot i
  if sdFixed b then decide ((if pivotNeg b row then -(toS 64 d) else toS 64 d) < max 1 (fixPow f p.eps))
  else
    let v := fp64.dec d
    (if pivotNeg b row then v.negate else v).lt (.fin false 1 (-(p.eps : Int)))

/-- One step of the elimination: the pivot is formed, tested, and replaced by σ × 2^−SHIFT_EXP where it is tiny. -/
def pivotStep (b : List Byte) (p : PhaseIn) (a : Factor) (i : Nat) : Factor :=
  let row := Config.elimRow b i % kktRows b
  let d := Config.factorEval b (Site.pivot.at i) (a.k.map (fun e => e.val) ++ a.piv) % two 64
  if tinyPivot b p i row d then
    { a with piv := a.piv ++ [solPow (sdFixed b) (pivotNeg b row) (midFrac b .pivot i) p.shift], replaced := a.replaced + 1 }
  else { a with piv := a.piv ++ [d] }

/-- K = L D Lᵀ in the compiled order. -/
def factorise (b : List Byte) (p : PhaseIn) (k : List Kkt) : Factor :=
  (List.range (kktRows b)).foldl (pivotStep b p) { k := k, piv := [], replaced := 0 }

/-- The solution with K̃ of a right-hand side. -/
def Factor.solve (f : Factor) (b : List Byte) (r : List Nat) : List Nat :=
  evalVec b .solve (kktRows b) (f.k.map (fun e => e.val) ++ f.piv ++ r)

/-- Refinement with at most `n` steps: the solution, and the steps taken. -/
def Factor.refine (f : Factor) (b : List Byte) (r : List Nat) : Nat → List Nat → List Nat × Nat
  | 0, u => (u, 0)
  | n + 1, u =>
    let fx := sdFixed b
    let rho := evalVec b .resid (kktRows b) (f.k.map (fun e => e.val) ++ r ++ u)
    let w := midFrac b .resid 0
    let top := (solVal fx w (infNorm fx r)).max (.fin false 1 0)
    if (solVal fx w (infNorm fx rho)).le (top.mul (.fin false 1 (-(le b 0x1B 1 : Int)))) then (u, 0)
    else
      let du := f.solve b rho
      let x := f.refine b r n ((List.range u.length).map (fun i => (solAdd fx (u.getD i 0) (du.getD i 0)).1))
      (x.1, x.2 + 1)

/-- A solve with K̃, refined where a pivot was replaced or the request asks for it. -/
def Factor.refined (f : Factor) (b : List Byte) (p : PhaseIn) (r : List Nat) : List Nat × Nat :=
  let u := f.solve b r
  if f.replaced = 0 && !p.always then (u, 0) else f.refine b r (sdRefineMax b) u

/-! ## Phases (R433, R434) -/

/-- What a phase computes. -/
structure PhaseOut where
  it : Iterate
  pres : Nat
  dres : Nat
  mu : Nat
  refines : Nat := 0
  pivots : Nat := 0
  sat : Nat := 0
  small : Bool := false

/-- The phase's result with its norms: PRES is max(‖r_e‖∞, ‖r_i‖∞), DRES ‖r_d‖∞ (R435, R444). -/
def phaseOut (b : List Byte) (p : PhaseIn) (it : Iterate) : PhaseOut :=
  let r := residuals b p.data it
  { it := it, pres := infNorm (sdFixed b) (r.e ++ r.i), dres := infNorm (sdFixed b) r.d, mu := r.mu }

/-- The cold start (R433): W = I, right-hand side (−c, b, h), s₀ = max(h − Gx₀, 1), z₀ = 1. -/
def coldStart (b : List Byte) (p : PhaseIn) : PhaseOut :=
  let fx := sdFixed b
  let f := factorise b p (kktOf b p.data ((List.range (sdMI b)).map (fun j => solOne fx (midFrac b .w j))))
  let u := f.refined b p ((dataC b p.data).map (solNeg fx) ++ dataB b p.data ++ dataH b p.data)
  let x := u.1.take (sdN b)
  let g := evalVec b .start (sdMI b) (p.data ++ x)
  let it : Iterate := {
    x := x, y := (u.1.drop (sdN b)).take (sdME b), z := (List.range (sdMI b)).map (fun j => solOne fx (fracZ b j)),
    s := (List.range (sdMI b)).map (fun j => solMax fx (g.getD j 0) (solOne fx (fracS b j))) }
  { phaseOut b p it with refines := u.2, pivots := f.replaced, sat := if fx then Config.factorSat b p.data else 0 }

/-- A step length: min(1, τ × α_max), where α_max is the largest α that keeps s + α ds and z + α dz at 0 or above, and 1 where no element
decreases (R434). The widths of α and of τ are FACTOR's; `v` and `dv` are the elements of s and z and of their directions. -/
def stepLength (b : List Byte) (v dv : List Nat) : Nat × Nat :=
  let fx := sdFixed b
  let f := midFrac b .alpha 0
  let one := solOne fx f
  let ratios := (List.range v.length).filterMap (fun i =>
    let low : Bool := if fx then decide (toS 64 (dv.getD i 0) < 0) else (fp64.dec (dv.getD i 0)).lt (.fin false 0 0)
    let fr := if i < sdMI b then fracS b i else fracZ b (i - sdMI b)
    if low then some (solDiv fx f fr fr (v.getD i 0) (solNeg fx (dv.getD i 0))) else none)
  let top := match ratios with
    | [] => one
    | x :: l => l.foldl (fun m y => if solLe fx m y.1 then m else y.1) x.1
  let tau := if fx then ofS 64 (rneDiv (99 * (two (midFrac b .tau 0) : Int)) 100) else 0x3FEFAE147AE147AE
  let t := solMul fx f (midFrac b .tau 0) f tau top
  (if solLe fx one t.1 then one else t.1, (ratios.map (fun x => x.2)).foldl (· + ·) t.2)

/-- The directions dx, dy, dz of a KKT solution. -/
def dirX (b : List Byte) (u : List Nat) : List Nat := u.take (sdN b)
def dirY (b : List Byte) (u : List Nat) : List Nat := (u.drop (sdN b)).take (sdME b)
def dirZ (b : List Byte) (u : List Nat) : List Nat := (u.drop (sdN b + sdME b)).take (sdMI b)

/-- σ = (μ_aff ÷ μ)³ clamped to 0 to 1; 0 where MI is 0 (R434). -/
def sigmaOf (b : List Byte) (muAff mu : Nat) : Nat :=
  let fx := sdFixed b
  let one := solOne fx (midFrac b .sigma 0)
  let v := Config.factorEval b (Site.sigma.at 0) [muAff, mu] % two 64
  if sdMI b = 0 || solLe fx v 0 then 0 else if solLe fx one v then one else v

/-- One iteration, steps 1 to 7 of R434. -/
def iterate (b : List Byte) (p : PhaseIn) (it : Iterate) : PhaseOut :=
  let fx := sdFixed b
  let mi := sdMI b
  let r := residuals b p.data it
  let w := wOf b it
  let f := factorise b p (kktOf b p.data w.1)
  let re := r.d.map (solNeg fx) ++ r.e.map (solNeg fx)
  let u1 := f.refined b p (re ++ evalVec b .affine mi (r.i ++ it.s ++ it.z))
  let ds1 := evalVec b .step mi (p.data ++ r.i ++ dirX b u1.1)
  let one := solOne fx (midFrac b .alpha 0)
  let a1 := if mi = 0 then (one, 0) else stepLength b (it.s ++ it.z) (ds1 ++ dirZ b u1.1)
  let muAff := if mi = 0 then 0 else Config.factorEval b (Site.muAff.at 0) (it.s ++ ds1 ++ it.z ++ dirZ b u1.1 ++ [a1.1]) % two 64
  let sg := sigmaOf b muAff r.mu
  let u2 := f.refined b p (re ++ evalVec b .correct mi (r.i ++ it.s ++ it.z ++ ds1 ++ dirZ b u1.1 ++ [sg, r.mu]))
  let ds := evalVec b .step mi (p.data ++ r.i ++ dirX b u2.1)
  let a := if mi = 0 then (one, 0) else stepLength b (it.s ++ it.z) (ds ++ dirZ b u2.1)
  let mv := fun (v d : List Nat) => evalVec b .move v.length (v ++ d ++ [a.1])
  let z : Iterate := { x := mv it.x (dirX b u2.1), y := mv it.y (dirY b u2.1), z := mv it.z (dirZ b u2.1), s := mv it.s ds }
  { phaseOut b p z with
    refines := u1.2 + u2.2, pivots := f.replaced, sat := if fx then Config.factorSat b (p.data ++ it.all) + w.2 + a1.2 + a.2 else 0,
    small := decide (mi ≠ 0) && (solVal fx (midFrac b .alpha 0) a.1).lt (.fin false 1 (-30)) }

/-- A phase: setup, from the warm start where there is one, or an iteration (R433, R434). -/
def runPhase (b : List Byte) (p : PhaseIn) (setup warm : Bool) (it : Iterate) : PhaseOut :=
  if !setup then iterate b p it else if warm then phaseOut b p it else coldStart b p

/-- No phase takes more than REFINE_MAX steps for a solve. -/
theorem Factor.refine_le (f : Factor) (b : List Byte) (r : List Nat) : ∀ n u, (f.refine b r n u).2 ≤ n := by
  intro n
  induction n with
  | zero => intro u; simp [Factor.refine]
  | succ n ih =>
    intro u
    simp only [Factor.refine]
    split
    · simp
    · simpa using ih _

end Sys2Proof.Machine
end

