-- ==== Sys2Proof/Machine/SolverOps.lean ====
section
/-! DEFINITION. Machine/SolverOps.lean: the solver engine's phases, results, beam weights and ends of solves (R433 to R445). -/
namespace Sys2Proof.Machine

/-! ## Phases (R426, R435, R442) -/

/-- The phase under way begins: what it computes (R426, R433 to R438), and when it ends. The saturations of assembly, which is part of setup,
are `asm`. -/
def State.beginPhase (s : State) (b : List Byte) (v : Solving) (asm : Nat := 0) : State :=
  let o := runPhase b { data := v.data, eps := v.eps, shift := v.shift, always := bit v.req.flags 2 } (v.phase == 0) v.warm v.it
  let u : Solving := { v with
    it := o.it, pres := o.pres, dres := o.dres, mu := o.mu, phaseRefines := o.refines, phasePivots := o.pivots,
    phaseSat := if sdFixed b then asm + o.sat else 0, small := o.small,
    endAt := v.endAt + (if v.phase = 0 then sdSetup b else sdIter b) + o.refines * sdRefine b }
  s.modSol (fun x => { x with run := some u })

/-- The iterate is converged (R435). -/
def Solving.converged (v : Solving) (b : List Byte) : Bool :=
  let f := sdFixed b
  solLe f v.pres (le b 0x40 8) && solLe f v.dres (le b 0x48 8) && solLe f v.mu (le b 0x50 8)

/-- An element of the iterate is NaN or infinite. -/
def Iterate.bad (i : Iterate) : Bool := (i.x ++ i.y ++ i.z ++ i.s).any (fun v => fp64.special v)

/-! ## Results (R440, R444) -/

def slOPTIMAL : Nat := 0
def slITER_LIMIT : Nat := 1
def slSTALLED : Nat := 2
def slNUMERIC : Nat := 3
def slRANGE : Nat := 4
def slPARAM_RANGE : Nat := 5
def slNOT_FINITE : Nat := 6
def slDEADLINE : Nat := 7
def slQUEUE_FULL : Nat := 8
def slBAD_REQUEST : Nat := 9
def slSTANDBY : Nat := 10
def slNO_PARAMS : Nat := 11
def slFETCH : Nat := 12
def slPOISON : Nat := 13

/-- A result header and its vectors (R444). -/
structure Result where
  status : Nat
  flags : Nat := 0
  iters : Nat := 0
  beam : Nat := 0
  refines : Nat := 0
  pivots : Nat := 0
  start : Nat := 0
  end_ : Nat := 0
  pres : Nat := 0
  dres : Nat := 0
  mu : Nat := 0
  sat : Nat := 0
  vec : List Nat := []

/-- The 64-byte header (R444). -/
def Result.head (r : Result) (tag : Nat) : List Byte :=
  record [(4, 0x4D495352), (1, r.status), (1, r.flags), (1, r.iters), (1, r.beam), (4, tag), (2, min r.refines 65535), (2, min r.pivots 65535),
    (8, r.start), (8, r.end_), (8, r.pres), (8, r.dres), (8, r.mu), (4, r.sat), (3, 0), (1, 1)]

/-- The result of a request is written, vectors first (R444); nothing of a dead request is (R454). -/
def State.putResult (s : State) (q : SolReq) (r : Result) : State :=
  let v := r.vec.flatMap (fun x => toLe 8 x)
  if q.dead then s
  else match q.core with
    | some c => (s.wr .sram (sramAt c (q.resAddr + 64)) v).wr .sram (sramAt c q.resAddr) (r.head q.tag)
    | none => (s.storeData q.tenancy .solve (q.resAddr + 64) v .none).store
        { fn := q.tenancy, kind := .solve, addr := q.resAddr, data := r.head q.tag }

/-- A request leaves the engine's list; the stage of the run that issued it may end (R440, R452). -/
def State.dropReq (s : State) (q : SolReq) : State :=
  (s.modSol (fun x => { x with reqs := x.reqs.filter (fun y => y.id ≠ q.id) })).onlyIf q.core.isSome (fun u => u.stageReady q.run)

/-- FLAGS.MODE of a result: the mode of the schedule that the request names (R444). -/
def State.reqMode (s : State) (q : SolReq) : Nat := sdMode (s.solHandle q.tenancy q.handle).img

/-- A request is refused, with no solve run (R440). -/
def State.solRefuse (s : State) (q : SolReq) (status : Nat) : State :=
  let s := s.onlyIf (decide (64 ≤ q.resLen)) (fun u => u.putResult q { status := status, flags := 8 * u.reqMode q, end_ := u.cnt })
  ((s.bump SOL_REFUSED q.tenancy).raise SOL_INT_STAT_REQ_REFUSED q.tenancy).dropReq q

/-- Counts of an ended solve (R437, R442, R444, R453). -/
def State.solCounts (s : State) (t status : Nat) : State :=
  let s := (s.bump SOL_SOLVES t).raise SOL_INT_STAT_SOLVE_DONE t
  let s := s.onlyIf (status == slOPTIMAL) (fun u => u.bump SOL_OPTIMAL t)
  let s := s.onlyIf (status == slDEADLINE) (fun u => (u.bump SOL_DEADLINE_MISS t).raise SOL_INT_STAT_SOLVE_DEADLINE t)
  let s := s.onlyIf (status == slRANGE || status == slPARAM_RANGE) (fun u => u.raise SOL_INT_STAT_RANGE t)
  s.onlyIf (status == slPOISON) (fun u => u.bump SOL_POISON t)

/-! ## Beam weights (R445) -/

/-- The weight block of a solution (R189, R445). -/
def beamBlock (b : List Byte) (x : List Nat) (beams chans taps first : Nat) : List Byte :=
  let n := beams * chans * taps
  let w := (List.range n).map (fun i =>
    let v := x.getD (first + i) 0
    if sdFixed b then fp32.enc (Fv.fixed (toS 64 v) (fracElem b (first + i))) else fp64.convert fp32 v)
  let d := record [(4, 0x4D494542), (2, 1), (1, beams), (1, chans), (1, taps), (3, 0), (4, 0)] ++ w.flatMap (fun v => toLe 4 v)
  patch d 0xC (toLe 4 (crc32 d))

/-- LPDDR5X address of a tenancy's staging area. -/
def State.stageArea (s : State) (t : Nat) : Nat := s.get SOL_STAGE_LO t * two 12 + s.get SOL_STAGE_HI t * two 32

/-- Weights of a request's bind: B, CHANNELS, and their number. -/
def State.bindShape (s : State) (q : SolReq) : Nat × Nat × Nat :=
  let z := s.slot q.beamSlot
  let b := s.beams q.beamSlot z.trans
  (b, z.par.channels, b * z.par.channels * q.taps)

/-- A solution becomes a bind through the bind path of the FE_ page; answers the bind's code (R190, R445). -/
def State.solveBind (s : State) (q : SolReq) (b : List Byte) (x : List Nat) : State × Nat :=
  let t := q.tenancy
  let sh := s.bindShape q
  let d := beamBlock b x sh.1 sh.2.1 q.taps q.beamFirst
  let a := s.stageArea t
  let s := s.wr .dram a (fit (roundUp d.length 32) d)
  if (Map.find s.binds t).isSome then (s.beamRefuse t beamBUSY, beamBUSY)
  else
    let k : Bind := { slot := q.beamSlot, addr := a, dev := true, tick := q.beamTick, solver := true }
    let s := (s.beginBind t k).beamFetched t k none
    (s, if (Map.find s.binds t).isSome then 0 else s.get FE_BEAM_STAT_CODE t)

/-! ## Ends of solves (R436, R442, R445, R453, R455) -/

/-- The running solve ends (R436, R444, R445): its result carries the last iterate, except where it ended before setup did. -/
def State.endSolve (s : State) (v : Solving) (status : Nat) (conv withVec : Bool) : State :=
  let q := v.req
  let t := q.tenancy
  let h := s.solHandle t q.handle
  let s := s.modSol (fun x => { x with run := none })
  if q.dead then s.dropReq q
  else
    let binds := bit q.flags 1 && status == slOPTIMAL
    let bd := if binds then s.solveBind q h.img v.it.x else (s, 0)
    let s := bd.1.onlyIf (binds && bd.2 != 0) (fun u => u.raise SOL_INT_STAT_BIND_REFUSED t)
    let s := s.onlyIf (status == slOPTIMAL) (fun u => u.modHandle t q.handle (fun y => { y with last := some v.it }))
    let r : Result := {
      status := status, iters := v.phase, beam := bd.2, refines := v.refines, pivots := v.pivots, start := v.start, end_ := s.cnt, sat := v.sat,
      flags := b2n conv + 2 * b2n v.warm + 4 * b2n (binds && bd.2 == 0) + 8 * sdMode h.img,
      pres := if withVec then v.pres else 0, dres := if withVec then v.dres else 0, mu := if withVec then v.mu else 0,
      vec := if withVec then v.it.x ++ v.it.y ++ v.it.z ++ v.it.s else [] }
    ((s.putResult q r).solCounts t status).dropReq q

/-- Correctable words of a handle that a solve reads (R540). -/
def State.solDemand (s : State) (h : SolHandle) : State :=
  s.correct h.holds srSOLVER

/-- The solve reads its handle's store: an uncorrectable word ends it (R453, R543). -/
def State.solRead (s : State) (h : SolHandle) : State × Bool :=
  let bad := s.mem.damage.filter (fun d => h.holds d && 2 ≤ d.kind)
  (bad.foldl (fun u d => u.countUE d { action := acSOLVE_ENDED, source := srSOLVER }) (s.solDemand h), !bad.isEmpty)

/-- The totals and counters of a phase that ends (R423, R437, R438). -/
def State.phaseCounts (s : State) (v : Solving) : State × Solving :=
  let t := v.req.tenancy
  let s := ((s.bump SOL_PIVOTS t 0 v.phasePivots).bump SOL_REFINES t 0 v.phaseRefines).bump SOL_SAT t 0 v.phaseSat
  let s := s.onlyIf (v.phasePivots != 0) (fun u => u.raise SOL_INT_STAT_PIVOT t)
  (s, { v with refines := v.refines + v.phaseRefines, pivots := v.pivots + v.phasePivots, sat := v.sat + v.phaseSat,
               stalls := if v.phase != 0 && v.small then v.stalls + 1 else 0 })

/-- The end of setup or of an iteration (R436). -/
def State.phaseEnd (s : State) (v : Solving) : State :=
  let s := s.reach v.endAt
  let q := v.req
  let h := s.solHandle q.tenancy q.handle
  let b := h.img
  if q.dead then (s.modSol (fun x => { x with run := none })).dropReq q
  else
    let r := s.solRead h
    if r.2 then r.1.endSolve v slPOISON false false
    else
      let c := r.1.phaseCounts v
      let v := c.2
      let s := c.1
      let conv := v.converged b
      if !sdFixed b && v.it.bad then s.endSolve v slNUMERIC conv true
      else if sdFixed b && v.phaseSat != 0 then s.endSolve v slRANGE conv true
      else if conv && v.endAt < q.deadline then s.endSolve v slOPTIMAL true true
      else if q.deadline ≤ v.endAt then s.endSolve v slDEADLINE conv true
      else if 3 ≤ v.stalls then s.endSolve v slSTALLED false true
      else if sdIterMax b ≤ v.phase then s.endSolve v slITER_LIMIT false true
      else s.beginPhase b { v with phase := v.phase + 1, prev := v.it, prevRes := (v.pres, v.dres, v.mu) }

end Sys2Proof.Machine
end

