-- ==== Sys2Proof/Machine/Solver.lean ====
section
/-! DEFINITION. Machine/Solver.lean: the commands of the solver engine (R427 to R457). -/
namespace Sys2Proof.Machine

/-! ## Page commands (R427, R428, R430, R670, R757) -/

def scBAD_FORMAT : Nat := 1
def scLIMITS : Nat := 2
def scSTORE : Nat := 3
def scHANDLE_BUSY : Nat := 4
def scNOT_LOADED : Nat := 5
def scIN_USE : Nat := 6
def scPARAM_FORMAT : Nat := 7
def scBAD_TICK : Nat := 8
def scBUSY : Nat := 9
def scFETCH : Nat := 10

/-- A command is refused, begins, ends. -/
def State.scRefuse (s : State) (t code : Nat) : State := (s.set SOL_CMD_STAT_CODE code t).raise SOL_INT_STAT_CMD_REFUSED t
def State.scBegin (s : State) (t : Nat) (c : SolCmd) : State :=
  ((s.set SOL_CMD_STAT_STATE 1 t).set SOL_STAT_CMD_BUSY 1 t).modSol (fun x => { x with cmds := Map.put t c x.cmds })
def State.scClear (s : State) (t st : Nat) : State :=
  ((s.set SOL_CMD_STAT_STATE st t).set SOL_STAT_CMD_BUSY 0 t).modSol (fun x => { x with cmds := Map.del t x.cmds })
def State.scDone (s : State) (t st : Nat) : State := ((s.scClear t st).set SOL_CMD_STAT_CODE 0 t).raise SOL_INT_STAT_CMD_DONE t

/-- A command is in progress, or the engine's stores are not up (R670). -/
def State.scBusy (s : State) (t : Nat) : Bool := (Map.find s.sol.cmds t).isSome || !s.cdReady

/-- SOL_CMD.LOAD (R427). -/
def State.solLoad (s : State) (t : Nat) : State :=
  let h := s.get SOL_HANDLE_SEL t
  let a := s.get SOL_IMG_ADDR_LO t + two 32 * s.get SOL_IMG_ADDR_HI t
  if s.scBusy t then s.scRefuse t scBUSY
  else if a % 64 ≠ 0 then s.scRefuse t scBAD_FORMAT
  else if (s.solHandle t h).units ≠ 0 then s.scRefuse t scHANDLE_BUSY
  else s.scBegin t { kind := 0, handle := h, addr := a, len := s.get SOL_IMG_LEN t, tick := 0 }

/-- SOL_LOAD (R427). -/
def execSolLoad (dt : Nat) (p : Party) (t : Fin 64) (s : State) : Out :=
  s.done ((s.elapse dt).access p .sol t .page (fun u => u.solLoad t))

/-- A request that has been read, or the running solve, names a handle. -/
def State.solNamed (s : State) (t h : Nat) : Bool :=
  s.sol.reqs.any (fun q => q.tenancy == t && q.read && !q.full && q.handle == h) ||
  s.sol.run.any (fun v => v.req.tenancy == t && v.req.handle == h)

/-- SOL_CMD.UNLOAD (R428). -/
def State.solUnload (s : State) (t : Nat) : State :=
  let h := s.get SOL_HANDLE_SEL t
  if s.scBusy t then s.scRefuse t scBUSY
  else if (s.solHandle t h).units = 0 then s.scRefuse t scNOT_LOADED
  else if s.solNamed t h then s.scRefuse t scIN_USE
  else (s.modSol (fun x => { x with handles := Map.del (4 * t + h) x.handles })).scDone t 0

/-- SOL_UNLOAD (R428). -/
def execSolUnload (dt : Nat) (p : Party) (t : Fin 64) (s : State) : Out :=
  s.done ((s.elapse dt).access p .sol t .page (fun u => u.solUnload t))

/-- SOL_CMD.PARAM (R430). -/
def State.solParam (s : State) (t : Nat) : State :=
  let h := s.get SOL_HANDLE_SEL t
  let a := s.get SOL_PARAM_ADDR_LO t + two 32 * s.get SOL_PARAM_ADDR_HI t
  if s.scBusy t || (s.solHandle t h).due.isSome then s.scRefuse t scBUSY
  else if (s.solHandle t h).units = 0 then s.scRefuse t scNOT_LOADED
  else if a % 64 ≠ 0 then s.scRefuse t scPARAM_FORMAT
  else s.scBegin t { kind := 2, handle := h, addr := a, len := 0, tick := s.get2 SOL_PARAM_TICK_LO SOL_PARAM_TICK_HI t }

/-- SOL_PARAM (R430). -/
def execSolParam (dt : Nat) (p : Party) (t : Fin 64) (s : State) : Out :=
  s.done ((s.elapse dt).access p .sol t .page (fun u => u.solParam t))

/-- The first refusal a fetched schedule meets; 0 for none (R427). -/
def State.loadCode (s : State) (t : Nat) (c : SolCmd) (b : List Byte) : Nat :=
  if sdHeadBad b c.len then scBAD_FORMAT
  else if sdLimits b then scLIMITS
  else if sdBodyBad b then scBAD_FORMAT
  else if s.get SOL_STORE_QUOTA t < s.solUsed t + sdStore b / 65536 || s.solFree < sdStore b / 65536 then scSTORE
  else if (s.solHandle t c.handle).units ≠ 0 then scHANDLE_BUSY
  else 0

/-- A handle's units are zeroed with valid check bits when they are allocated (R420, R546). -/
def State.zeroUnits (s : State) (base n : Nat) : State :=
  let s := s.setDamage (s.mem.damage.filter (fun d => !(d.store == 3 && inSpan d.addr (65536 * base) (65536 * n))))
  if !s.flag MEM_INJECT_ARM || s.get MEM_INJECT_STORE != 3 then s
  else
    let d := s.draw
    let x : Damage := { store := 3, unit := 0, addr := 65536 * base, kind := if s.flag MEM_INJECT_KIND then 2 else 1, bit := Config.flippedBit d.1 % 64 }
    (d.2.set MEM_INJECT_ARM 0).setDamage (d.2.mem.damage ++ [x])

/-- A schedule load ends (R427). -/
def State.solLoaded (s : State) (t : Nat) (c : SolCmd) (img : Option (List Byte)) : State :=
  match img with
  | none => (s.scClear t 0).scRefuse t scFETCH
  | some b =>
    let b := fit c.len b
    let code := s.loadCode t c b
    if code ≠ 0 then (s.scClear t 0).scRefuse t code
    else
      let n := sdStore b / 65536
      let base := s.solPlace n
      ((s.zeroUnits base n).modHandle t c.handle (fun _ => { img := b, base := base, units := n })).scDone t 0

/-- SOL_LOAD_DONE (R427): nothing happens where no schedule is being fetched. -/
def execSolLoadDone (dt : Nat) (t : Fin 64) (img : Option (List Byte)) (s : State) : Out :=
  let u := s.elapse dt
  s.done (match Map.find u.sol.cmds t with
    | some c => if c.kind = 0 && u.mayRequest t then u.solLoaded t c img else u
    | none => u)

/-- A parameter block is not of the handle's schedule, or a value is not allowed: PARAM_FORMAT (R429, R430). -/
def paramBad (b d : List Byte) : Bool :=
  let n := sdParams b
  le d 0 4 != 0x4D495350 || le d 4 2 != 1 || le d 6 1 != sdMode b || le d 8 4 != n || le d 0xC 4 != le b 0x14 4 ||
  !crcOk (fit (32 + 8 * n) d) 0x10 || le d 7 1 != 0 || (slice d 0x14 12).any (fun x => x != 0) ||
  (List.range n).any (fun i => inputBad b i (le d (32 + 8 * i) 8))

/-- A parameter block check ends (R430). -/
def State.solChecked (s : State) (t : Nat) (c : SolCmd) (blk : Option (List Byte)) : State :=
  let h := s.solHandle t c.handle
  match blk with
  | none => (s.scClear t 0).scRefuse t scFETCH
  | some d =>
    if h.units = 0 then (s.scClear t 0).scRefuse t scNOT_LOADED
    else if paramBad h.img d then (s.scClear t 0).scRefuse t scPARAM_FORMAT
    else if c.tick ≠ 0 && s.tickAt c.tick ≤ s.cnt then (s.scClear t 0).scRefuse t scBAD_TICK
    else
      let v := words64 d 32 (sdParams h.img)
      let at_ := if c.tick = 0 then s.nextTick else c.tick
      (s.modHandle t c.handle (fun x =>
        if x.cur = some 0 then { x with bank1 := v, due := some at_ } else { x with bank0 := v, due := some at_ })).scDone t 3

/-- SOL_PARAM_CHECKED (R430): nothing happens where no block is being checked. -/
def execSolParamChecked (dt : Nat) (t : Fin 64) (blk : Option (List Byte)) (s : State) : Out :=
  let u := s.elapse dt
  s.done (match Map.find u.sol.cmds t with
    | some c => if c.kind = 2 && u.mayRequest t then u.solChecked t c blk else u
    | none => u)

/-- A checked bank becomes current at its tick, and the last solution is discarded (R430, R433, R448); a bank whose tick a step has passed over
is dropped with BAD_TICK (R44). -/
def State.paramDue (m : Nat) (s : State) (e : Nat × SolHandle) : State :=
  match e.2.due with
  | some d =>
    if d ≤ m then
      let t := e.1 / 4
      let h := if d = m then { e.2 with cur := some (if e.2.cur = some 0 then 1 else 0), due := none, last := none } else { e.2 with due := none }
      let s := s.modSol (fun x => { x with handles := Map.put e.1 h x.handles })
      let s := s.onlyIf (s.get SOL_CMD_STAT_STATE t == 3 && !s.sol.handles.any (fun y => y.1 / 4 == t && y.2.due.isSome))
        (fun u => u.set SOL_CMD_STAT_STATE 0 t)
      s.onlyIf (d ≠ m) (fun u => u.scRefuse t scBAD_TICK)
    else s
  | none => s
def State.solBoundary (s : State) (m : Nat) : State := s.sol.handles.foldl (State.paramDue m) s

/-- A store quota is pending for the boundary, or ignored where the sum would exceed 240 units (R457). -/
def State.storeQuota (s : State) (p : Party) (t v : Nat) : State :=
  let others := (((List.range 64).filter (fun u => u ≠ t)).map (fun u => s.shown SOL_STORE_QUOTA u)).foldl (· + ·) 0
  if 240 < others + v % 256 then s.raise SOL_INT_STAT_CMD_REFUSED 0 else s.pendWrite p SOL_STORE_QUOTA v t

/-- SOL_STORE_QUOTA_WRITE (R457). -/
def execSolStoreQuotaWrite (dt : Nat) (p : Party) (t : Fin 64) (value : Nat) (s : State) : Out :=
  s.done ((s.elapse dt).access p .sol t .fn0 (fun u => u.storeQuota p t value) (some (0x140, value)))

/-! ## Requests (R439 to R441) -/

/-- Requests of a tenancy that have arrived and not ended (R440). -/
def State.solHeld (s : State) (t : Nat) : Nat :=
  (s.sol.reqs.filter (fun q => q.tenancy == t && !q.full)).length + b2n (s.sol.run.any (fun v => v.req.tenancy == t))

/-- A request joins the list. -/
def State.addReq (s : State) (q : SolReq) : State :=
  s.modSol (fun x => { x with reqs := x.reqs ++ [{ q with id := x.nextReq }], nextReq := x.nextReq + 1 })

/-- SOL_REQ_CMD.SUBMIT (R440, R757). -/
def State.solArrive (s : State) (t : Nat) : State :=
  let a := s.get SOL_REQ_ADDR_LO t + two 32 * s.get SOL_REQ_ADDR_HI t
  if a % 64 ≠ 0 then (s.bump SOL_REFUSED t).raise SOL_INT_STAT_REQ_REFUSED t
  else s.addReq { id := 0, tenancy := t, addr := a, arrived := s.cnt, full := decide (8 ≤ s.solHeld t) }

/-- SOL_SUBMIT (R440). -/
def execSolSubmit (dt : Nat) (p : Party) (t : Fin 64) (s : State) : Out :=
  s.done ((s.elapse dt).access p .sol t .page (fun u => u.solArrive t))

/-- The fields of a request (R439). -/
def SolReq.fill (q : SolReq) (d : List Byte) (now : Nat) : SolReq :=
  { q with read := true, readAt := now, handle := le d 0 1, flags := le d 1 1, taps := le d 2 1, tag := le d 4 4, deadline := le d 8 8,
           measAddr := le d 0x10 8, resAddr := le d 0x18 8, resLen := le d 0x20 4, beamSlot := le d 0x24 2, beamFirst := le d 0x26 2,
           beamTick := le d 0x28 8 }

/-- BAD_REQUEST (R440), and every host request of a stopped tenancy (R582). -/
def State.reqBad (s : State) (q : SolReq) (d : List Byte) : Bool :=
  let h := s.solHandle q.tenancy q.handle
  let sh := s.bindShape q
  (q.core.isNone && s.flag LEDT_STAT_STOPPED q.tenancy) || 3 < q.handle || h.units == 0 || q.deadline == 0 || 8 ≤ q.flags || le d 3 1 != 0 || (slice d 0x30 16).any (fun x => x != 0) ||
  q.resAddr % 64 != 0 || q.resLen < 64 + 8 * sdElems h.img ||
  (bit q.flags 1 && (q.taps == 0 || 16 < q.taps || 8192 ≤ q.beamSlot || sdN h.img < q.beamFirst + sh.2.2))

/-- Slots that hold an instant of tick m from `a` to `b`; slot 0 of the next tick too, where `b` is its start (R441). -/
def State.slotsFrom (s : State) (m a b : Nat) : List Nat :=
  (List.range 64).filter (fun j => (a < s.slotAt m (j + 1) && s.slotAt m j ≤ b) || (j == 0 && b == s.tickAt (m + 1)))

/-- A request may start now (R441). -/
def State.solAdmits (s : State) (q : SolReq) : Bool :=
  let m := s.tt.tick
  let w := sdWorst (s.solHandle q.tenancy q.handle).img
  s.sol.run.isNone && s.running && !s.standby && !s.fatal && s.tickAt m + s.get SOL_GOV_NS ≤ s.cnt && s.cnt + w ≤ s.tickAt (m + 1) &&
  s.tt.active.any (fun g => g.mode == 1 || (s.slotsFrom m s.cnt (s.cnt + w)).all (fun j => g.ownerOf 0 j == q.tenancy))

/-- A request has been read (R440, R441). -/
def State.reqRead (s : State) (q : SolReq) (d : List Byte) : State :=
  let x := q.fill d s.cnt
  if x.resLen < 64 then s.solRefuse x slBAD_REQUEST
  else if x.full then s.solRefuse x slQUEUE_FULL
  else if s.reqBad x d then s.solRefuse x slBAD_REQUEST
  else
    let s := s.modSol (fun y => { y with reqs := y.reqs.map (fun z => if z.id = x.id then x else z) })
    s.onlyIf (!s.solAdmits x) (fun u => u.bump SOL_WAITS x.tenancy)

/-- SOLVE_REQUEST_READ (R440): the oldest host request of a tenancy that has not been read; nothing happens where there is none. -/
def execSolveRequestRead (dt : Nat) (t : Fin 64) (req : Option (List Byte)) (s : State) : Out :=
  let u := s.elapse dt
  s.done (match u.sol.reqs.find? (fun q => q.tenancy == t.val && !q.read && q.core.isNone) with
    | none => u
    | some q =>
      if q.dead then u.dropReq q
      else if !u.mayRequest t then u
      else match req with
        | none => ((u.bump SOL_REFUSED t).raise SOL_INT_STAT_REQ_REFUSED t).dropReq q
        | some d => u.reqRead q (fit 64 d))

/-- A SOLVE instruction of a run on a core (R440). -/
def State.solveOn (s : State) (r : Run) (m : Image) (core a : Nat) : State :=
  if !m.holds core a 64 then s.coreFault r core cfACCESS
  else
    let s := s.runReads r.id core core a 64
    let d := s.rdBytes .sram (sramAt core a) 64
    let t := r.rcd.tenancy
    let q : SolReq := { id := s.sol.nextReq, tenancy := t, core := some core, run := r.id, addr := a, arrived := s.cnt, full := decide (8 ≤ s.solHeld t) }
    let x := q.fill d s.cnt
    let n := 8 * sdMeas (s.solHandle t x.handle).img
    if (s.onRun r.id core).isNone then s
    else if !m.holds core x.resAddr x.resLen || !m.holds core x.measAddr n then s.coreFault r core cfACCESS
    else (s.addReq q).reqRead q d

/-- SOLVE (R440). -/
def execSolve (dt : Nat) (core : Fin 64) (i : Ins) (s : State) : Out :=
  s.done ((s.elapse dt).onCore core 0x25 i (fun _ => oneOperand i 1) (fun u r m => (u.spend r core (openCycles dt)).solveOn r m core i.a))

/-! ## Solves (R432, R433, R441) -/

/-- The order of R441 and R449. -/
def SolReq.before (a b : SolReq) : Bool :=
  a.deadline < b.deadline || (a.deadline == b.deadline && (a.arrived < b.arrived || (a.arrived == b.arrived && (a.readAt < b.readAt ||
    (a.readAt == b.readAt && a.id < b.id)))))

/-- The request that starts next, if one can. -/
def State.nextSolve (s : State) : Option SolReq :=
  (s.sol.reqs.filter (fun q => q.read && !q.full && !q.dead && s.cnt < q.deadline && s.solAdmits q && (q.core.isSome || s.mayRequest q.tenancy))).foldl (fun (m : Option SolReq) q =>
    match m with
    | none => some q
    | some x => if q.before x then some q else some x) none

/-- The measurement vector of a request (R431). -/
def State.measOf (s : State) (q : SolReq) (n : Nat) (meas : Option (List Byte)) : Option (List Nat) :=
  match q.core with
  | some c => some (words64 (s.rdBytes .sram (sramAt c q.measAddr) (8 * n)) 0 n)
  | none => if n = 0 then some [] else meas.map (fun d => words64 d 0 n)

/-- Raise an element to at least 2⁻¹⁰ (R433). -/
def warmFloor (b : List Byte) (first i v : Nat) : Nat :=
  if sdFixed b then
    let f := fracElem b (first + i)
    let lo : Int := rshift (two f : Int) 10
    if toS 64 v < lo then ofS 64 lo else v
  else if (fp64.dec v).lt (.fin false 1 (-10)) then fp64.enc (.fin false 1 (-10)) else v

/-- The warm start of a solution (R433). -/
def warmStart (b : List Byte) (i : Iterate) : Iterate :=
  let z := sdN b + sdME b
  { i with z := (List.range i.z.length).map (fun k => warmFloor b z k (i.z.getD k 0)),
           s := (List.range i.s.length).map (fun k => warmFloor b (z + sdMI b) k (i.s.getD k 0)) }

/-- A solve starts: its checks, assembly, and setup (R432, R433, R440, R445, R453). -/
def State.startSolve (s : State) (q : SolReq) (meas : Option (List Byte)) : State :=
  let t := q.tenancy
  let h := s.solHandle t q.handle
  let b := h.img
  let stage := bit q.flags 1 && !s.inWindow t (s.stageArea t) (roundUp (0x10 + 4 * (s.bindShape q).2.2) 32)
  if 0 < sdParams b && h.cur.isNone then s.solRefuse q slNO_PARAMS
  else if stage then s.solRefuse q slBAD_REQUEST
  else match s.measOf q (sdMeas b) meas with
    | none => s.solRefuse q slFETCH
    | some m =>
      let r := s.solRead h
      let s := r.1.modSol (fun x => { x with reqs := x.reqs.filter (fun y => y.id ≠ q.id) })
      let v : Solving := { req := q, start := s.cnt, endAt := s.cnt }
      if r.2 then s.endSolve v slPOISON false false
      else if (List.range (sdMeas b)).any (fun i => inputBad b (sdParams b + i) (m.getD i 0)) then
        s.endSolve v (if sdFixed b then slPARAM_RANGE else slNOT_FINITE) false false
      else
        let a := assemble b h.bank m
        let warm := bit q.flags 0 && h.last.isSome
        let it := if warm then warmStart b (h.last.getD {}) else {}
        s.beginPhase b { v with data := a.1, warm := warm, it := it, eps := s.get SOL_PIVOT_EPS_EPS_EXP t, shift := s.get SOL_PIVOT_EPS_SHIFT_EXP t } a.2

/-- SOLVE_START (R441): nothing happens where no request can start. -/
def execSolveStart (dt : Nat) (meas : Option (List Byte)) (s : State) : Out :=
  let u := s.elapse dt
  s.done (match u.nextSolve with
    | some q => u.startSolve q meas
    | none => u)

/-- A request ends at its DEADLINE without a solve (R441, R444). -/
def State.expire (s : State) (q : SolReq) : State :=
  let s := s.reach q.deadline
  ((s.putResult q { status := slDEADLINE, flags := 8 * s.reqMode q, end_ := s.cnt }).solCounts q.tenancy slDEADLINE).dropReq q

/-- SOLVE_DEADLINE_EXPIRY (R441): nothing happens where the request has started or ended. -/
def execSolveDeadlineExpiry (t : Fin 64) (req : Nat) (s : State) : Out :=
  s.done (match s.sol.reqs.find? (fun q => q.tenancy == t.val && q.id == req && q.read && !q.full) with
    | some q => s.expire q
    | none => s)

/-- SOLVE_PHASE_END (R436): nothing happens where no solve runs. -/
def execSolvePhaseEnd (s : State) : Out :=
  s.done (match s.sol.run with
    | some v => s.phaseEnd v
    | none => s)

/-- A solve cut short within a phase: it stands as the last phase that has ended left it. -/
def Solving.cutShort (v : Solving) : Solving :=
  if v.phase = 0 then v else { v with it := v.prev, pres := v.prevRes.1, dres := v.prevRes.2.1, mu := v.prevRes.2.2, phase := v.phase - 1 }

/-- STANDBY entry ends every user request (R455): a running solve returns its last iterate. -/
def State.solStandby (s : State) : State :=
  let s := match s.sol.run with
    | some v => s.endSolve v.cutShort slSTANDBY (v.phase != 0 && v.cutShort.converged (s.solHandle v.req.tenancy v.req.handle).img) (v.phase != 0)
    | none => s
  s.sol.reqs.foldl (fun (u : State) q =>
    if q.read && !q.dead then (u.putResult q { status := slSTANDBY, flags := 8 * u.reqMode q, end_ := u.cnt }).dropReq q else u.dropReq q) s

/-- A function-level reset of the tenancy's function (R454): pending requests end, a running solve will write nothing. -/
def State.solReset (s : State) (t : Nat) : State :=
  let gone := s.sol.reqs.filter (fun q => q.tenancy == t)
  let s := gone.foldl (fun (u : State) q => u.dropReq q) s
  s.modSol (fun x => { x with run := x.run.map (fun v => if v.req.tenancy = t then
      let q := { v.req with dead := true }
      { v with req := q } else v) })

end Sys2Proof.Machine
end

