-- ==== Sys2Proof/Machine/Power.lean ====
section
/-! DEFINITION. Machine/Power.lean: power modes, entry to and exit from STANDBY, the governor, its forecasts and the limiter
(12_power_and_governor.md; R115, R124, R499 for STANDBY). -/
namespace Sys2Proof.Machine

/-! ## Mode requests (R504, R505, R511) -/

/-- Modes of PWR_MODE_REQ. -/
def pmSIDING : Nat := 2
def pmSTANDBY : Nat := 3
def pmOFF : Nat := 4

/-- Change the power state beyond the registers. -/
def State.modPwr (s : State) (f : Pwr → Pwr) : State := { s with pwr := f s.pwr }

/-- The lowest lane of a mask, as a mask. -/
def lowestLane (lanes : Nat) : Nat := ((maskList lanes 4).head?.map two).getD 0

/-- Ports in service change their lanes and their rate (R490, R499). -/
def State.linkWidth (s : State) (lanes : Nat → Nat) (rate : Nat) : State :=
  (List.range 8).foldl (fun (u : State) p =>
    u.onlyIf (u.blState p == ptIN_SERVICE) (fun v => (v.setLanes p (lanes p)).set BL_PORT_STAT_RATE rate p)) s
def State.narrowLinks (s : State) : State := s.linkWidth (fun p => lowestLane (s.lanesAllowed p 15)) 2
def State.widenLinks (s : State) : State := s.linkWidth (fun p => s.lanesAllowed p 15) 4

/-- The pending request is gone; links that were waking go back to one lane (R504, R510). -/
def State.clearMode (s : State) : State :=
  let s := s.onlyIf (s.flag PWRG_STAT_WAKING && s.standby) (fun u => (u.set PWRG_STAT_WAKING 0).narrowLinks)
  let s := ((s.setGen PWRG_STAT_PENDING 0).setGen PWRG_STAT_PENDING_MODE 0).set PWRG_STAT_WAIT_REASON 0
  s.modPwr (fun p => { p with req := none, widen := none })

/-- A request is refused (R504). -/
def State.refuseMode (s : State) : State := (s.bump PWR_MODE_REFUSED).raise PWRG_INT_STAT_MODE_REFUSED

/-- A request for mode `v` from tick `at_` on (R504): the host may not ask for OFF, nor for anything while HOST_LOCK is 1. -/
def State.requestMode (s : State) (sb : Bool) (v at_ : Nat) : State :=
  if 4 < v || (!sb && (v == pmOFF || s.flag PWRG_CTL_HOST_LOCK)) then s.refuseMode
  else
    let had := s.pwr.req.isSome
    let s := ((s.clearMode).set PWR_MODE_REQ v).set PWRG_STAT_REQ_SOURCE (b2n sb)
    if v = s.get PWRG_STAT_MODE then s
    else
      let s := s.onlyIf had (fun u => u.raise PWRG_INT_STAT_MODE_OVERRIDDEN)
      let s := (s.setGen PWRG_STAT_PENDING 1).setGen PWRG_STAT_PENDING_MODE v
      s.modPwr (fun p => { p with req := some { mode := v, at_ := at_, sb := sb, seen := s.cnt } })

/-- MODE_REQUEST (R504). -/
def execModeRequest (dt : Nat) (p : Party) (value : Nat) (s : State) : Out :=
  s.done ((s.elapse dt).access p .pwrg 0 .page (fun u => u.requestMode (decide (p = .sb)) (value % 8) (u.get2 PWR_MODE_AT_LO PWR_MODE_AT_HI)))

/-! ## STANDBY (R115, R124, R245, R455, R509, R510) -/

/-- The first chunk of the stream that has not run (R148). -/
def Slot.firstUnrun (q : Slot) : Nat := ((q.chunks.find? (fun c => c.status.isNone)).map (fun c => c.k)).getD q.next

/-- Every chunk that is complete, or has joined a tick, is completed with PARKED (R115). -/
def State.parkChunks (s : State) (i : Nat) : State := s.endChunks i stPARKED (fun c => c.joined.isSome || c.complete.isSome) false

/-- A LISTEN or TRANSCRIBE stream is parked at STANDBY entry; its audio stops (R115). -/
def State.standbyPark (s : State) (i m : Nat) : State :=
  let first := (s.slot i).firstUnrun
  let s := (s.parkChunks i).pass i .parked .ring
  let s := s.modSlot i (fun q =>
    let a := { q.audio with active := false, feats := [] }
    { q with held := false, wake := none, promoteAt := none, catchup := none, demoteNext := false, faultDue := none, audio := a })
  (s.event i 5 m 0 1 first).onlyIf (s.slot i).demoting (fun u => u.demoteEnd i)

/-- A drain ends at STANDBY entry: each chunk up to the final one that is not completed ends PARKED (R124). -/
def State.standbyDrain (s : State) (i m : Nat) : State :=
  let f := (s.slot i).finalChunk.getD 0
  let s := (s.ensure i f).endChunks i stPARKED (fun c => c.k ≤ f) false
  (s.modSlot i (fun q => { q with drained := true })).endDrain i m

/-- A slot that is PARKED at STANDBY entry: the chunks that an EXPORT still waits for end, so that its image is written (R124, R293), and a
port-fed stream's samples are no longer produced (R115, R197). -/
def State.standbyParked (s : State) (i : Nat) : State :=
  let s := s.onlyIf (s.slot i).exp.isSome (fun u => u.parkChunks i)
  s.modAudio i (fun a => { a with active := false, feats := [] })

/-- An IMPORT at STANDBY entry: one still fetching or loading is refused with LATE; one whose state is loaded parks (R113, R124). -/
def State.standbyImport (s : State) (i m : Nat) (x : Import) : State :=
  if !x.loaded then s.refuseImport i cLATE x
  else
    let s := ((s.modSlot i (fun q => { q with imp := none })).pass i .parked .ring).standbyParked i
    let s := s.writeBack x.ring x.idx 1 s.cnt (s.slot i).epoch 0 x.irq
    s.event i 5 m 0 1 (s.slot i).firstUnrun

/-- One slot meets STANDBY entry (R115, R124). -/
def State.standbySlot (m : Nat) (s : State) (i : Nat) : State :=
  match (s.slot i).state, (s.slot i).imp with
  | _, some x => s.standbyImport i m x
  | .listen, none | .transcribe, none => s.standbyPark i m
  | .draining, none => s.standbyDrain i m
  | .parked, none => s.standbyParked i
  | .free, none | .admitted, none | .faulted, none => s

/-- STANDBY is entered at the boundary of tick m (R509 steps 1 and 2); suspended runs go on at once. -/
def State.enterStandby (s : State) (m : Nat) : State :=
  let s := s.set PWRG_STAT_ENTERING 1
  let s := (s.slots.map (fun e => e.1)).foldl (State.standbySlot m) s
  s.portsStandby.solStandby

/-- After STANDBY a port-fed stream that is PARKED records again, from the first sample of the tick on (R107, R197). -/
def State.standbyReels (s : State) (m : Nat) : State :=
  (s.slots.map (fun e => e.1)).foldl (fun (u : State) i =>
    let n := m * u.perTick
    u.modSlot i (fun q =>
      let a := { q.audio with active := true, next := max n q.audio.next, phi := q.audio.phi + (q.audio.rho : Int) * (n - q.audio.next : Nat), gapTo := 0 }
      if q.state == .parked && q.par.portFed then { q with audio := a } else q)) s

/-- A mode comes into force at the boundary of tick m (R504, R505, R508). -/
def State.takeMode (s : State) (v m : Nat) : State :=
  let was := s.standby
  let s := s.clearMode
  let s := (((s.setGen PWRG_STAT_MODE v).bump PWR_MODE_CHANGES).raise PWRG_INT_STAT_MODE_CHANGED).notify 2 [BitVec.ofNat 8 v]
  let s := s.onlyIf was (fun u => ((u.set PWRG_STAT_WAKING 0).set PWRG_STAT_ENTERING 0).standbyReels m)
  s.onlyIf (v == pmSTANDBY) (fun u => u.enterStandby m)

/-- STANDBY exit begins: every core's SRAM is read and rewritten once, and the links come back (R510). -/
def State.beginWaking (s : State) : State :=
  ((List.range 64).foldl State.returnPass (s.set PWRG_STAT_WAKING 1)).widenLinks

/-- The first condition of R506 that fails: 1 to 3; 0 for none. -/
def State.sidingWait (s : State) : Nat :=
  if s.slots.any (fun e => e.2.state == .transcribe || e.2.state == .draining) then 1
  else if s.runs.any (fun r => r.rcd.lane == 0) then 2
  else if s.slots.any (fun e => e.2.chunks.any (fun c => c.trans && c.complete.isSome && c.status.isNone &&
      (match c.stage with
        | .waiting | .eligible _ => true
        | .running _ _ | .committing | .settled => false))) then 3
  else 0

/-- The signal box signals the board that the rails may go (R511). -/
def State.signalOff (s : State) : State := { s.modPwr (fun p => { p with off := false }) with pkg := { s.pkg with offReq := true } }

/-- The pending request meets the boundary of tick m (R505, R506, R509 to R511): a widening begins one boundary before it takes
effect, a STANDBY exit two. -/
def State.modeBoundary (s : State) (m : Nat) : State :=
  match s.pwr.req, s.pwr.widen with
  | none, _ => s
  | some _, some w => if w.2 ≤ m then s.takeMode w.1 m else s
  | some r, none =>
    let cur := s.get PWRG_STAT_MODE
    let tgt := min r.mode pmSTANDBY
    if s.tickAt m ≤ r.seen then s
    else if cur = pmSTANDBY && tgt = pmSTANDBY then
      (if m < r.at_ then s
       else
        let u := s.clearMode
        if u.flag PWRG_STAT_ENTERING then u.modPwr (fun p => { p with off := true }) else u.signalOff)
    else if cur = pmSTANDBY then
      (if m + 2 < r.at_ || s.flag PWRG_STAT_ENTERING then s else (s.modPwr (fun p => { p with widen := some (tgt, m + 2) })).beginWaking)
    else if tgt < cur then (if m + 1 < r.at_ then s else s.modPwr (fun p => { p with widen := some (tgt, m + 1) }))
    else if m < r.at_ then s
    else if tgt = pmSIDING && s.sidingWait ≠ 0 then s.set PWRG_STAT_WAIT_REASON s.sidingWait
    else
      let off := r.mode == pmOFF
      (s.takeMode tgt m).modPwr (fun p => { p with off := off })

/-- STANDBY_READY (R509, R511): nothing happens until every run has ended, every image is written and every store has been issued. -/
def execStandbyReady (dt : Nat) (s : State) : Out :=
  let t := s.elapse dt
  s.done (if t.standby && t.flag PWRG_STAT_ENTERING && t.runs.isEmpty && t.slots.all (fun e => e.2.exp.isNone) && t.stores.isEmpty then
      let u := ((t.set PWRG_STAT_ENTERING 0).narrowLinks).raise PWRG_INT_STAT_STANDBY_READY
      u.onlyIf u.pwr.off State.signalOff
    else t)

/-! ## The governor's program (R513 to R518) -/

/-- The sum of a list. -/
def sum (l : List Nat) : Nat := l.foldl (· + ·) 0

/-- Y: core cycles in a tick (R514). -/
def State.tickCycles (s : State) : Nat := s.periodNs * 6 / 5

/-- The image active at the boundary of tick n, as it stands now (R514). -/
def State.imageFor (s : State) (n : Nat) : Option TtImage :=
  match s.tt.pend with
  | some q => if q.img.isSome && q.at_ ≤ n then q.img else s.tt.active
  | none => s.tt.active

/-- The main-lane runs placed in tick n, in slot order (R54, R514). -/
def State.runsOf (s : State) (n : Nat) : List RunRec :=
  if !s.running then []
  else match s.imageFor n with
    | some g => (List.range 64).flatMap (fun j => g.runsAt n 0 j)
    | none => []

/-- BUDGET not yet executed of the runs suspended on core c (R514). -/
def State.remainder (s : State) (c : Nat) : Nat :=
  sum ((s.runs.filter (fun r => r.suspended && r.rcd.lane == 0 && bit r.rcd.coreMask c)).map (fun r => r.rcd.budget - Map.get r.cycles c 0))

/-- A pending mode request takes core c out of service by the boundary of tick n (R505, R506). -/
def State.leavesBy (s : State) (n c : Nat) : Bool :=
  s.pwr.req.any (fun r => r.at_ ≤ n && (pmSTANDBY ≤ r.mode || (r.mode == pmSIDING && s.sidingWait == 0) || (r.mode == 1 && s.modeSides 1 c)))

/-- A main-lane core that the boundary of tick n finds IN_SERVICE, as it stands now (R514). -/
def State.serves4 (s : State) (n c : Nat) : Bool :=
  let st := s.get CORE_STAT_STATE c
  (st == csIN_SERVICE || st == csRETURNING) && !s.pwrRequest c && !s.flag CORE_STAT_REQ_SB c && !s.flag CORE_CTL_SIDE c && !s.leavesBy n c

/-- Main-lane cores. -/
def mainCores : List Nat := (List.range 60).map (fun c => c + 4)

/-- d_{c,k} of tick n = m + k, core 4 first (R514). -/
def State.demandOf (s : State) (n : Nat) (first : Bool) : List Nat :=
  let l := s.runsOf n
  mainCores.map (fun c => if s.serves4 n c then
      sum ((l.filter (fun r => bit r.coreMask c)).map (fun r => r.budget)) + (if first then s.remainder c else 0) else 0)

/-- The demand of ticks m + 1 to m + 8. -/
def State.demands (s : State) (m : Nat) : List (List Nat) := (List.range 8).map (fun k => s.demandOf (m + 1 + k) (k == 0))

/-- H_{c,k} (R517). -/
def headroom (Y d : Nat) : Nat := min (Y - d) (d / 8)

/-- P_fix × P and P_fixCD × P in mW × ns (R514, R732). -/
def State.fixed (s : State) : Int × Int :=
  let e : Int := s.get PWR_ECYC * s.pwr.lastUsed
  (s.get PWR_PKG_MW * s.periodNs - e, (s.get PWR_RAIL_MW 0 0 + s.get PWR_RAIL_MW 0 2) * s.periodNs - e)

/-- The cap limit × P (R514). -/
def State.capLimit (s : State) : Int := ((s.get PWR_CAP_MW : Int) - s.get PWR_MARGIN_MW) * s.periodNs

/-- The power of a tick × P, for the cycles its allowances sum to (R515). -/
def State.powerOf (s : State) (cycles : Nat) : Int := s.fixed.1 + (s.get PWR_ECYC * cycles : Nat)

/-- The thermal model over the ticks whose allowances sum to `l` (R516): θ_k ≤ PWR_TJ_MAX in each. `t` is (θ − θ_amb) in
1/(256 × 1,024,000 × P) °C with 16 k fraction bits more. -/
def State.coolGo (s : State) (k : Nat) (t : Int) : List Nat → Bool
  | [] => true
  | c :: l =>
    let alpha : Int := s.get PWR_THERM_CD_ALPHA
    let w : Int := s.fixed.2 + (s.get PWR_ECYC * c : Nat)
    let x : Int := alpha * t + (65536 - alpha) * (two (16 * k) : Int) * (256 * s.get PWR_THERM_CD_RTH * w)
    let lim : Int := ((s.get PWR_TJ_MAX : Int) - s.getS PWR_AMBIENT) * (256 * 1024000 * s.periodNs : Nat) * (two (16 * (k + 1)) : Int)
    decide (x ≤ lim) && s.coolGo (k + 1) x l
def State.cool (s : State) (l : List Nat) : Bool :=
  s.coolGo 0 ((s.getS PWR_TEMP_CD - 256 * s.getS PWR_AMBIENT) * (1024000 * s.periodNs : Nat)) l

/-- The floor breaks the cap limit; it breaks PWR_TJ_MAX (R516, R517). -/
def State.floorCap (s : State) : Bool := decide (s.capLimit < s.powerOf 0)
def State.floorHot (s : State) : Bool := !s.cool (zeroSums 8) || decide ((s.get PWR_TJ_MAX * 256 : Nat) < s.getS PWR_TEMP_SD)
where zeroSums (n : Nat) : List Nat := List.replicate n 0

/-- The cycles a tick may use under the cap limit (R514, R515). -/
def State.capCycles (s : State) : Nat := if s.get PWR_ECYC = 0 then two 64 else ((s.capLimit - s.fixed.1) / (s.get PWR_ECYC : Int)).toNat

/-- 1,024 × the sum of the allowances where every shortfall is min(d, x) and every headroom max(0, H − 1,024 x), for 1,024 x = b:
the optimality conditions of R517 under one power row. -/
def wantAt (Y : Nat) (ds : List Nat) (b : Nat) : Nat :=
  sum (ds.map (fun d => 1024 * d - min (1024 * d) b + 1024 * (headroom Y d - b)))

/-- The optimum of one tick whose power row alone can bind (R517): d + H where the cycles allow it; else x is where the falling sum
meets them, between two values at which some shortfall or headroom reaches its bound. -/
def optimum (Y cap : Nat) (ds : List Nat) : List Nat :=
  if wantAt Y ds 0 ≤ 1024 * cap then ds.map (fun d => d + headroom Y d)
  else
    let marks := (0 :: ds.flatMap (fun d => [1024 * d, headroom Y d])).filter (fun b => 1024 * cap < wantAt Y ds b)
    let b := marks.foldl max 0
    let slope := sum (ds.map (fun d => b2n (decide (b < 1024 * d)) + 1024 * b2n (decide (b < headroom Y d))))
    let ovr := wantAt Y ds b - 1024 * cap
    -- 1,024 x = b + ovr ÷ slope
    let n := b * slope + ovr
    ds.map (fun d => (1024 * slope * d - min (1024 * slope * d) n + 1024 * (slope * headroom Y d - n)) / (1024 * slope))

/-- The plan of ticks m + 1 to m + 8 (R517): the program's optimum where no temperature row binds, else allowances that the spec does
not state in closed form: free values of at most Y. -/
def State.solvePlan (s : State) (ds : List (List Nat)) (draw : Nat) : List (List Nat) :=
  let best := ds.map (optimum s.tickCycles s.capCycles)
  if s.cool (best.map sum) then best
  else (List.range 8).map (fun k => (List.range 60).map (fun c => min s.tickCycles (Config.governorPlan draw (60 * k + c))))

/-- A core without demand in the horizon takes Y (R519). -/
def withY (ds plan : List (List Nat)) : List (List (Option Nat)) :=
  plan.map (fun l => (List.range 60).map (fun c => if ds.all (fun d => d.getD c 0 == 0) then none else l[c]?))

/-- The plan that covers tick n (R520). -/
def Pwr.planFor (p : Pwr) (n : Nat) : Option (List (Option Nat)) :=
  match p.plan with
  | some x => if x.1 < n && n ≤ x.1 + 8 then x.2[n - x.1 - 1]? else none
  | none => none

/-- The allowances of R520 for tick n: the last plan that covers it, else the demand. -/
def State.fallbackFor (s : State) (n : Nat) : List (Option Nat) :=
  (s.pwr.planFor n).getD ((s.demandOf n true).map (fun d => if d = 0 then none else some d))

/-- An allowance in cycles: Y where none is set (R519). -/
def State.cyclesOf (s : State) (a : Option Nat) : Nat := a.getD s.tickCycles

/-! ## Cut runs and forecasts (R522, R523) -/

/-- The cycles beyond its cores' allowances of a run whose turn comes after `before` cycles on each core; 0 where it is not cut. -/
def State.beyond (s : State) (before : List Nat) (r : RunRec) : Nat :=
  (mainCores.map (fun c => if bit r.coreMask c then
    min r.budget (before.getD (c - 4) 0 + r.budget - s.cyclesOf ((s.pwr.next.getD (c - 4) none))) else 0)).foldl max 0

/-- The runs of a tick that are cut, with their cycles beyond allowance, in slot order. -/
def State.cutGo (s : State) (before : List Nat) : List RunRec → List (RunRec × Nat)
  | [] => []
  | r :: l =>
    let x := s.beyond before r
    let after := mainCores.map (fun c => before.getD (c - 4) 0 + if bit r.coreMask c then r.budget else 0)
    if x = 0 then s.cutGo after l else (r, x) :: s.cutGo after l
def State.cutRuns (s : State) (n : Nat) : List (RunRec × Nat) := s.cutGo (mainCores.map s.remainder) (s.runsOf n)

/-- Slots that the cut runs of tenancy t flag in tick m: in class, with a chunk not committed whose last sample lies in tick m or
earlier (R522). -/
def State.flagged (s : State) (t m : Nat) (cut : List (RunRec × Nat)) : List Nat :=
  (s.slots.filter (fun e =>
    let q := e.2
    let cls := if q.full then q.par.transClass else q.par.listenClass
    s.tenancyOf e.1 == t && (q.state == .listen || q.state == .transcribe) && cut.any (fun x => x.1.tenancy == t && x.1.cls == cls) &&
    q.chunks.any (fun c => decide (c.n ≤ m) && c.status.isNone))).map (fun e => e.1)

/-- The forecast record of tenancy t in tick m (R523): the bitmap first, then the header in one request without Relaxed Ordering. -/
def State.forecast (m : Nat) (cut : List (RunRec × Nat)) (fall floor : Bool) (planMw : Nat) (s : State) (t : Nat) : State :=
  if !s.flag PWR_FC_CTL_EN t || !(s.fnState t).bme then s
  else
    let mine := cut.filter (fun x => x.1.tenancy == t)
    let slots := s.flagged t m cut
    let area := s.get PWR_FC_ADDR_LO t * two 12 + s.get PWR_FC_ADDR_HI t * two 32 + (m + 1) % 2 * 0x800
    let seq := Map.get s.pwr.fcSeq t 0 + 1
    let map := (List.range 1024).map (fun b => BitVec.ofNat 8 (sum ((slots.filter (fun i => i / 8 == b)).map (fun i => two (i % 8)))))
    let head := record [(4, 0x4D494346), (2, 1), (2, b2n (!mine.isEmpty) + 2 * b2n fall + 4 * b2n floor), (8, m + 1), (8, seq),
                        (2, mine.length), (2, slots.length), (4, 0), (8, sum (mine.map (fun x => x.2))), (4, s.get PWR_CAP_MW), (4, planMw)] ++ zeros 16
    let s := s.storeData t .forecast (area + 0x40) map .none
    let s := s.store { fn := t, kind := .forecast, addr := area, data := head }
    let s := (s.bump PWR_FC_WRITES t).bump PWR_FC_FLAGGED t 0 slots.length
    let s := s.onlyIf (!mine.isEmpty) (fun u => u.raise PWRT_INT_STAT_FORECAST t)
    s.modPwr (fun p => { p with fcSeq := Map.put t seq p.fcSeq })

/-- What the governor's allowances for tick m + 1 mean: cut runs are found and forecast (R522, R523). -/
def State.foretell (s : State) (m : Nat) (fall floor : Bool) : State :=
  let cut := s.cutRuns (m + 1)
  let planMw := (rneDiv (s.powerOf (sum (s.pwr.next.map (fun a => a.getD 0)))) s.periodNs).toNat
  let s := s.set PWRG_STAT_CUT_NEXT (b2n (!cut.isEmpty))
  let s := s.onlyIf (!cut.isEmpty) (fun u => (u.bump PWR_CUT_TICKS).raise PWRG_INT_STAT_CUT)
  (List.range 64).foldl (State.forecast m cut fall floor planMw) s

/-- A floor flag takes its new value; becoming 1 sets its bit (R517, R527). -/
def State.floorFlag (s : State) (f i : Fld) (v : Bool) : State :=
  let was := s.flag f
  (s.set f (b2n v)).onlyIf (v && !was) (fun u => u.raise i)

/-- The governor's solve of tick m ends (R513, R517, R520). Whether it ends OPTIMAL is a free value. -/
def State.govern (s : State) (m : Nat) : State :=
  let hot := s.flag PWRG_STAT_CAP_UNREACHABLE || s.flag PWRG_STAT_THERMAL
  let s := s.modPwr (fun p => { p with solved := true, cut := p.cut || hot })
  let low := s.floorCap
  let warm := s.floorHot
  let s := (s.floorFlag PWRG_STAT_CAP_UNREACHABLE PWRG_INT_STAT_CAP_UNREACHABLE low).floorFlag PWRG_STAT_THERMAL PWRG_INT_STAT_THERMAL warm
  if low || warm then
    (s.modPwr (fun p => { p with next := List.replicate 60 (some 0) })).foretell m false true
  else
    let d := s.draw
    let s := d.2.bump PWR_GOV_SOLVES
    if Config.governorOptimal d.1 then
      let ds := s.demands m
      let plan := withY ds (s.solvePlan ds d.1)
      (s.modPwr (fun p => { p with plan := some (m, plan), next := plan.headD [] })).foretell m false false
    else
      let next := s.fallbackFor (m + 1)
      (((s.bump PWR_GOV_FALLBACK).raise PWRG_INT_STAT_FALLBACK).modPwr (fun p => { p with next := next })).foretell m true false

/-- The governor runs: in RUN, TRIM and SIDING, while the signal box firmware does (R513, R649). -/
def State.governs (s : State) : Bool := s.pkg.sdUp && !s.standby && !s.flag SB_STAT_RESTARTING

/-- GOVERNOR_SOLVE_END (R518): at most one solve a tick. -/
def execGovernorSolveEnd (dt : Nat) (s : State) : Out :=
  let t := s.elapse dt
  s.done (if t.governs && !t.pwr.solved then t.govern t.tt.tick else t)

/-! ## Allowances, the limiter and the voltage step (R519, R521) -/

/-- The boundary of tick m: the allowances written for it come into force. Without a solve in the tick that ended they are those of
R520, and while the signal box firmware restarts those of the last plan, then Y (R649). -/
def State.governorBoundary (s : State) (m : Nat) : State :=
  let s := s.onlyIf (s.governs && !s.pwr.solved) (fun u =>
    let next := u.fallbackFor m
    ((u.bump PWR_GOV_FALLBACK).raise PWRG_INT_STAT_FALLBACK).modPwr (fun p => { p with next := next }))
  let s := s.onlyIf (s.flag SB_STAT_RESTARTING && !s.pwr.solved) (fun u => u.modPwr (fun p => { p with next := (p.planFor m).getD [] }))
  let d1 := s.demandOf m true
  let d2 := s.demandOf (m + 1) false
  let mask := fun (l : List Nat) (z : Bool) => sum ((List.range 60).map (fun c => if (l.getD c 0 == 0) == z then two (c + 4) else 0))
  s.modPwr (fun p => { p with
    allow := p.next, next := [], lastUsed := sum (p.used.map (fun e => e.2)), used := [], stopped := 0, cut := false, solved := false,
    low := mask d1 true, lowNext := mask d1 true &&& mask d2 false })

/-- The measurements of the tick that ended (R535, R732). -/
def State.measure12 (s : State) (x : Sensors) : State :=
  let s := (List.range 8).foldl (fun (u : State) i => u.set PWR_RAIL_MW (x.railMw.getD i 0) 0 i) s
  let s := s.set PWR_PKG_MW (sum ((List.range 7).map (fun i => x.railMw.getD i 0)))
  (s.setS PWR_TEMP_CD x.tempCd).setS PWR_TEMP_SD x.tempSd

/-- A core has used its allowance: its run is suspended and its clock stops until the next boundary (R519). -/
def State.exhausted (s : State) (c : Nat) : State :=
  let s := match s.holderOf c with
    | some r => s.cutRun r
    | none => s
  s.modPwr (fun p => { p with stopped := p.stopped ||| two c })

/-- ALLOWANCE_EXHAUSTED (R519): nothing happens on a listen core, or while the count lies below the allowance. -/
def execAllowanceExhausted (dt : Nat) (core : Fin 64) (s : State) : Out :=
  let t := s.elapse dt
  let c := core.val
  s.done (if 4 ≤ c && !t.standby && !bit t.pwr.stopped c && t.cyclesOf (t.pwr.allow.getD (c - 4) none) ≤ Map.get t.pwr.used c 0
    then t.exhausted c else t)

/-- The limiter stops every main-lane core until the next boundary (R521). -/
def State.limit12 (s : State) : State :=
  let s := (s.runs.filter (fun r => !r.suspended && r.rcd.lane == 0 && (r.cores.head?.any (fun c => (s.holderOf c).any (fun x => x.id == r.id))))).foldl
    State.cutRun s
  let s := (s.bump PWR_LIMITER).raise PWRG_INT_STAT_LIMITER
  s.modPwr (fun p => { p with stopped := two 64 - 16, cut := true })

/-- LIMITER (R521): the energy integral has reached its limit. -/
def execLimiter (dt : Nat) (s : State) : Out :=
  let t := s.elapse dt
  s.done (if t.pkg.sdUp && !t.standby then t.limit12 else t)

/-- VOLTAGE_STEP_RETURN (R519): a LOW core with demand in the next tick returns to nominal 100,000 ns before it. -/
def execVoltageStepReturn (core : Fin 64) (s : State) : Out :=
  s.done (if bit s.pwr.low core && bit s.pwr.lowNext core then
      let t := s.reach (s.tickAt (s.tt.tick + 1) - 100000)
      t.modPwr (fun p => { p with low := p.low - two core.val, lowNext := p.lowNext - two core.val })
    else s)

end Sys2Proof.Machine
end

