-- ==== Sys2Proof/Machine/MemErr.lean ====
section
/-! DEFINITION. Machine/MemErr.lean: the patrol, write-backs, the error log, injection and FATAL (13_memory_integrity.md). -/
namespace Sys2Proof.Machine

/-! ## FATAL (R557) -/

/-- Every audio port stops at once, with no zero-crossing wait (R557). -/
def State.portsFatal (s : State) : State :=
  (List.range 10).foldl (fun (u : State) p => u.onlyIf (u.portState p != ptSTOPPED) (fun v => v.portStopped p)) s

/-- The part enters FATAL at once (R557); what is dispatched, consumed and written ends at the next tick boundary. -/
def State.enterFatal (s : State) : State :=
  if s.flag MEMG_STAT_FATAL then s
  else
    let s := (s.set MEMG_STAT_FATAL 1).raise MEMG_INT_STAT_FATAL
    ((List.range 8).foldl State.goDark s).portsFatal

/-- An uncorrectable word of control state (R557). -/
def State.fatalError (s : State) (d : Damage) (source : Nat) : State :=
  (((s.bumpSat MEM_UE).raise MEMG_INT_STAT_UE).logError 3 d { action := acFATAL, source := source }).enterFatal

/-- An armed injection into control state is used by the boundary, which writes all of it (R557, R572). -/
def State.injectControl (s : State) : State :=
  if !s.flag MEM_INJECT_ARM || s.get MEM_INJECT_STORE != 9 then s
  else
    let d := s.draw
    let x : Damage := { store := 9, unit := 0, addr := 8 * ((Config.freeWord d.1 0).toNat % 32768), kind := if s.flag MEM_INJECT_KIND then 2 else 1,
                        bit := Config.flippedBit d.1 % 64 }
    let u := d.2.set MEM_INJECT_ARM 0
    if x.kind = 1 then u.countCE x acNONE else u.fatalError x acNONE

/-- What a tick boundary does here: FATAL takes hold, the CEs of a new tick are counted, and streams whose front-end state is
uncorrectable fault (R543, R557, R560). -/
def State.memBoundary (s : State) : State :=
  let s := { s with mem := { s.mem with halted := s.flag MEMG_STAT_FATAL, ceTick := 0 } }
  let s := s.injectControl
  (s.slots.filter (fun e => e.2.state == .listen || e.2.state == .transcribe)).foldl (fun (u : State) e =>
    let q := u.readItem 8 e.1 srFRONT_END
    match q.2 with
    | some d =>
      let v := (q.1.countUE d { action := acROW_FAULT, slot := e.1, source := srFRONT_END }).setDamage (q.1.mem.damage.filter (fun x => decide (x ≠ d)))
      v.faultAt e.1 sfPOISON e.2.nextChunk
    | none => q.1) s

/-! ## Write-back and patrol (R540, R551 to R553, R571) -/

/-- The word that a store, unit and address name: a felt word's page is its address divided by 65,536; only core SRAM has units. -/
def wordAt (store unit addr : Nat) : Damage :=
  if store = 2 then { store := 2, unit := addr / 65536, addr := addr % 65536, kind := 0 }
  else { store := store, unit := if store = 1 then unit else 0, addr := addr, kind := 0 }

/-- Two entries name one word. -/
def Damage.same (a b : Damage) : Bool := a.store == b.store && a.unit == b.unit && a.addr == b.addr

/-- CE_WRITEBACK (R540): nothing happens where the word has been written since. -/
def execCeWriteback (dt : Nat) (store : Fin 16) (unit : Fin 64) (addr : Nat) (s : State) : Out :=
  let t := s.elapse dt
  let w := wordAt store unit addr
  s.done (if t.mem.back.contains (w.store, w.unit, w.addr) then t.setDamage (t.mem.damage.filter (fun d => !(d.kind == 1 && d.same w))) else t)

/-- The word lies in its store, whole (R536, R538). -/
def patrolPlace (r : PatrolWord) : Bool :=
  let st := r.store.val
  if st = 2 then r.addr % 8 == 0 && r.addr < 65536 * feltPages
  else if st = 10 then r.addr % 32 == 0 && r.addr < Config.dramMib * 1048576
  else 1 ≤ st && st ≤ 9 && r.addr % 8 == 0 && r.addr < 16777216

/-- PROGRAM of the section of kind 1 to 4 that holds a word of core SRAM, else 0 (R553). -/
def State.programAt (s : State) (d : Damage) : Nat :=
  if d.store ≠ 1 then 0
  else
    let hit := fun (m : Image) => m.sections.any (fun x => x.core == d.unit && 1 ≤ x.kind && x.kind ≤ 4 && inSpan d.addr x.off x.len)
    ((s.images.flatMap (fun e => e.2)).find? hit).elim 0 (fun m => m.id)

/-- The patrol finds an uncorrectable word (R553, R557, R571). -/
def State.patrolBad (s : State) (d : Damage) : State :=
  if d.store = 9 then s.fatalError d srPATROL
  else
    let s := s.setDamage (s.mem.damage.filter (fun x => !x.same d) ++ [{ d with kind := 3 }])
    (s.countUE d { arg := s.programAt d, source := srPATROL }).raise MEMG_INT_STAT_PATROL_UE

/-- What the patrol makes of one word (R553). -/
def State.patrolOne (s : State) (d : Damage) : State :=
  if d.kind = 0 then s
  else if d.kind = 1 then
    let s := s.onlyIf (!s.mem.damage.contains d) (fun u => u.setDamage (u.mem.damage ++ [d]))
    s.correct (fun x => decide (x = d)) srPATROL
  else s.patrolBad d

/-- A pass is under way, or ends: it is late where it took longer than its period (R551, R552). -/
def State.patrolPass (s : State) (dram last : Bool) : State :=
  let from_ := ((if dram then s.mem.dramPass else s.mem.sramPass).getD s.cnt)
  let secs := if dram then s.get MEM_PATROL_DRAM_S else s.get MEM_PATROL_SRAM_S
  let s := s.onlyIf last (fun u => (u.bumpSat MEM_PATROL_PASSES).onlyIf (decide (from_ + 1000000000 * secs < u.cnt)) (fun v => v.bumpSat MEM_PATROL_LATE))
  let now := if last then none else some from_
  let m := if dram then { s.mem with dramPass := now } else { s.mem with sramPass := now }
  ({ s with mem := m }).set MEMG_STAT_PATROL_ACTIVE (b2n (m.sramPass.isSome || m.dramPass.isSome))

/-- The patrol reads a word: what it holds is what the model knows of it, else what the read shows (R553); an LPDDR5X block whose read fails on
the link and again on the retry is an uncorrectable one (R539). -/
def State.patrol (s : State) (r : PatrolWord) : State :=
  let w := wordAt r.store r.unit r.addr
  let dram := r.store.val == 10
  let known := s.mem.damage.find? (fun x => x.same w)
  let s := s.onlyIf (dram && r.link == .corrected) (fun u => u.bumpSat MEM_LINK_CE)
  (if dram && r.link == .failed then s.patrolBad { w with kind := 2 }
   else s.patrolOne (known.getD { w with kind := r.check, bit := r.bit })).patrolPass dram r.passEnd

/-- PATROL_READ (R553): nothing happens while PATROL_EN is 0 or where the store has no such word. -/
def execPatrolRead (dt : Nat) (r : PatrolWord) (s : State) : Out :=
  let t := s.elapse dt
  s.done (if t.pkg.sdUp && t.flag MEMG_CTL_PATROL_EN && patrolPlace r then t.patrol r else t)

/-! ## The log and injection (R559, R572) -/

/-- The log's read index moves, never beyond the write index (R559). -/
def State.logRd (s : State) (v : Nat) : State :=
  s.onlyIf (idxSub v (s.get MEM_LOG_RD) ≤ idxSub (s.get MEM_LOG_WR) (s.get MEM_LOG_RD)) (fun u => u.set MEM_LOG_RD v)

/-- MEM_LOG_RD_WRITE (R559). -/
def execMemLogRdWrite (dt : Nat) (p : Party) (value : Nat) (s : State) : Out :=
  s.done ((s.elapse dt).access p .memg 0 .page (fun u => u.logRd value))

/-- The first word of the selected record, and the rest latched. -/
def State.readLog (s : State) (p : Party) : State :=
  let b := Map.get s.mem.log (s.get MEM_LOG_SEL) []
  let s := (List.range 7).foldl (fun (v : State) j => v.latch p MEM_LOG_VIEW_REST (le b (4 * j + 4) 4) 0 j) s
  s.returns (le b 0 4)

/-- MEM_LOG_VIEW_READ (R559). -/
def execMemLogViewRead (dt : Nat) (p : Party) (s : State) : Out := s.done ((s.elapse dt).reading p .memg 0 (fun u => u.readLog p))

/-- An injection is armed (R572). -/
def State.armInject (s : State) : State := s.set MEM_INJECT_ARM 1

/-- MEM_INJECT_ARM (R572): the store, unit and kind are those MEM_INJECT holds. -/
def execMemInjectArm (dt : Nat) (p : Party) (s : State) : Out :=
  s.done ((s.elapse dt).access p .memg 0 .page State.armInject)

end Sys2Proof.Machine
end

