-- ==== Sys2Proof/Machine/Ledger.lean ====
section
/-! DEFINITION. Machine/Ledger.lean: the books, their audit, and what an imbalance does (14_conservation_ledger.md). -/
namespace Sys2Proof.Machine

/-! ## The books (R575 to R579) -/

/-- Codes of R575. -/
def bkLINK : Nat := 1
def bkRING : Nat := 2
def bkFELT_PAGE : Nat := 3
def bkFELT_REF : Nat := 4
def bkTOKEN : Nat := 5
def bkTAG : Nat := 6

/-- A part that must hold `expect` and holds `found`. -/
def part (book inst tenancy expect found : Nat) : List Imbalance :=
  if expect = found then [] else [{ book := book, inst := inst, tenancy := tenancy, expect := expect, found := found }]

/-- The halves of one LINK book (R576). -/
def LinkBook.parts (b : LinkBook) (inst alloc : Nat) : List Imbalance :=
  part bkLINK inst 255 alloc (b.held + (b.sent + two 32 - b.returned % two 32) % two 32) ++
  part bkLINK inst 255 ((b.received + two 32 - b.sentBack % two 32) % two 32) (b.buffered + b.owed)

/-- The LINK books of the ports that have credits (R577). -/
def State.linkParts (s : State) : List Imbalance :=
  (List.range 8).flatMap (fun p =>
    let st := s.blState p
    if st = ptIN_SERVICE || st = ptSIDING || st = ptSIDED || st = ptRETURNING then
      (s.blPort p).books.flatMap (fun e => e.2.parts (8 * p + e.1) (creditsOf e.1))
    else [])

/-- What a ring's quantities other than its free credits hold (R135). -/
def State.ringUsed (s : State) (r : Nat) : Nat :=
  let ty := s.get RING_CFG_TYPE r
  if ty = ringSUBMIT then s.posted r
  else if ty = ringCOMMAND then s.posted r + s.get RING_HELD r
  else if ty = ringCOMPLETE then s.written r + s.get RING_HELD r
  else s.written r

/-- The RING book of a ring that is ACTIVE or ERROR (R135, R577): free credits are what the others leave of N. -/
def State.ringPart (s : State) (r : Nat) : List Imbalance :=
  if s.get RING_STAT_STATE r = 0 then [] else part bkRING r (s.owner .ring r) (s.ringN r) (max (s.ringN r) (s.ringUsed r))

/-- Directory records that are not FREE, of one tenancy or of all (R575). -/
def State.feltRecords (s : State) (t : Option Nat) : Nat :=
  (s.felt.filter (fun e => e.2.state != 0 && t.all (fun x => e.2.tenancy == x))).length

/-- Σ REF over the pages tagged t, and R_t with its open movements added back (R578, R580). -/
def State.refSum (s : State) (t : Nat) : Nat := sum ((s.felt.filter (fun e => e.2.tenancy == t)).map (fun e => e.2.ref))
def State.refCount (s : State) (t : Nat) : Nat :=
  (((s.led.opens.filter (fun o => o.1 == t)).map (fun o => o.2)).foldl (· + ·) ((Map.get s.led.refs t 0 : Nat) : Int)).toNat

/-- Tags held (R575). -/
def State.tagsOut (s : State) (t : Option Nat) : Nat := (s.gx.tags.filter (fun e => t.all (fun x => e.2.tenancy == x))).length

/-- The slot lies in the range of some tenancy (R80). -/
def State.ranged (s : State) (i : Nat) : Bool :=
  (List.range 64).any (fun t => inSpan i (s.get STR_RANGE_BASE t) (s.get STR_RANGE_COUNT t))

/-- Slots outside every range that are not FREE with the scheduler as holder (R575). -/
def State.strayTokens (s : State) : Nat :=
  (s.slots.filter (fun e => !s.ranged e.1 && (e.2.state != .free || e.2.holder != .scheduler))).length

/-- Every part of FELT_PAGE and FELT_REF. -/
def State.feltParts (s : State) : List Imbalance :=
  part bkFELT_PAGE 0 255 (feltPages - s.feltRecords none) s.led.free ++
  (List.range 64).flatMap (fun t => part bkFELT_PAGE 0 t (s.feltRecords (some t)) (Map.get s.led.live t 0)) ++
  (List.range 64).flatMap (fun t => part bkFELT_REF t t (s.refSum t) (s.refCount t))

/-- Every part of TOKEN and TAG. Each slot has one holder by the shape of the state, and each buffer one owner, so the tenancy parts of
TOKEN and the WOB books always balance. -/
def State.otherParts (s : State) : List Imbalance :=
  part bkTOKEN 0 255 0 s.strayTokens ++
  part bkTAG 0 255 (2048 - s.tagsOut none) s.led.tagFree ++
  (List.range 64).flatMap (fun t => part bkTAG 0 t (s.tagsOut (some t)) (Map.get s.led.tags t 0))

/-- FELT_PAGE and FELT_REF are audited: outside STANDBY and FATAL (R577, R593). -/
def State.feltAudited (s : State) : Bool := !s.standby && !s.flag MEMG_STAT_FATAL

/-- Every part that does not balance, by book and instance (R580, R589). -/
def State.imbalances (s : State) : List Imbalance :=
  s.linkParts ++ (List.range 512).flatMap s.ringPart ++ (if s.feltAudited then s.feltParts else []) ++
  (if s.flag MEMG_STAT_FATAL then [] else s.otherParts)

/-- The books are taken as they stand at the boundary of tick m (R62 step 5, R580). -/
def State.takeAudit (s : State) (m : Nat) : State :=
  let l := s.imbalances
  ((s.bump LED_AUDITS).set LEDG_STAT_FELT_AUDITED (b2n s.feltAudited)).ledger (fun x => { x with audit := some (m, l) })

/-! ## What an imbalance does (R581 to R583, R589, R590) -/

/-- Fault code of R102. -/
def sfLEDGER : Nat := 5

/-- A stopped tenancy's bit (R582, R597). -/
def State.stopBit (s : State) (t : Nat) (v : Bool) : State :=
  let f := if t < 32 then LED_STOPPED_LO else LED_STOPPED_HI
  let b := two (t % 32)
  let w := s.get f
  s.set f (if v then w ||| b else w &&& (two 32 - 1 - b))

/-- A tenancy is stopped (R582): its runs go, its host solver requests end, and its slots fault at the next boundary. -/
def State.stopTenancy (s : State) (t book : Nat) : State :=
  let s := s.set LEDT_STAT_BOOKS ((if s.stoppedT t then s.get LEDT_STAT_BOOKS t else 0) ||| two (book - 1)) t
  if s.stoppedT t then s
  else
    let s := ((s.set LEDT_STAT_STOPPED 1 t).set LEDT_STAT_RECOUNT_FAILED 0 t).stopBit t true
    let s := ((s.bump LED_STOPS).raise LEDG_INT_STAT_STOP).raise LEDT_INT_STAT_STOP t
    let s := (s.runs.filter (fun r => r.rcd.tenancy == t)).foldl State.dropRun s
    (s.solReset t).ledger (fun x => { x with faultDue := x.faultDue ++ [t] })

/-- One part out of balance (R581). -/
def State.imbalance (s : State) (x : Imbalance) : State :=
  let s := (s.bump LED_IMBALANCES).raise LEDG_INT_STAT_IMBALANCE
  let s := s.onlyIf (decide (x.tenancy < 64)) (fun u => u.bump LED_T_IMBALANCES x.tenancy)
  if x.book = bkLINK then
    ((s.bump LED_PORT_DARK).raise LEDG_INT_STAT_PORT).goDark (x.inst / 8)
  else if x.tenancy < 64 then s.stopTenancy x.tenancy x.book
  else
    let s := s.raise LEDG_INT_STAT_DEVICE
    if s.flag MEMG_STAT_FATAL then s
    else (s.logError 3 { store := 9, unit := 0, addr := 0, kind := 2 } { action := acFATAL }).enterFatal

/-- The failure recorded: the lowest book, then the lowest instance (R589). -/
def State.lastFailure (s : State) (m : Nat) (x : Imbalance) : State :=
  let s := ((s.set LED_LAST_BOOK_BOOK x.book).set LED_LAST_BOOK_INSTANCE x.inst).set LED_LAST_BOOK_TENANCY x.tenancy
  ((s.set2 LED_LAST_TICK_LO LED_LAST_TICK_HI m).set LED_LAST_EXPECT x.expect).set LED_LAST_FOUND x.found

/-- The result of an audit is known (R580, R581). -/
def State.auditKnown (s : State) : State :=
  match s.led.audit with
  | none => s
  | some a =>
    let s := (s.ledger (fun x => { x with audit := none })).set LEDG_STAT_LAST_OK (b2n a.2.isEmpty)
    let s := match a.2 with
      | x :: _ => s.lastFailure a.1 x
      | [] => s
    a.2.foldl State.imbalance s

/-- LEDGER_AUDIT_DONE (R581): nothing happens while no audit is under way. -/
def execLedgerAuditDone (dt : Nat) (s : State) : Out := s.done (s.elapse dt).auditKnown

/-- The slots of tenancies stopped since the last boundary fault (R582 step 3). -/
def State.ledgerFaults (s : State) (m : Nat) : State :=
  let due := s.led.faultDue
  let s := s.ledger (fun x => { x with faultDue := [] })
  (s.slots.filter (fun e => due.contains (s.tenancyOf e.1) && s.ranged e.1)).foldl (fun (u : State) e =>
    u.faultSlot e.1 m sfLEDGER (u.slot e.1).nextChunk) s

/-! ## The recount (R584) -/

/-- The counters of tenancy t, taken again from the units' own state. -/
def State.recounted (s : State) (t : Nat) : State :=
  let live := s.feltRecords (some t)
  let refs := s.refSum t
  let tags := s.tagsOut (some t)
  s.ledger (fun x => { x with live := Map.put t live x.live, refs := Map.put t refs x.refs, tags := Map.put t tags x.tags,
                              opens := x.opens.filter (fun o => o.1 != t) })

/-- Parts of tenancy t that do not balance. -/
def State.partsOf (s : State) (t : Nat) : List Imbalance := s.imbalances.filter (fun x => x.tenancy == t && x.book != bkLINK)

/-- A stopped tenancy whose reset has completed is recounted (R584). -/
def State.recount (s : State) (t : Nat) : State :=
  if !s.stoppedT t then s
  else
    let s := s.recounted t
    if (s.partsOf t).isEmpty then
      (((s.set LEDT_STAT_STOPPED 0 t).set LEDT_STAT_RECOUNT_FAILED 0 t).stopBit t false).raise LEDT_INT_STAT_RESUMED t
    else
      (((s.set LEDT_STAT_RECOUNT_FAILED 1 t).bump LED_RECOUNT_FAIL).raise LEDG_INT_STAT_RECOUNT_FAIL).raise LEDT_INT_STAT_RECOUNT_FAIL t

/-- The recounts of a boundary (R584). -/
def State.recounts (s : State) : State :=
  let due := s.led.recount
  due.foldl State.recount (s.ledger (fun x => { x with recount := [] }))

/-! ## Reference changes and the register (R578, R597) -/

/-- FELT_REF_UPDATE (R578): the oldest open change reaches the other die's counter; nothing happens where none is open. -/
def execFeltRefUpdate (dt : Nat) (s : State) : Out :=
  let t := s.elapse dt
  s.done (match t.led.opens with
    | o :: l => t.ledger (fun x => { x with opens := l, refs := x.refs.plus o.1 o.2 })
    | [] => t)

/-- LED_LAST_BOOK and what it latches (R597). -/
def State.readBook (s : State) (p : Party) : State :=
  let s := (s.latch p LED_LAST_TICK_LO (s.get LED_LAST_TICK_LO)).latch p LED_LAST_TICK_HI (s.get LED_LAST_TICK_HI)
  let s := (s.latch p LED_LAST_EXPECT (s.get LED_LAST_EXPECT)).latch p LED_LAST_FOUND (s.get LED_LAST_FOUND)
  s.returns (s.get LED_LAST_BOOK_BOOK + 256 * s.get LED_LAST_BOOK_INSTANCE + two 24 * s.get LED_LAST_BOOK_TENANCY)

/-- LED_LAST_BOOK_READ (R597). -/
def execLedLastBookRead (dt : Nat) (p : Party) (s : State) : Out :=
  s.done ((s.elapse dt).reading p .ledg 0 (fun u => u.readBook p))

end Sys2Proof.Machine
end

