-- ==== Sys2Proof/Machine/Debug.lean ====
section
/-! DEFINITION. Machine/Debug.lean: the isolation conditions and the debug gate (15_isolation_and_access.md). -/
namespace Sys2Proof.Machine

/-- Change the isolation and debug state beyond the registers. -/
def State.modIso (s : State) (f : Iso → Iso) : State := { s with iso := f s.iso }

/-! ## Conditions (R601, R605) -/

/-- No page list and no handle references a page whose tag differs from its own tenancy (R601). -/
def State.noCross (s : State) : Bool :=
  s.get2 FELT_XSHARE_LO FELT_XSHARE_HI == 0 &&
  s.slots.all (fun e => (e.2.bankA.pages ++ e.2.bankB.pages).all (fun p => (s.page p).tenancy == s.tenancyOf e.1)) &&
  s.handles.all (fun e => e.2.pages.all (fun p => (s.page p).tenancy == e.1 / 16))

/-- The LPDDR5X areas that must be disjoint: the reel area, table windows, image windows (R601). -/
def State.areas (s : State) : List (Nat × Nat) :=
  ((s.get FE_REEL_BASE_LO * two 14 + s.get FE_REEL_BASE_HI * two 32, 16384 * s.get FE_REEL_SIZE) ::
    (List.range 64).flatMap (fun t => [(s.winBase t, s.winSize t), (s.imgBase t, s.imgSize t)])).filter (fun x => x.2 != 0)

/-- Pairwise disjoint. -/
def disjoint : List (Nat × Nat) → Bool
  | [] => true
  | x :: l => l.all (fun y => x.1 + x.2 ≤ y.1 || y.1 + y.2 ≤ x.1) && disjoint l

/-- A tenancy's staging area lies in its table window; one without a window has no staging area (R445, R601). -/
def State.stagingOk (s : State) (t : Nat) : Bool :=
  s.winSize t == 0 || s.inWindow t (s.get SOL_STAGE_LO t * two 12 + s.get SOL_STAGE_HI t * two 32) 1

/-- PARTITIONED (R601). -/
def State.partitioned (s : State) : Bool :=
  sum ((List.range 64).map (fun t => s.get FELT_QUOTA t)) ≤ 2048 && disjoint s.areas && (List.range 64).all s.stagingOk

/-- The conditions over the tick that ends, after step 3 of R62 (R601, R618). -/
def State.isoBoundary (s : State) : State :=
  let was := s.flag ISOG_STAT_PROMISE
  let c := [(ISOG_STAT_FIXED, s.tt.active.any (fun g => g.mode == 0)), (ISOG_STAT_NO_CROSS, s.noCross),
    (ISOG_STAT_GATE_LOCKED, s.get DBGG_STAT_OPEN == 0), (ISOG_STAT_PARTITIONED, s.partitioned),
    (ISOG_STAT_POWER, !s.pwr.cut && !s.flag PWRG_STAT_CAP_UNREACHABLE && !s.flag PWRG_STAT_THERMAL),
    (ISOG_STAT_HORIZON, !s.iso.featWait), (ISOG_STAT_RESULTS, !s.iso.resWait)]
  let now := c.all (fun x => x.2)
  let s := c.foldl (fun (u : State) x => u.set x.1 (b2n x.2)) s
  let s := (s.set ISOG_STAT_PROMISE (b2n now)).modIso (fun x => { x with featWait := false, resWait := false })
  let s := s.onlyIf (was && !now) (fun u => (u.bump ISO_COND_LOSSES).raise ISOG_INT_STAT_COND_LOST)
  s.onlyIf (now && !was) (fun u => u.raise ISOG_INT_STAT_COND_HELD)

/-- A reservation is pending for the boundary; one that would make them sum to more than 256 is refused (R605). -/
def State.resReserve (s : State) (p : Party) (t v : Nat) : State :=
  let others := sum (((List.range 64).filter (fun u => u ≠ t)).map (fun u => s.shown ISO_RES_RESERVE u))
  if 256 < others + v % 512 then s.raise ISOG_INT_STAT_RES_REFUSED else s.pendWrite p ISO_RES_RESERVE v t

/-- ISO_RES_RESERVE_WRITE (R605). -/
def execIsoResReserveWrite (dt : Nat) (p : Party) (t : Fin 64) (value : Nat) (s : State) : Out :=
  s.done ((s.elapse dt).access p .isot t .fn0 (fun u => u.resReserve p t value) (some (0x100, value)))

/-! ## The gate (R611 to R616) -/

/-- Scope groups of R612; JTAG equals every other group. -/
def State.groupOpen (s : State) (g : Nat) : Bool := bit (s.get DBGG_STAT_OPEN) g || bit (s.get DBGG_STAT_OPEN) 6

/-- Measurement 6 is extended by an event record (R611). -/
def State.extend6 (s : State) (rcd : List Byte) : State :=
  let old := s.sb.meas.getD 5 (zeros 48)
  { s with sb := { s.sb with meas := s.sb.meas.set 5 (toLe 48 (Config.sha384 (old ++ rcd)).toNat) } }

/-- The challenge record (R613). -/
def challengeRecord (scope device boot slot nonce : Nat) : List Byte :=
  record [(4, 0x4D494447), (2, 1), (2, scope), (4, device), (4, boot), (1, slot), (15, 0), (32, nonce)]

/-- CHALLENGE forms a record with a fresh nonce, which replaces any other (R614); while locked out it is refused (R615). -/
def State.dbgChallenge (s : State) (sb : Bool) : State :=
  if s.flag DBGG_STAT_LOCKOUT then (s.set DBGG_STAT_CODE 6).raise DBGG_INT_STAT_REFUSED
  else
    let d := s.draw
    let b := challengeRecord (s.get DBG_REQ_SCOPE % 256) Config.device s.pkg.boots (s.get DBG_REQ_KEY_SLOT) (Config.random d.1)
    let u := (List.range 16).foldl (fun (v : State) j => v.set DBG_CHAL (le b (4 * j) 4) 0 j) d.2
    let u := (u.set DBGG_STAT_NONCE 1).set DBGG_STAT_SOURCE (b2n sb)
    let olds := match s.iso.nonce with
      | some n => n.2 :: s.iso.olds
      | none => s.iso.olds
    u.modIso (fun x => { x with nonce := some (s.cnt, b), olds := olds })

/-- DBG_CHALLENGE (R614). -/
def execDbgChallenge (dt : Nat) (p : Party) (s : State) : Out :=
  s.done ((s.elapse dt).access p .dbgg 0 .page (fun u => u.dbgChallenge (decide (p = .sb))))

/-- The signature registers (R614). -/
def State.dbgSig (s : State) : List Byte := (List.range 24).flatMap (fun j => toLe 4 (s.get DBG_SIG 0 j))

/-- Key slot k is VALID. -/
def State.keyValid (s : State) (k : Nat) : Bool := bits (s.get DBG_KEY_STAT_SLOTS) (2 * k) 2 == 1

/-- The signature verifies against a record and the key of the slot it names. -/
def State.dbgVerifies (s : State) (rcd : List Byte) : Bool := Config.ecdsaOk (Map.get s.iso.keys (byteAt rcd 0x10) []) rcd s.dbgSig

/-- Sixty seconds. -/
def nonceLife : Nat := 60000000000

/-- The first failure of R615; 0 for none. -/
def State.respondCode (s : State) : Nat :=
  if s.flag DBGG_STAT_LOCKOUT then 6
  else match s.iso.nonce with
    | none => 1
    | some n =>
      if !s.flag DBGG_STAT_NONCE || n.1 + nonceLife < s.cnt then 2
      else if s.iso.olds.any s.dbgVerifies then 3
      else if !s.keyValid (byteAt n.2 0x10) then 4
      else if !s.dbgVerifies n.2 then 5
      else 0

/-- RESPOND is checked, and the nonce is consumed (R614, R615). -/
def State.dbgRespond (s : State) : State :=
  let c := s.respondCode
  let rcd := (s.iso.nonce.map (fun n => n.2)).getD []
  let s := ((s.set DBGG_STAT_CODE c).set DBGG_STAT_NONCE 0).modIso (fun x => { x with nonce := none, olds := [] })
  if c = 0 then
    (s.set DBGG_STAT_PENDING 1).modIso (fun x => { x with fails := 0, opening := some (le rcd 6 2, byteAt rcd 0x10, rcd) })
  else
    let n := if 2 ≤ c && c ≤ 5 then s.iso.fails + 1 else s.iso.fails
    let s := ((s.bump DBG_FAILS).raise DBGG_INT_STAT_REFUSED).modIso (fun x => { x with fails := n })
    s.onlyIf (8 ≤ n) (fun u => u.set DBGG_STAT_LOCKOUT 1)

/-- DBG_RESPOND (R615). -/
def execDbgRespond (dt : Nat) (p : Party) (s : State) : Out := s.done ((s.elapse dt).access p .dbgg 0 .page State.dbgRespond)

/-- The opening that awaited this boundary (R615): the open scope becomes exactly its scope. -/
def State.dbgBoundary (s : State) : State :=
  match s.iso.opening with
  | none => s
  | some o =>
    let s := (((s.setGen DBGG_STAT_OPEN o.1).set DBGG_STAT_PENDING 0).extend6 (o.2.2 ++ [1])).modIso (fun x => { x with opening := none, openSlot := o.2.1 })
    (s.bump DBG_OPENINGS).raise DBGG_INT_STAT_OPENED

/-- Every group closes at once; a pending opening is cancelled and both are measured (R616, R623). -/
def State.closeGate (s : State) : State :=
  let open_ := s.get DBGG_STAT_OPEN
  let s := match s.iso.opening with
    | some o => (((s.set DBGG_STAT_PENDING 0).extend6 (o.2.2 ++ [1])).extend6 (toLe 2 o.1 ++ [0])).modIso (fun x => { x with opening := none })
    | none => s
  if open_ = 0 then s else ((s.setGen DBGG_STAT_OPEN 0).extend6 (toLe 2 open_ ++ [0])).raise DBGG_INT_STAT_CLOSED

/-- DBG_CLOSE (R616). -/
def execDbgClose (dt : Nat) (p : Party) (s : State) : Out := s.done ((s.elapse dt).access p .dbgg 0 .page State.closeGate)

/-- NONCE_EXPIRY (R614): nothing happens while no nonce exists. -/
def execNonceExpiry (s : State) : Out :=
  s.done (match s.iso.nonce with
    | some n => if s.flag DBGG_STAT_NONCE then (s.reach (n.1 + nonceLife)).set DBGG_STAT_NONCE 0 else s
    | none => s)

/-! ## The window (R612, R624, R757) -/

/-- A register of the window page answers: HALT's and TRACE's while their group is open, the others while any is (R612, R627). -/
def State.winAnswers (s : State) (off : Nat) : Bool :=
  if off = DBG_HALT_LO.off || off = DBG_HALT_HI.off then s.groupOpen 5
  else if 0x190 ≤ off && off ≤ 0x1A4 then s.groupOpen 0
  else s.get DBGG_STAT_OPEN != 0

/-- The 64 bytes that the window names, where its group is open and its store has them: 1 core SRAM, 2 felt, 10 LPDDR5X. -/
def State.window (s : State) : Option (Space × Nat) :=
  let a := s.get2 DBG_WIN_ADDR_LO DBG_WIN_ADDR_HI
  let st := s.get DBG_WIN_TARGET_STORE
  if a % 64 ≠ 0 then none
  else if st = 1 then (if s.groupOpen 1 && a + 64 ≤ 16777216 && !s.standby then some (.sram, 16777216 * s.get DBG_WIN_TARGET_UNIT + a) else none)
  else if st = 2 then (if s.groupOpen 2 && a + 64 ≤ feltPageBytes * feltPages && !s.standby then some (.felt, a) else none)
  else if st = 10 then (if s.groupOpen 3 && a + 64 ≤ Config.dramMib * 1048576 then some (.dram, a) else none)
  else none

/-- The window reads 64 bytes; uncorrectable words read zero (R624). -/
def State.winRead (s : State) : State :=
  match s.window with
  | none => s
  | some w =>
    let b := s.rdClean w.1 w.2 64
    let s := ((s.demand w.1 w.2 64).bump DBG_WIN_ACCESSES).set DBG_WIN_STAT_POISON (b2n (s.poisoned w.1 w.2 64))
    (List.range 16).foldl (fun (u : State) j => u.set DBG_WIN_DATA (le b (4 * j) 4) 0 j) s

/-- DBG_WIN_READ (R612). -/
def execDbgWinRead (dt : Nat) (p : Party) (s : State) : Out := s.done ((s.elapse dt).access p .dbgw 0 .page State.winRead)

/-- The window stores DATA whole (R612). -/
def State.winWrite (s : State) : State :=
  match s.window with
  | none => s
  | some w =>
    if !s.groupOpen 4 then s
    else (s.bump DBG_WIN_ACCESSES).wr w.1 w.2 ((List.range 16).flatMap (fun j => toLe 4 (s.get DBG_WIN_DATA 0 j)))

/-- DBG_WIN_WRITE (R612). -/
def execDbgWinWrite (dt : Nat) (p : Party) (s : State) : Out := s.done ((s.elapse dt).access p .dbgw 0 .page State.winWrite)

/-! ## Halting and the trace (R617) -/

/-- Runs that execute on a core that the gate halts are suspended. -/
def State.haltRuns (s : State) : State :=
  (s.runs.filter (fun r => !r.suspended && r.cores.any (fun c => s.halted c && (s.holderOf c).any (fun x => x.id == r.id)))).foldl State.suspend s

/-- The halt masks are written; ignored while HALT is closed (R617). -/
def State.haltWrite (s : State) (hi : Bool) (v : Nat) : State :=
  s.onlyIf (s.groupOpen 5) (fun u => (u.set (if hi then DBG_HALT_HI else DBG_HALT_LO) v).haltRuns)

/-- DBG_HALT_WRITE (R617). -/
def execDbgHaltWrite (dt : Nat) (p : Party) (hi : Bool) (value : Nat) (s : State) : Out :=
  s.done ((s.elapse dt).access p .dbgw 0 .page (fun u => u.haltWrite hi value))

/-- The first word of the selected trace record, and the rest latched; zero while TRACE is closed (R617). -/
def State.readTrace (s : State) (p : Party) : State :=
  if !s.groupOpen 0 then s.returns 0
  else
    let b := Map.get s.iso.trace (s.get DBG_TRACE_SEL) []
    let s := (List.range 3).foldl (fun (v : State) j => v.latch p DBG_TRACE_VIEW_REST (le b (4 * j + 4) 4) 0 j) s
    s.returns (le b 0 4)

/-- DBG_TRACE_VIEW_READ (R617): reads zero while TRACE is closed. -/
def execDbgTraceViewRead (dt : Nat) (p : Party) (s : State) : Out :=
  s.done ((s.elapse dt).reading p .dbgw 0 (fun u => u.readTrace p))

end Sys2Proof.Machine
end

