-- ==== Sys2Proof/Machine/SignalBox.lean ====
section
/-! DEFINITION. Machine/SignalBox.lean: management commands and epochs, telemetry, SPDM, PLDM and firmware update
(16_management_plane.md). -/
namespace Sys2Proof.Machine

/-- Change the signal box. -/
def State.modSb (s : State) (f : Sb → Sb) : State := { s with sb := f s.sb }

/-! ## Units (R635, R639) -/

/-- Opcodes of R639. -/
def mgGET_UNIT : Nat := 1
def mgSIDE : Nat := 2
def mgRETURN : Nat := 3
def mgTEARDOWN : Nat := 4
def mgSET_CAP : Nat := 5
def mgSET_MODE : Nat := 6
def mgSET_LOCK : Nat := 7
def mgSET_POWER_PARAM : Nat := 8
def mgKEY_REVOKE : Nat := 9
def mgGET_SNAPSHOT : Nat := 10
def mgGET_RESULT : Nat := 11
def mgKEY_PROGRAM : Nat := 12

/-- RESULT codes of R640. -/
def mrAPPLIED : Nat := 0
def mrQUEUED : Nat := 1
def mrSTALE_GEN : Nat := 2
def mrBAD_UNIT : Nat := 3
def mrBAD_ARG : Nat := 4
def mrBUSY : Nat := 5
def mrLISTEN_CORE : Nat := 6
def mrNOT_APPLICABLE : Nat := 7
def mrFATAL : Nat := 8
def mrSUPERSEDED : Nat := 9

/-- The kinds an opcode takes (R639). -/
def kindOk (op kind : Nat) : Bool :=
  if op = mgGET_UNIT then 1 ≤ kind && kind ≤ 6
  else if op = mgSIDE || op = mgRETURN then 1 ≤ kind && kind ≤ 3
  else if op = mgTEARDOWN then kind == 4
  else if op = mgKEY_REVOKE || op = mgKEY_PROGRAM then kind == 6
  else kind == 5

/-- The number of units of a kind, as an opcode numbers them (R635, R639). -/
def unitCount (op kind : Nat) : Nat :=
  if op = mgSET_POWER_PARAM then 5 else [0, 64, 8, 32, 8192, 1, 1].getD kind 0

/-- A unit's generation (R635). -/
def State.unitGen (s : State) (kind unit : Nat) : Nat :=
  if kind = 1 then s.get (hdrGen .core) unit
  else if kind = 2 then s.get (hdrGen .blp) unit
  else if kind = 3 then s.get (hdrGen .blp) (unit / 4)
  else if kind = 4 then (s.slot unit).epoch
  else if kind = 5 then s.get (hdrGen .pwrg)
  else if kind = 6 then s.get (hdrGen .dbgg)
  else 0

/-- CORE_STAT: the fields held, LISTEN_CORE, and RUN_ACTIVE (R298). -/
def State.coreStat (s : State) (c : Nat) : Nat := s.regWord .core c 0xC + 4 * b2n (decide (c < 4)) + 8 * b2n (s.holderOf c).isSome

/-- A unit's status register (R639). -/
def State.unitStat (s : State) (kind unit : Nat) : Nat :=
  if kind = 1 then s.coreStat unit
  else if kind = 2 then s.regWord .blp unit 0xC
  else if kind = 3 then s.regWord .blp (unit / 4) 0xC
  else if kind = 4 then (s.slot unit).word
  else if kind = 5 then s.regWord .pwrg 0 0xC
  else if kind = 6 then s.regWord .dbgg 0 0xC
  else 0

/-! ## Receipt (R632, R633, R637 to R640, R645, R656) -/

/-- A request body (R637). -/
def parseMgmt (op : Nat) (b : List Byte) (epoch : Nat) (key : List Byte) : Mgmt :=
  { opcode := op, kind := le b 3 1, unit := le b 4 2, flags := le b 6 2, gen := le b 8 4, arg := le b 0xC 4, epoch := epoch,
    cmdId := le b 0x18 4, key := key }

/-- TAG holds its value and every reserved bit is zero (R637). -/
def bodyOk (b : List Byte) : Bool := le b 0 2 == 0x4D49 && le b 6 2 < 4 && le b 0x1C 4 == 0

/-- The epoch that carries a command received now (R632). -/
def State.carrier (s : State) : Nat :=
  s.cnt / 1000000000 + (if s.cnt % 1000000000 ≤ 900000000 then 1 else 2)

/-- A response body (R637). -/
def State.answer (s : State) (c : Mgmt) (result genFound : Nat) : List Byte :=
  record [(2, 0x4D49), (1, c.opcode), (1, result), (2, 0), (2, 0), (4, genFound), (4, s.unitStat c.kind c.unit), (8, c.epoch),
    (4, c.cmdId), (4, 0)]

/-- A key slot's state: 0 EMPTY, 1 VALID, 2 REVOKED (R613). -/
def State.keyState (s : State) (k : Nat) : Nat := bits (s.get DBG_KEY_STAT_SLOTS) (2 * k) 2

/-- ARG is in the range of its opcode (R639). -/
def State.argOk (s : State) (c : Mgmt) : Bool :=
  if c.opcode = mgSET_CAP then 10000 ≤ c.arg && c.arg ≤ 75000
  else if c.opcode = mgSET_MODE then c.arg ≤ 4
  else if c.opcode = mgSET_LOCK then c.arg ≤ 1
  else if c.opcode = mgSET_POWER_PARAM then
    c.arg < two ([16, 8, 8, 16, 32].getD c.unit 0)
  else if c.opcode = mgKEY_REVOKE then c.arg ≤ 3
  else if c.opcode = mgKEY_PROGRAM then c.arg ≤ 3 && s.keyState c.arg == 0 && c.key.length == 96
  else c.arg == 0

/-- The refusal found at receipt of a state-changing command (R640); 0 for none. -/
def State.mgmtCheck (s : State) (c : Mgmt) (b : List Byte) : Nat :=
  if !bodyOk b then mrBAD_ARG
  else if s.flag MEMG_STAT_FATAL && !(c.opcode == mgSET_MODE && c.arg == pmOFF) then mrFATAL
  else if !kindOk c.opcode c.kind || unitCount c.opcode c.kind ≤ c.unit then mrBAD_UNIT
  else if !s.argOk c || (bit c.flags 0 && le b 0x10 8 ≤ s.carrier) then mrBAD_ARG
  else if c.opcode = mgSIDE && c.kind = 1 && c.unit < 4 && !bit c.flags 1 then mrLISTEN_CORE
  else if 32 ≤ (s.sb.queue.filter (fun d => d.epoch == c.epoch)).length then mrBUSY
  else 0

/-- The last state-changing command decided (R660). -/
def State.lastCmd (s : State) (c : Mgmt) (result genFound : Nat) : State :=
  let s := ((s.set SB_LAST_CMD_OPCODE c.opcode).set SB_LAST_CMD_RESULT result).set SB_LAST_CMD_KIND c.kind
  ((s.set SB_LAST_UNIT c.unit).set SB_LAST_GEN_SENT c.gen).set SB_LAST_GEN_FOUND genFound

/-- A refusal is counted (R640). -/
def State.mgmtRefused (s : State) : State := (s.bump SB_MGMT_REFUSED).raise SB_INT_STAT_MGMT_REFUSED

/-- A state-changing command arrives (R632, R640); nothing answers while the firmware does not run. -/
def State.mgmtReceive (s : State) (op : Nat) (b : List Byte) (key : List Byte := []) : State :=
  if !s.sbUp then s
  else
    let c := parseMgmt op b (if bit (le b 6 2) 0 then le b 0x10 8 else s.carrier) key
    let found := s.unitGen c.kind c.unit
    let code := s.mgmtCheck c b
    if code ≠ 0 then ((s.mgmtRefused).lastCmd c code found).send (s.answer c code found)
    else (s.modSb (fun x => { x with queue := x.queue ++ [c] })).send (s.answer c mrQUEUED found)

/-- SIDE (R644, R645). -/
def execSide (dt : Nat) (body : List Byte) (s : State) : Out := s.done ((s.elapse dt).mgmtReceive mgSIDE body)
/-- RETURN (R644). -/
def execReturnUnit (dt : Nat) (body : List Byte) (s : State) : Out := s.done ((s.elapse dt).mgmtReceive mgRETURN body)
/-- TEARDOWN (R646). -/
def execTeardown (dt : Nat) (body : List Byte) (s : State) : Out := s.done ((s.elapse dt).mgmtReceive mgTEARDOWN body)
/-- SET_CAP (R643). -/
def execSetCap (dt : Nat) (body : List Byte) (s : State) : Out := s.done ((s.elapse dt).mgmtReceive mgSET_CAP body)
/-- SET_MODE (R639). -/
def execSetMode (dt : Nat) (body : List Byte) (s : State) : Out := s.done ((s.elapse dt).mgmtReceive mgSET_MODE body)
/-- SET_LOCK (R639). -/
def execSetLock (dt : Nat) (body : List Byte) (s : State) : Out := s.done ((s.elapse dt).mgmtReceive mgSET_LOCK body)
/-- SET_POWER_PARAM (R639). -/
def execSetPowerParam (dt : Nat) (body : List Byte) (s : State) : Out := s.done ((s.elapse dt).mgmtReceive mgSET_POWER_PARAM body)
/-- KEY_REVOKE (R639). -/
def execKeyRevoke (dt : Nat) (body : List Byte) (s : State) : Out := s.done ((s.elapse dt).mgmtReceive mgKEY_REVOKE body)
/-- KEY_PROGRAM (R639). -/
def execKeyProgram (dt : Nat) (body key : List Byte) (s : State) : Out := s.done ((s.elapse dt).mgmtReceive mgKEY_PROGRAM body key)

/-- GET_UNIT is answered at once (R639). -/
def State.getUnit (s : State) (b : List Byte) : State :=
  if !s.sbUp then s
  else
    let c := parseMgmt mgGET_UNIT b (le b 0x10 8) []
    let code :=
      if !bodyOk b then mrBAD_ARG
      else if !kindOk mgGET_UNIT c.kind || unitCount mgGET_UNIT c.kind ≤ c.unit then mrBAD_UNIT
      else if c.arg ≠ 0 then mrBAD_ARG else 0
    s.send (s.answer c code (s.unitGen c.kind c.unit))

/-- GET_UNIT (R639). -/
def execGetUnit (dt : Nat) (body : List Byte) (s : State) : Out := s.done ((s.elapse dt).getUnit body)

/-- GET_SNAPSHOT (R638, R641). -/
def State.getSnapshot (s : State) (b : List Byte) : State :=
  if !s.sbUp then s
  else
    let c := { parseMgmt mgGET_SNAPSHOT b (le b 0x10 8) [] with kind := 0 }
    let hit := s.sb.snaps.find? (fun x => x.1 == c.epoch && x.2.1 + 200000000 ≤ s.cnt)
    match hit with
    | some x => if bodyOk b && c.arg = 0 then s.send (s.answer c mrAPPLIED 0 ++ x.2.2) else s.send (s.answer c mrBAD_ARG 0)
    | none => s.send (s.answer c mrBAD_ARG 0)

/-- GET_SNAPSHOT (R638). -/
def execGetSnapshot (dt : Nat) (body : List Byte) (s : State) : Out := s.done ((s.elapse dt).getSnapshot body)

/-- GET_RESULT (R638, R640): a command still queued reads QUEUED with TIME 0. -/
def State.getResult (s : State) (b : List Byte) : State :=
  if !s.sbUp then s
  else
    let id := le b 0x18 4
    let asked := fun (c : Mgmt) => { c with opcode := mgGET_RESULT }
    let bad := s.send (s.answer { parseMgmt mgGET_RESULT b (le b 0x10 8) [] with kind := 0 } mrBAD_ARG 0)
    if !bodyOk b || le b 0xC 4 ≠ 0 then bad
    else match s.sb.queue.reverse.find? (fun c => c.cmdId == id), s.sb.results.find? (fun r => r.cmd.cmdId == id) with
      | some c, _ => s.send (s.answer (asked c) mrQUEUED (s.unitGen c.kind c.unit) ++ zeros 8)
      | none, some r => s.send (s.answer (asked r.cmd) r.result r.genFound ++ toLe 8 r.time)
      | none, none => bad

/-- GET_RESULT (R638). -/
def execGetResult (dt : Nat) (body : List Byte) (s : State) : Out := s.done ((s.elapse dt).getResult body)

/-! ## The apply boundary (R632 to R636, R640, R643 to R646, R652 to R655, R658) -/

/-- A later command of the same epoch names the same unit (R633); POWER and DEBUG have one unit each. -/
def Mgmt.samePlace (c d : Mgmt) : Bool := c.epoch == d.epoch && c.kind == d.kind && (4 < c.kind || c.unit == d.unit)

/-- The signal box request of a unit stands (R644). -/
def State.sbRequest (s : State) (kind unit : Nat) : Bool :=
  if kind = 1 then s.flag CORE_STAT_REQ_SB unit
  else if kind = 2 then bit (s.get BL_PORT_STAT_REQ unit) 1
  else bit (s.blPort (unit / 4)).laneSb (unit % 4)

/-- The command finds nothing to do (R640). -/
def State.notApplicable (s : State) (c : Mgmt) : Bool :=
  (c.opcode == mgTEARDOWN && (s.slot c.unit).state == .free) || (c.opcode == mgRETURN && !s.sbRequest c.kind c.unit)

/-- The results of the commands due, each with those received after it, found on the state before the boundary (R633, R636). -/
def State.mgmtDecide (s : State) : List Mgmt → List (Mgmt × Nat)
  | [] => []
  | c :: l =>
    let r := if l.any c.samePlace then mrSUPERSEDED
      else if s.unitGen c.kind c.unit ≠ c.gen then mrSTALE_GEN
      else if s.notApplicable c then mrNOT_APPLICABLE
      else if c.opcode = mgKEY_PROGRAM && s.keyState c.arg ≠ 0 then mrBAD_ARG else mrAPPLIED
    (c, r) :: s.mgmtDecide l

/-- The signal box sets or clears its request of a unit (R644). -/
def State.putRequest (s : State) (kind unit : Nat) (v : Bool) : State :=
  if kind = 1 then s.setGen CORE_STAT_REQ_SB (b2n v) unit
  else if kind = 2 then
    let r := s.get BL_PORT_STAT_REQ unit
    s.setGen BL_PORT_STAT_REQ (r - (r &&& 2) + 2 * b2n v) unit
  else s.modBlPort (unit / 4) (fun q => { q with laneSb := q.laneSb - (q.laneSb &&& two (unit % 4)) + (if v then two (unit % 4) else 0) })

/-- A key slot changes state (R613, R616). -/
def State.putKey (s : State) (k st : Nat) : State :=
  let w := s.get DBG_KEY_STAT_SLOTS
  s.setGen DBG_KEY_STAT_SLOTS (w - bits w (2 * k) 2 * two (2 * k) + st * two (2 * k))

/-- The register that SET_POWER_PARAM names (R639). -/
def State.putParam (s : State) (unit v : Nat) : State :=
  if unit = 0 then s.set PWR_MARGIN_MW v
  else if unit = 1 then s.set PWR_TJ_MAX v
  else if unit = 2 then s.set PWR_AMBIENT v
  else if unit = 3 then s.set PWR_ECYC v
  else (s.set PWR_THERM_CD_ALPHA v).set PWR_THERM_CD_RTH (v / two 16)

/-- The effect of a command at A_e (R639). -/
def State.mgmtEffect (s : State) (c : Mgmt) : State :=
  if c.opcode = mgSIDE then s.putRequest c.kind c.unit true
  else if c.opcode = mgRETURN then s.putRequest c.kind c.unit false
  else if c.opcode = mgTEARDOWN then (s.modSlot c.unit (fun q => { q with tearReq := true })).raise SB_INT_STAT_TEARDOWN
  else if c.opcode = mgSET_CAP then (s.setGen PWR_CAP_MW c.arg).raise SB_INT_STAT_CAP_CHANGED
  else if c.opcode = mgSET_MODE then s.requestMode true c.arg 0
  else if c.opcode = mgSET_LOCK then s.setGen PWRG_CTL_HOST_LOCK c.arg
  else if c.opcode = mgSET_POWER_PARAM then s.putParam c.unit c.arg
  else if c.opcode = mgKEY_REVOKE then
    (s.putKey c.arg 2).onlyIf (s.get DBGG_STAT_OPEN != 0 && s.iso.openSlot == c.arg) State.closeGate
  else (s.putKey c.arg 1).modIso (fun x => { x with keys := Map.put c.arg c.key x.keys })

/-- The record of R650 learns of an own applied command. -/
def Sb.own (x : Sb) (c : Mgmt) : Sb :=
  if c.kind = 0 || 3 < c.kind then x
  else
    let k := if c.kind = 1 then c.unit else if c.kind = 2 then 64 + c.unit else 64 + c.unit / 4
    let v := Map.get x.view k (0, 0)
    { x with view := Map.put k (v.1, v.2 + 1) x.view }

/-- One decided command: its effect, its counts, its outcome sent and kept (R636, R640); `found` is the generation before A_e. -/
def State.mgmtOne (pre s : State) (d : Mgmt × Nat) : State :=
  let c := d.1
  let found := pre.unitGen c.kind c.unit
  let s := if d.2 = mrAPPLIED then
      (((s.mgmtEffect c).bump SB_MGMT_ACCEPTED).raise SB_INT_STAT_MGMT_APPLIED).modSb (fun x => x.own c)
    else if d.2 = mrSUPERSEDED then s
    else (s.onlyIf (d.2 == mrSTALE_GEN) (fun u => u.bump SB_STALE)).mgmtRefused
  let s := s.lastCmd c d.2 found
  let s := s.modSb (fun x => { x with results := { cmd := c, result := d.2, genFound := found, time := s.cnt } :: x.results })
  s.notify 3 (s.answer c d.2 found ++ toLe 8 s.cnt)

/-- The tick index of tick m within its second (R45). -/
def State.tickIndex (s : State) (m : Nat) : Nat := s.tickAt m % 1000000000 / s.periodNs

/-- What the boundary of tick m does with the management queue (R632, R634, R658). -/
def State.mgmtBoundary (s pre : State) (m : Nat) : State :=
  if s.tickIndex m ≠ 1 then s
  else
    let e := s.tickAt m / 1000000000
    let due := s.sb.queue.filter (fun c => c.epoch ≤ e)
    let s := s.modSb (fun x => { x with queue := x.queue.filter (fun c => e < c.epoch), results := x.results.filter (fun r => e < r.cmd.epoch + 16) })
    (pre.mgmtDecide due).foldl pre.mgmtOne s

/-! ## Telemetry (R641, R642, R650) -/

/-- The figures of the epoch under way take in the tick that ended (R641). -/
def State.figures (s : State) : State :=
  let w := s.get PWR_PKG_MW
  s.modSb (fun x => { x with pkgSum := x.pkgSum + w, pkgN := x.pkgN + 1, pkgPeak := max x.pkgPeak w, cdMax := max x.cdMax (s.getS PWR_TEMP_CD),
                             sdMax := max x.sdMax (s.getS PWR_TEMP_SD) })

/-- The counters whose increase a snapshot holds (R641): misses, CEs, UEs, imbalances. -/
def State.baseNow (s : State) : List Nat :=
  [s.get TT_MISS_TOTAL, (s.get MEM_CE_SRAM + s.get MEM_CE_DRAM) % two 32, s.get MEM_UE, s.get LED_IMBALANCES]

/-- Units of R650: cores 0 to 63, then ports. -/
def reconUnits : List (Nat × Nat × Nat) :=
  (List.range 64).map (fun i => (i, 1, i)) ++ (List.range 8).map (fun p => (64 + p, 2, p))

/-- A unit's generation has moved by more than its own applied commands account for (R650). -/
def State.disagrees (s : State) (u : Nat × Nat × Nat) : Bool :=
  let v := Map.get s.sb.view u.1 (0, 0)
  v.2 < idxSub (s.unitGen u.2.1 u.2.2) v.1

/-- One core's and one port's entry of the snapshot (R641). -/
def State.coreEntry (s : State) (i : Nat) : List Byte :=
  record [(4, s.unitGen 1 i), (1, s.coreStat i % 128), (1, b2n (s.disagrees (i, 1, i))), (2, 0)]
def State.portEntry (s : State) (p : Nat) : List Byte :=
  record [(4, s.unitGen 2 p), (1, s.blState p + 8 * s.get BL_PORT_STAT_WIDTH p), (1, s.get BL_PORT_STAT_LANES_OK p),
    (1, b2n (s.disagrees (64 + p, 2, p))), (1, 0)]

/-- Mean package power over the epoch (R641). -/
def Sb.mean (x : Sb) : Nat := if x.pkgN = 0 then 0 else (rneDiv (x.pkgSum : Int) x.pkgN).toNat

/-- The increases since the epoch began. -/
def State.deltas (s : State) : List Nat := List.zipWith idxSub s.baseNow s.sb.base

/-- Slots in a state. -/
def State.slotsIn (s : State) (st : SlotState) : Nat := (s.slots.filter (fun e => e.2.state == st)).length

/-- The snapshot of epoch e (R641). -/
def State.snapshot (s : State) (e : Nat) : List Byte :=
  let x := s.sb
  let d := s.deltas
  let flags := b2n (s.flag MEMG_STAT_FATAL) + 2 * b2n (s.flag ISOG_STAT_PROMISE) + 4 * b2n (s.flag PWRG_STAT_CAP_UNREACHABLE) +
    8 * b2n (s.flag PWRG_STAT_THERMAL) + 16 * b2n x.restarted + 32 * b2n (s.get DBGG_STAT_OPEN != 0)
  record [(4, 0x4D494D54), (2, 1), (2, 640), (8, e), (1, s.get HT_STAT_STATE), (1, s.get PWRG_STAT_MODE), (1, flags), (1, 0),
    (4, s.get PWR_CAP_MW), (4, x.mean), (4, x.pkgPeak), (2, ofS 16 x.cdMax), (2, ofS 16 x.sdMax), (4, d.getD 0 0), (4, d.getD 1 0),
    (4, d.getD 2 0), (4, d.getD 3 0), (2, s.slotsIn .listen), (2, s.slotsIn .transcribe), (8, 0)] ++
  (List.range 64).flatMap s.coreEntry ++ (List.range 8).flatMap s.portEntry

/-- The readings of the numeric sensors, in the order of R642: power mean and peak, the two temperatures, eight rails, misses, CEs,
UEs. -/
def State.readings (s : State) : List Int :=
  let x := s.sb
  let d := s.deltas
  [(x.mean : Int), x.pkgPeak, x.cdMax, x.sdMax] ++ (List.range 8).map (fun i => (s.get PWR_RAIL_MW 0 i : Int)) ++
  (d.take 3).map Int.ofNat

/-- A unit in disagreement: the data path's state stands, and the record follows it (R650). -/
def State.reconcile (s : State) (u : Nat × Nat × Nat) : State :=
  let g := s.unitGen u.2.1 u.2.2
  let s := s.onlyIf (s.disagrees u) (fun v =>
    ((v.bump SB_DISAGREE).raise SB_INT_STAT_DISAGREE).notify 4 (record [(1, u.2.1), (2, u.2.2), (4, g)]))
  s.modSb (fun x => { x with view := Map.put u.1 (g, 0) x.view })

/-- The epoch boundary E_e, the start of tick m (R641, R650, R660); no snapshot is taken while the firmware does not run (R634). -/
def State.epochBoundary (s : State) (m : Nat) : State :=
  if s.tickIndex m ≠ 0 then s
  else
    let e := s.tickAt m / 1000000000
    let s := if !s.sbUp then s
      else
        let b := s.snapshot e
        let r := s.readings
        let s := reconUnits.foldl State.reconcile s
        let s := s.modSb (fun x => { x with snaps := ((e, s.cnt, b) :: x.snaps).take 4, epoch := e, restarted := false, sensors := r })
        s.set2 SB_EPOCH_LO SB_EPOCH_HI e
    let base := s.baseNow
    s.modSb (fun x => { x with pkgSum := 0, pkgN := 0, pkgPeak := 0, cdMax := -32768, sdMax := -32768, base := base })

/-- SB_EPOCH_LO, and SB_LAST_CMD, with what they latch (R660). -/
def State.readEpoch (s : State) (p : Party) : State := (s.latch p SB_EPOCH_HI (s.get SB_EPOCH_HI)).returns (s.get SB_EPOCH_LO)
def State.readLast (s : State) (p : Party) : State :=
  let s := ((s.latch p SB_LAST_UNIT (s.get SB_LAST_UNIT)).latch p SB_LAST_GEN_SENT (s.get SB_LAST_GEN_SENT)).latch p SB_LAST_GEN_FOUND
    (s.get SB_LAST_GEN_FOUND)
  s.returns (s.regWord .sb 0 0x124)

/-- SB_EPOCH_LO_READ (R660). -/
def execSbEpochLoRead (dt : Nat) (p : Party) (s : State) : Out :=
  s.done ((s.elapse dt).reading p .sb 0 (fun u => u.readEpoch p))

/-- SB_LAST_CMD_READ (R660). -/
def execSbLastCmdRead (dt : Nat) (p : Party) (s : State) : Out :=
  s.done ((s.elapse dt).reading p .sb 0 (fun u => u.readLast p))

/-! ## MCTP control and PLDM monitoring (R630, R640, R642, R656, R676) -/

/-- The MCTP endpoint answers: from STAGE 1 on, in recovery too, and not while the firmware restarts (R669, R672). -/
def State.endpointUp (s : State) : Bool := 1 ≤ s.get SB_STAT_STAGE && !s.flag SB_STAT_RESTARTING

/-- SET_ENDPOINT_ID (R630): the null and the broadcast Endpoint ID are turned away. PRESUMED: as DSP0236 has it. -/
def State.setEid (s : State) (eid : Byte) : State :=
  if !s.endpointUp then s
  else if eid = 0 || eid = 255 then s.send [2]
  else (((s.set SB_EID_EID eid.toNat).set SB_STAT_EID_ASSIGNED 1)).send [0, 0, eid]

/-- SET_ENDPOINT_ID (R630). -/
def execSetEndpointId (dt : Nat) (eid : Byte) (s : State) : Out := s.done ((s.elapse dt).setEid eid)

/-- DYNAMIC_ADDRESS_ASSIGNMENT (R676): on I3C alone. -/
def execDynamicAddressAssignment (dt : Nat) (addr : Fin 128) (s : State) : Out :=
  let t := s.elapse dt
  s.done (if t.endpointUp && t.get SB_STAT_TRANSPORT = 1 then t.set SB_EID_I3C_ADDR addr else t)

/-- EVENT_RECEIVER_REGISTRATION (R640). -/
def execEventReceiverRegistration (dt : Nat) (eid : Byte) (s : State) : Out :=
  let t := s.elapse dt
  s.done (if t.sbUp then (t.modSb (fun x => { x with receiver := some eid.toNat })).send [0] else t)

/-- A PLDM answer of the firmware (R642). -/
def State.pldm (s : State) (b : State → List Byte) : State := if s.sbUp then s.send (b s) else s

/-- GET_PDR (R642): what the records hold is not stated. -/
def execGetPdr (dt : Nat) (handle : Nat) (s : State) : Out :=
  s.done ((s.elapse dt).pldm (fun _ => match Config.pdr handle with
    | some b => 0 :: b
    | none => [0x82]))

/-- GET_SENSOR_READING (R642): a 32-bit reading; 0x80 for a sensor there is not. -/
def execGetSensorReading (dt : Nat) (sensor : Nat) (s : State) : Out :=
  s.done ((s.elapse dt).pldm (fun t => if sensor < 15 then 0 :: toLe 4 (ofS 32 (t.sb.sensors.getD sensor 0)) else [0x80]))

/-- GET_STATE_SENSOR_READINGS (R642): 0 power mode, 1 house-time state, 2 FATAL. -/
def execGetStateSensorReadings (dt : Nat) (sensor : Nat) (s : State) : Out :=
  s.done ((s.elapse dt).pldm (fun t =>
    if sensor = 0 then [0, BitVec.ofNat 8 (t.get PWRG_STAT_MODE)]
    else if sensor = 1 then [0, BitVec.ofNat 8 (t.get HT_STAT_STATE)]
    else if sensor = 2 then [0, BitVec.ofNat 8 (t.get MEMG_STAT_FATAL)]
    else [0x80]))

/-! ## SPDM (R611, R631) -/

/-- Messages of SPDM 1.2 begin with version, code and two parameters. PRESUMED: the codes are those of DSP0274. -/
def spdmMsg (code p1 p2 : Nat) (rest : List Byte) : List Byte := record [(1, 0x12), (1, code), (1, p1), (1, p2)] ++ rest
/-- ERROR: 1 InvalidRequest, 4 UnexpectedRequest. -/
def spdmErr (code : Nat) : List Byte := spdmMsg 0x7F code 0 []

/-- An answer in a state of at least `need`. -/
def State.spdmIn (s : State) (need : Nat) (f : State → State) : State :=
  if !s.endpointUp then s else if s.sb.spdm < need then s.send (spdmErr 4) else f s

/-- GET_VERSION (R631): version 1.2, and the exchange begins again. -/
def execGetVersion (dt : Nat) (s : State) : Out :=
  s.done ((s.elapse dt).spdmIn 0 (fun t => (t.modSb (fun x => { x with spdm := 1 })).send
    (record [(1, 0x10), (1, 4), (1, 0), (1, 0), (1, 0), (1, 1), (2, 0x1200)])))

/-- GET_CAPABILITIES (R631): CERT_CAP, CHAL_CAP, MEAS_CAP with signature; messages up to 4,096 bytes (R630). -/
def execGetCapabilities (dt : Nat) (s : State) : Out :=
  s.done ((s.elapse dt).spdmIn 1 (fun t => (t.modSb (fun x => { x with spdm := max 2 x.spdm })).send
    (spdmMsg 0x61 0 0 ([0, Config.spdmTimeout, 0, 0] ++ record [(4, 2 + 4 + 16), (4, 4096), (4, 4096)]))))

/-- NEGOTIATE_ALGORITHMS (R631): ECDSA P-384 is bit 7 of the asymmetric algorithms, SHA-384 bit 1 of the hashes and bit 2 of the
measurement hashes; what the requester does not offer is not selected. -/
def execNegotiateAlgorithms (dt : Nat) (asym hash : Nat) (s : State) : Out :=
  s.done ((s.elapse dt).spdmIn 2 (fun t =>
    let ok := bit asym 7 && bit hash 1
    (t.modSb (fun x => { x with spdm := if ok then 3 else x.spdm })).send
      (spdmMsg 0x63 0 0 (record [(2, 36), (1, 1), (1, 0), (4, 4), (4, 128 * b2n (bit asym 7)), (4, 2 * b2n (bit hash 1)), (12, 0), (4, 0)]))))

/-- SHA-384 of a byte string as bytes. -/
def sha (b : List Byte) : List Byte := toLe 48 (Config.sha384 b).toNat

/-- GET_DIGESTS (R631): slot 0 alone holds a chain. -/
def execGetDigests (dt : Nat) (s : State) : Out :=
  s.done ((s.elapse dt).spdmIn 3 (fun t => t.send (spdmMsg 1 0 1 (sha Config.certChain))))

/-- GET_CERTIFICATE (R631). -/
def execGetCertificate (dt : Nat) (slot off len : Nat) (s : State) : Out :=
  s.done ((s.elapse dt).spdmIn 3 (fun t =>
    let c := Config.certChain
    if slot ≠ 0 || c.length ≤ off then t.send (spdmErr 1)
    else
      let b := (c.drop off).take len
      t.send (spdmMsg 2 0 0 (record [(2, b.length), (2, c.length - off - b.length)] ++ b))))

/-- A fresh nonce and a signature end a signed answer. -/
def State.signed (s : State) (b : List Byte) : State :=
  let d := s.draw
  d.2.send (b ++ toLe 32 (Config.random d.1) ++ zeros 2 ++ fit 96 (Config.signature d.1))

/-- CHALLENGE (R631). -/
def execChallenge (dt : Nat) (_nonce : List Byte) (s : State) : Out :=
  s.done ((s.elapse dt).spdmIn 3 (fun t => t.signed (spdmMsg 3 0 1 (sha Config.certChain))))

/-- Measurement k of R611. -/
def State.measurement (s : State) (k : Nat) : List Byte :=
  if k = 5 then
    fit 48 (Config.fuseMeasurement [s.get SB_ANTIROLLBACK_SB, s.get SB_ANTIROLLBACK_SD, s.get SB_ANTIROLLBACK_CD] (s.get DBG_KEY_STAT_SLOTS)
      ((List.range 4).map (fun i => Map.get s.iso.keys i [])))
  else s.sb.meas.getD (k - 1) (zeros 48)

/-- A measurement block: a digest of 48 bytes. -/
def State.measBlock (s : State) (k : Nat) : List Byte := record [(1, k), (1, 1), (2, 51), (1, 1), (2, 48)] ++ s.measurement k

/-- GET_MEASUREMENTS (R631): index 0 asks how many there are, 255 asks for all. -/
def execGetMeasurements (dt : Nat) (index : Nat) (_nonce : List Byte) (s : State) : Out :=
  s.done ((s.elapse dt).spdmIn 3 (fun t =>
    if index = 0 then t.signed (spdmMsg 0x60 6 0 (zeros 4))
    else if index ≤ 6 || index = 255 then
      let l := if index = 255 then [1, 2, 3, 4, 5, 6] else [index]
      let b := l.flatMap t.measBlock
      t.signed (spdmMsg 0x60 0 0 (record [(1, l.length), (3, b.length)] ++ b))
    else t.send (spdmErr 1)))

/-! ## Firmware update (R647 to R649, R653, R683) -/

/-- A PLDM firmware update message: its DSP0267 code and a completion code. -/
def State.fwSay (s : State) (code result : Nat) : State := s.send [BitVec.ofNat 8 code, BitVec.ofNat 8 result]

/-- A request of the update agent, in the update state it needs; 0x80 and 0x81 are the completion codes for not in, and already in, an
update, 0x84 for one in another state. -/
def State.fwIn (s : State) (code : Nat) (c : Nat → Nat) (f : State → State) : State :=
  if !s.endpointUp then s
  else
    let r := c s.sb.update
    if r = 0 then f s else s.fwSay code r

/-- REQUEST_UPDATE (R647). -/
def execRequestUpdate (dt : Nat) (_maxTransfer _components : Nat) (s : State) : Out :=
  s.done ((s.elapse dt).fwIn 0x10 (fun u => if u = 0 then 0 else 0x81) (fun t =>
    ((t.modSb (fun x => { x with update := 1, table := [] })).set SB_STAT_UPDATE_ACTIVE 1).fwSay 0x10 0))

/-- Components of R647. -/
def fwComponent (id : Nat) : Bool := 1 ≤ id && id ≤ 3

/-- PASS_COMPONENT_TABLE (R647). -/
def execPassComponentTable (dt : Nat) (id version : Nat) (s : State) : Out :=
  s.done ((s.elapse dt).fwIn 0x13 (fun u => if u = 0 then 0x80 else if 2 < u then 0x84 else 0) (fun t =>
    if fwComponent id then (t.modSb (fun x => { x with update := 2, table := x.table ++ [(id, version)] })).fwSay 0x13 0 else t.fwSay 0x13 2))

/-- UPDATE_COMPONENT (R647): the transfer of a component of the table begins. -/
def execUpdateComponent (dt : Nat) (id version size : Nat) (s : State) : Out :=
  s.done ((s.elapse dt).fwIn 0x14 (fun u => if u = 0 then 0x80 else if u = 2 then 0 else 0x84) (fun t =>
    if t.sb.table.any (fun e => e.1 == id) then
      ((t.modSb (fun x => { x with update := 3, comp := id, staged := Map.put id { version := version, size := size } x.staged })).set
        SB_FW_STAGED 0 0 (id - 1)).fwSay 0x14 0
    else t.fwSay 0x14 2))

/-- Bytes put at an offset. -/
def putBytes (m : Map Byte) (off : Nat) (d : List Byte) : Map Byte := ((List.range d.length).zip d).foldl (fun m e => Map.put (off + e.1) e.2 m) m

/-- The whole image. -/
def Staged.bytes (x : Staged) : List Byte := x.data.map (fun e => e.2)

/-- The anti-rollback count of a component (R610). -/
def State.antiRollback (s : State) (id : Nat) : Nat :=
  s.get (if id = 1 then SB_ANTIROLLBACK_SB else if id = 2 then SB_ANTIROLLBACK_SD else SB_ANTIROLLBACK_CD)

/-- An image is whole: it is verified (R610, R647). -/
def State.fwVerify (s : State) (id : Nat) (x : Staged) : State :=
  let s := (s.modSb (fun y => { y with update := 2 })).fwSay 0x16 0
  if Config.imageOk id x.bytes && s.antiRollback id ≤ x.version then
    let s := s.modSb (fun y => { y with staged := Map.put id { x with verified := true } y.staged })
    (((s.set SB_FW_STAGED x.version 0 (id - 1)).raise SB_INT_STAT_FW_STAGED).fwSay 0x17 0).fwSay 0x18 0
  else (s.modSb (fun y => { y with staged := Map.del id y.staged })).fwSay 0x17 1

/-- REQUEST_FIRMWARE_DATA (R647): data beyond the image's size is turned away. -/
def State.fwData (s : State) (off : Nat) (d : List Byte) : State :=
  let id := s.sb.comp
  let x := Map.get s.sb.staged id { version := 0, size := 0 }
  if x.size < off + d.length then s.fwSay 0x15 0x83
  else
    let y := { x with data := putBytes x.data off d }
    let s := s.modSb (fun q => { q with staged := Map.put id y q.staged })
    if y.data.length = y.size then s.fwVerify id y else s

/-- REQUEST_FIRMWARE_DATA (R647). -/
def execRequestFirmwareData (dt : Nat) (off : Nat) (data : List Byte) (s : State) : Out :=
  s.done ((s.elapse dt).fwIn 0x15 (fun u => if u = 0 then 0x80 else if u = 3 then 0 else 0x84) (fun t => t.fwData off data))

/-- The signal box firmware stops, to start on its new bank (R648, R649, R653). -/
def State.sbStops (s : State) : State :=
  (s.modSb (fun x => { x with queue := [], results := if x.receiver.isSome then x.results else [], spdm := 0 })).set SB_STAT_RESTARTING 1

/-- Verified images are activated (R648); in recovery every one waits for the next T0 (R672). -/
def State.activateFw (s : State) : State :=
  let ids := (s.sb.staged.filter (fun e => e.2.verified && !e.2.active)).map (fun e => e.1)
  if ids.isEmpty then s.fwSay 0x1A 0x84
  else
    let s := s.modSb (fun x => { x with update := 0, staged := x.staged.map (fun e => (e.1, { e.2 with active := e.2.active || e.2.verified })) })
    let s := ((s.closeGate.bump SB_FW_ACTIVATIONS).set SB_STAT_UPDATE_ACTIVE 0).fwSay 0x1A 0
    let s := s.onlyIf (ids.any (fun i => i != 1)) (fun u => u.set SB_STAT_ACTIVATION_PENDING 1)
    s.onlyIf (ids.contains 1 && s.sbUp) State.sbStops

/-- ACTIVATE_FIRMWARE (R648). -/
def execActivateFirmware (dt : Nat) (s : State) : Out :=
  s.done ((s.elapse dt).fwIn 0x1A (fun u => if u = 0 then 0x80 else if u = 2 then 0 else 0x84) State.activateFw)

/-- The image of a staged component (R610). -/
def Staged.image (x : Staged) (id : Nat) : FwImage := { version := x.version, commit := Config.imageCommits id x.bytes, digest := sha x.bytes }

/-- A component has booted from an image flagged to commit (R648). -/
def State.commitFw (s : State) (id : Nat) (g : FwImage) : State :=
  let f := if id = 1 then SB_ANTIROLLBACK_SB else if id = 2 then SB_ANTIROLLBACK_SD else SB_ANTIROLLBACK_CD
  s.onlyIf g.commit (fun u => u.set f (max (u.get f) g.version))

/-- The firmware starts on the image that was staged for it, or on the bank before where that does not verify (R648). -/
def State.sbStarts (s : State) : State :=
  let d := s.draw
  let s := d.2
  let s := match Map.find s.sb.staged 1 with
    | none => s
    | some x =>
      let s := (s.modSb (fun y => { y with staged := Map.del 1 y.staged })).set SB_FW_STAGED 0
      if Config.bootOk d.1 then
        let g := x.image 1
        let fw := s.pkg.fw.map (fun (f : FwImages) => { f with sb := g })
        let s : State := { s with pkg := { s.pkg with fw := fw } }
        ((s.modSb (fun y => { y with meas := y.meas.set 1 g.digest })).set SB_FW_RUN g.version).commitFw 1 g
      else s.set SB_STAT_ROLLED_BACK 1
  let s := (s.set SB_STAT_RESTARTING 0).bump SB_RESTARTS
  (s.modSb (fun y => { y with restarted := true })).raise SB_INT_STAT_SB_RESTART

/-- SB_RESTART (R649): nothing happens while no restart is under way. -/
def execSbRestart (dt : Nat) (s : State) : Out :=
  let t := s.elapse dt
  s.done (if t.flag SB_STAT_RESTARTING then t.sbStarts else t)

end Sys2Proof.Machine
end

