-- ==== Sys2Proof/Machine/Reset.lean ====
section
/-! DEFINITION. Machine/Reset.lean: resets and bring-up (17_reset_and_bring_up.md; R156 to R158, R165, R710 to R712, R733, R749). -/
namespace Sys2Proof.Machine

def State.modPkg (s : State) (f : Pkg → Pkg) : State := { s with pkg := f s.pkg }

/-! ## Reset domains (R710 to R712) -/

/-- A register of the page is CHIP (R711). -/
def chipReg (p : Page) (off : Nat) : Bool :=
  if off = 0x10 || off = 0x14 || off = 0x1C then (match p with
    | .pkgi | .pkgb => true
    | .ht | .tt | .str | .fe | .apt | .ixp | .core | .ring | .prog | .felt | .gx | .sol | .blg | .blp | .cal | .pwrg | .pwrt | .memg | .memt
    | .ledg | .ledt | .isog | .isot | .dbgg | .dbgw | .blt | .sb => false)
  else if off < 8 || off = 0x20 || off = 0x24 then true
  else match p with
    | .pkgi | .pkgb | .ht | .tt | .core | .blg | .blp | .pwrg | .memg | .ledg | .isog | .dbgg | .dbgw | .sb | .apt | .ixp | .ledt => true
    | .ring | .prog | .blt | .pwrt | .memt => false
    | .str => [0x100, 0x140, 0x144, 0x148].contains off
    | .fe => [0x200, 0x204, 0x208].contains off
    | .felt => [0x100, 0x20C, 0x210].contains off
    | .gx => [0x100, 0x104, 0x108, 0x10C, 0x110, 0x200, 0x204, 0x208].contains off
    | .sol => [0x134, 0x138, 0x13C, 0x140].contains off
    | .cal => decide (off = 0x100)
    | .isot => decide (off = 0x100)

/-- The register is storage: anything but a read-only report of device state; counters and every RING_ register count (R710, R711). -/
def storageReg (p : Page) (off lo : Nat) : Bool :=
  off < 0x100 || decide (p = .ring) ||
  p.rows.any (fun r => r.fld.lo == lo && r.fld.off ≤ off && off < r.fld.off + 4 * r.n && (off - r.fld.off) % 4 == 0 && r.acc != .ro && r.acc != .rol)

/-- An entry of the register file that a reset of function f returns to its reset value. -/
def State.funcReg (s : State) (f key : Nat) : Bool :=
  match pageAt (key / 32 / 0x1000) with
  | some (p, i) =>
    let off := key / 32 % 0x1000
    s.owner p i == f && !chipReg p off && off != 0xC && storageReg p off (key % 32)
  | none => false

/-- A pending value that the reset of function f discards (R712). -/
def State.funcPend (s : State) (f : Nat) (q : Pend) : Bool :=
  s.owner q.fld.page q.inst == f && (!chipReg q.fld.page q.fld.off || q.writer == f)

/-- The FUNC registers of function f return to their reset values (R710 to R712). -/
def State.funcReset (s : State) (f : Nat) : State :=
  { s with regs := s.regs.filter (fun e => !s.funcReg f e.1), pend := s.pend.filter (fun q => !s.funcPend f q) }

/-! ## Function-level reset (R156, R157, R665, R715) -/

/-- A ring is DISABLED, with indices zero and nothing outstanding (R139, R157). -/
def State.disableRing (s : State) (r : Nat) : State :=
  let s := (((s.setGen RING_STAT_STATE 0 r).set RING_HOST_IDX 0 r).set RING_DEV_IDX 0 r).set RING_HELD 0 r
  { s.set RING_CTL_ENABLE 0 r with rings := Map.del r s.rings, pend := s.pend.filter (fun q => !(decide (q.fld = RING_CTL_ENABLE) && q.inst == r)) }

/-- The rings bound to function f. -/
def State.ringsOf (s : State) (f : Nat) : List Nat := (List.range 512).filter (fun r => s.owner .ring r == f)

/-- A pending store of a received transfer is discarded: the transfer fails (R486). -/
def State.discardStore (s : State) (x : Store) : State :=
  match x.note with
  | .transfer src t => s.xferAnswer src t xfWRITE
  | .none | .completion _ _ _ _ _ | .result _ _ => s

/-- The stores of function f are discarded (R156). -/
def State.discardStores (s : State) (f : Nat) : State :=
  (s.stores.filter (fun x => x.fn == f)).foldl State.discardStore { s with stores := s.stores.filter (fun x => x.fn != f) }

/-- Page commands of function f that still need the host end with FETCH (R715). -/
def State.endFetches (s : State) (f : Nat) : State :=
  let s := match Map.find s.progCmds f with
    | some q => if q.kind = 1 then s.loadDone f q none else if q.kind = 3 then s.reloadFetched f q none else s
    | none => s
  let s := match Map.find s.binds f with
    | some b => if b.ready || b.dev then s else s.beamFetched f b none
    | none => s
  let s := match Map.find s.gx.cmds f with
    | some c => if c.kind = 0 || c.kind = 4 || c.kind = 5 then s.gxEnd f c none else s
    | none => s
  let s := match Map.find s.sol.cmds f with
    | some c => if c.kind = 0 then s.solLoaded f c none else if c.kind = 2 then s.solChecked f c none else s
    | none => s
  let s := match Map.find s.bl.xfers f with
    | some x => if x.state = 1 then (s.xferClear f).xferFail f xfFETCH else s
    | none => s
  match s.tt.pend with
  | some q => if f = 0 && q.img.isNone then s.ttValidated q none else s
  | none => s

/-- Commands of the function's rings that have not taken effect go with their rings, and with them what an ADMIT had reserved. -/
def State.dropCmds (s : State) (f : Nat) : State := { s with cmds := s.cmds.filter (fun c => s.owner .ring c.ring != f) }

/-- Forced teardown is requested of every slot of the range that is not FREE (R157). -/
def State.tearRange (s : State) (f : Nat) : State :=
  (s.slots.filter (fun e => s.inRange f e.1 && (e.2.state != .free || e.2.imp.isSome))).foldl (fun (u : State) e =>
    u.modSlot e.1 (fun q => { q with tearReq := true })) s

/-- What the receipt of a reset of function f does (R157). -/
def State.resetFn (s : State) (f : Nat) : State :=
  let s := ({ s with fns := Map.put f { flr := true } s.fns, msix := s.msix.filter (fun e => e.1 / 1024 != f) }).discardStores f
  let s := ((s.ringsOf f).foldl State.disableRing s).dropCmds f
  let s := ((s.endFetches f).solReset f).tearRange f
  s.modPkg (fun x => { x with flrs := x.flrs.filter (fun t => t != f) ++ [f] })

/-- The reset of function f completes: its FUNC registers hold their reset values, and a stopped tenancy is recounted (R157, R584,
R710). -/
def State.fnDone (s : State) (f : Nat) : State :=
  let s := s.funcReset f
  let s := { s with fns := Map.del f s.fns, led := { s.led with recount := s.led.recount ++ [f] } }
  s.modPkg (fun x => { x with flrs := x.flrs.filter (fun t => t != f) })

/-- Every slot of the range is FREE. -/
def State.rangeFree (s : State) (f : Nat) : Bool := s.slots.all (fun e => !s.inRange f e.1 || (e.2.state == .free && e.2.tearing.isNone && !e.2.tearReq))

/-- Resets whose slots are all FREE complete (R157). -/
def State.settleFns (s : State) : State := (s.pkg.flrs.filter s.rangeFree).foldl State.fnDone s

/-- When the last reset that a host reset caused has completed, at a boundary, it is reported (R690), and the link is up again where the endpoint
is out of reset (R158, R670; assumption 47). -/
def State.settleFlrs (s : State) : State :=
  let s := s.settleFns
  if s.pkg.hostReset && s.pkg.flrs.isEmpty then
    ({ s.modPkg (fun x => { x with hostReset := false }) with linkUp := s.pkg.released && !s.pkg.perst }).raise PKGB_INT_STAT_HOST_RESET_DONE
  else s

/-- Functions 0 to 63. -/
def allFns : List Nat := List.range 64

/-- Every function is reset, and the SR-IOV capability with function 0 (R157, R158). -/
def State.resetAll (s : State) : State := { allFns.foldl State.resetFn s with vfEnable := false, numVfs := 0 }

/-- A function-level reset of function f (R157). -/
def State.flr (s : State) (f : Nat) : State :=
  let s := s.bump PKG_FLRS
  (if f = 0 then s.resetAll else s.resetFn f).settleFns

/-- FUNCTION_LEVEL_RESET (R157): nothing answers before the endpoint does, nor does a function that is not enabled. -/
def execFunctionLevelReset (dt : Nat) (f : Fin 64) (s : State) : Out :=
  let t := s.elapse dt
  s.done (if t.linkUp && t.pkg.sdUp && t.fnEnabled f then t.flr f else t)

/-- VF_ENABLE_CHANGE (R165): each VF that is no longer enabled is reset. -/
def execVfEnableChange (dt : Nat) (en : Bool) (num : Fin 64) (s : State) : Out :=
  let t := s.elapse dt
  s.done (if t.linkUp && t.pkg.sdUp then
      let u := { t with vfEnable := en, numVfs := num.val }
      (allFns.filter (fun f => t.fnEnabled f && !u.fnEnabled f)).foldl State.flr u
    else t)

/-- The host's reset of every function: the link goes down (R158, R666). -/
def State.hostReset (s : State) : State :=
  let s := { s with linkUp := false }
  if !s.pkg.sdUp then { s with stores := [], linkUp := s.pkg.released && !s.pkg.perst }
  else (s.resetAll.modPkg (fun x => { x with hostReset := true })).settleFns

/-- HOT_RESET (R158, R666): the link goes down, and trains again once the resets have completed; every debug scope closes (assumption 44). -/
def execHotReset (dt : Nat) (s : State) : Out :=
  let t := s.elapse dt
  s.done (if t.linkUp then ((t.bump PKG_HOT_RESETS).hostReset).closeGate else t)

/-- PERST_ASSERT (R158, R616, R666): the endpoint is held in reset, and every debug scope closes. -/
def execPerstAssert (dt : Nat) (s : State) : Out :=
  let t := s.elapse dt
  s.done (if t.pkg.perst then t
    else
      let u := { t.modPkg (fun x => { x with perst := true }) with linkUp := false }
      if u.pkg.powered then ((u.bump PKG_PERSTS).hostReset).closeGate else u)

/-- PERST_DEASSERT (R670, R678): the endpoint leaves reset once the firmware has released it. -/
def execPerstDeassert (dt : Nat) (s : State) : Out :=
  let t := s.elapse dt
  s.done { t.modPkg (fun x => { x with perst := false }) with linkUp := t.pkg.released }

/-! ## Power-on, SYS_RESET_N and loss of power (R664 to R666, R679, R680, R682, R683, R733) -/

/-- Fuses: the key slots' states and the anti-rollback counts. -/
def fuseRegs : List Fld := [DBG_KEY_STAT_SLOTS, SB_ANTIROLLBACK_SB, SB_ANTIROLLBACK_SD, SB_ANTIROLLBACK_CD]

/-- The flash images with those that await activation in place (R648, R683). -/
def activated (staged : Map Staged) (f : FwImages) : FwImages :=
  let pick := fun (id : Nat) (old : FwImage) => match Map.find staged id with
    | some x => if x.active then x.image id else old
    | none => old
  { f with sb := pick 1 f.sb, sd := pick 2 f.sd, cd := pick 3 f.cd }

/-- Everything but fuses, flash, the boot count and what lies outside the part returns to its reset state (R666). -/
def State.allReset (s : State) : State :=
  let left := s.sb.staged.filter (fun e => e.2.verified && !e.2.active)
  let t : State := { State.reset with
    draws := s.draws, txq := s.txq, readData := s.readData, post := [.clear .sram, .clear .felt, .clear .dram],
    iso := { keys := s.iso.keys },
    sb := { sent := s.sb.sent, staged := left },
    pkg := { perst := s.pkg.perst, boots := s.pkg.boots, fw := s.pkg.fw.map (activated s.sb.staged), thermTrip := s.pkg.thermTrip } }
  let t := fuseRegs.foldl (fun (u : State) f => u.set f (s.get f)) t
  left.foldl (fun (u : State) e => u.set SB_FW_STAGED e.2.version 0 (e.1 - 1)) t

/-- T0 (R665, R667, R690): the counter starts at zero, the boot count advances, and the straps are sampled. -/
def State.coldBoot (s : State) (cause : Nat) (st : Straps) : State :=
  let s := s.allReset
  let s := s.modPkg (fun x => { x with powered := true, boots := x.boots + 1, thermTrip := false })
  let rom := (s.pkg.fw.map (fun f => f.rom)).getD []
  let s := s.modSb (fun x => { x with meas := [fit 48 rom, zeros 48, zeros 48, zeros 48, zeros 48, sha (zeros 48)] })
  let s := (((s.set PKG_STRAPS_SB_BUS (b2n st.sbBus)).set PKG_STRAPS_SMB_ADDR st.smbAddr).set PKG_STRAPS_RECOVERY (b2n st.recovery)).set
    PKG_STRAPS_TEST st.test
  (s.set PKG_BOOT_COUNT s.pkg.boots).set PKG_RESET_CAUSE cause

/-- POWER_ON (R665): flash holds `fw` at the first power-on, and what the part has written to it since at later ones. -/
def execPowerOn (st : Straps) (fw : FwImages) (s : State) : Out :=
  s.done (if s.pkg.powered then s else (s.modPkg (fun x => { x with fw := some (x.fw.getD fw) })).coldBoot 1 st)

/-- PWR_GOOD_FALL (R680). -/
def execPwrGoodFall (dt : Nat) (s : State) : Out :=
  let t := s.elapse dt
  s.done (if t.pkg.powered then t.allReset else t)

/-- A low pulse of `ns` resets: below the first limit never, from the second always, between them as the part has it (R665). -/
def State.pulse (s : State) (ns low high : Nat) (f : State → State) : State :=
  if ns < low then s
  else if high ≤ ns then f s
  else
    let d := s.draw
    if Config.pulseResets d.1 then f d.2 else d.2

/-- SYS_RESET (R665, R682). -/
def execSysReset (dt width : Nat) (st : Straps) (s : State) : Out :=
  let t := s.elapse dt
  s.done (if t.pkg.powered then t.pulse width 500 1000 (fun u => u.coldBoot 2 st) else t)

/-- RAIL_UNDERVOLTAGE (R733, R748): below 90% of nominal for 1,000 ns or more. -/
def execRailUndervoltage (dt ns : Nat) (s : State) : Out :=
  let t := s.elapse dt
  s.done (if t.pkg.powered && 1000 ≤ ns then t.allReset else t)

/-- THERMAL_TRIP (R749). -/
def execThermalTrip (dt : Nat) (s : State) : Out :=
  let t := s.elapse dt
  s.done (if t.pkg.powered then
      let u := (t.runs.foldl State.dropRun t).modSol (fun x => { x with run := none })
      u.enterFatal.modPkg (fun x => { x with thermTrip := true })
    else t)

/-! ## The boot stages (R669 to R672) -/

/-- A T_ register takes the nanoseconds since T0 (R690). -/
def State.stampT (s : State) (f : Fld) : State := s.set f ((s.cnt : Int) - s.pkg.t0).toNat

/-- Recovery (R672). -/
def State.recovery (s : State) : State := s.set SB_STAT_STAGE 5

/-- The management endpoint starts on the transport the strap names (R630, R668, R669). -/
def State.startMctp (s : State) : State :=
  if s.flag PKG_STRAPS_SB_BUS then (s.set SB_STAT_TRANSPORT 2).set SB_EID_SMB_ADDR (0x60 + s.get PKG_STRAPS_SMB_ADDR)
  else s.set SB_STAT_TRANSPORT 1

/-- A component runs from its image: its version, its measurement, its commit (R611, R648, R660). -/
def State.runFw (s : State) (id : Nat) (g : FwImage) : State :=
  ((s.set SB_FW_RUN g.version 0 (id - 1)).modSb (fun x => { x with meas := x.meas.set id (fit 48 g.digest) })).commitFw id g

/-- An image's version is at least the anti-rollback count (R610). -/
def State.fresh (s : State) (id : Nat) (g : FwImage) : Bool := s.antiRollback id ≤ g.version

/-- BOOT_ROM_DONE (R669, R672): `ok` says that the image's signature verifies. -/
def State.romDone (s : State) (ok : Bool) : State :=
  match s.pkg.fw with
  | none => s
  | some f =>
    if !s.pkg.powered || s.get SB_STAT_STAGE ≠ 0 then s
    else
      let s := s.startMctp
      if ok && s.fresh 1 f.sb && !s.flag PKG_STRAPS_RECOVERY && s.get PKG_STRAPS_TEST = 0 then (s.set SB_STAT_STAGE 1).runFw 1 f.sb
      else s.recovery

/-- BOOT_ROM_DONE (R669). -/
def execBootRomDone (dt : Nat) (ok : Bool) (s : State) : Out := s.done ((s.elapse dt).romDone ok)

/-- The signal box firmware has verified both die images: the endpoint is released (R670), or the boot ends in recovery (R672). -/
def State.sbDone (s : State) (ok : Bool) : State :=
  match s.pkg.fw with
  | none => s
  | some f =>
    if s.get SB_STAT_STAGE ≠ 1 || s.pkg.released then s
    else if ok && s.fresh 2 f.sd && s.fresh 3 f.cd then
      ({ s.modPkg (fun x => { x with released := true }) with linkUp := !s.pkg.perst }).stampT PKG_T_RELEASE
    else (s.notify 5 [0]).recovery

/-- SB_FIRMWARE_DONE (R670). -/
def execSbFirmwareDone (dt : Nat) (ok : Bool) (s : State) : Out := s.done ((s.elapse dt).sbDone ok)

/-- A stage of the boot whose condition holds. -/
def State.stageIs (s : State) (n : Nat) : Bool := s.pkg.powered && s.get SB_STAT_STAGE == n && s.get PKG_BOOT_ERR_CODE == 0

/-- SD_READY (R669). -/
def execSdReady (dt : Nat) (s : State) : Out :=
  let t := s.elapse dt
  s.done (match t.pkg.fw with
    | some f =>
      if t.stageIs 1 && t.pkg.released then
        let u := ((t.modPkg (fun x => { x with sdUp := true })).set SB_STAT_STAGE 2).stampT PKG_T_SD_READY
        u.runFw 2 f.sd
      else t
    | none => t)

/-- The boot fails after the endpoint was released (R672). -/
def State.bootFails (s : State) (code channels : Nat) : State :=
  let s := (s.set PKG_BOOT_ERR_CODE code).set PKG_BOOT_ERR_CHANNELS channels
  (((s.set PKGB_STAT_BOOT_FAILED 1).raise PKGB_INT_STAT_BOOT_FAILED).notify 5 [BitVec.ofNat 8 code]).enterFatal

/-- DRAM_TRAINING_DONE (R669, R672, R754): a channel that fails ends the boot. -/
def execDramTrainingDone (dt : Nat) (failed : Fin 65536) (s : State) : Out :=
  let t := s.elapse dt
  s.done (if t.stageIs 2 && !t.pkg.trained then
      if failed.val = 0 then t.modPkg (fun x => { x with trained := true }) else t.bootFails 1 failed
    else t)

/-- SCRUB_DONE (R545, R669): stores 3 to 9 and LPDDR5X hold zero. -/
def execScrubDone (dt : Nat) (s : State) : Out :=
  let t := s.elapse dt
  s.done (if t.stageIs 2 && t.pkg.trained then
      (((({ t with post := [.clear .dram] }).set MEMG_STAT_SCRUB_DONE 1).set PKGB_STAT_DRAM_READY 1).set SB_STAT_STAGE 3).stampT PKG_T_SCRUB_DONE
    else t)

/-- CD_READY (R669): the couch link is up, and core SRAM and the felt hold zero. -/
def execCdReady (dt : Nat) (s : State) : Out :=
  let t := s.elapse dt
  s.done (match t.pkg.fw with
    | some f =>
      if t.stageIs 3 then
        let u := (({ t with couchUp := true, post := [.clear .sram, .clear .felt] }).set PKGB_STAT_CD_READY 1).raise PKGB_INT_STAT_CD_READY
        ((u.set SB_STAT_STAGE 4).stampT PKG_T_CD_READY).runFw 3 f.cd
      else t
    | none => t)

/-- CD_BRING_UP_FAILED (R672). -/
def execCdBringUpFailed (dt : Nat) (couch : Bool) (s : State) : Out :=
  let t := s.elapse dt
  s.done (if t.stageIs 3 then t.bootFails (if couch then 2 else 3) 0 else t)

end Sys2Proof.Machine
end

