-- ==== Sys2Proof/Machine/Registers.lean ====
section
/-! DEFINITION. Machine/Registers.lean: register writes, INT_STAT, SHADOW_CTL and what a read of a register returns
(18_register_map.md). -/
namespace Sys2Proof.Machine

/-! ## INT_STAT, INT_EN and INT_FORCE (R22, R154, R691, R723) -/

/-- The INT_STAT bits of a page. -/
def Page.intBits (pg : Page) : List Fld := (pg.rows.filter (fun r => r.fld.off == 0x10)).map (fun r => r.fld)

/-- The INT_EN bits that are not Reserved: those opposite an INT_STAT bit (R723). -/
def Page.intMask (pg : Page) : Nat := (pg.intBits.map (fun f => two f.lo)).foldl (· + ·) 0

/-- The party may write INT_EN and INT_FORCE: nobody on the boot page, only the signal box on its own (R660, R689). -/
def mayForce (p : Party) (pg : Page) : Bool :=
  match pg with
  | .pkgb => false
  | .sb => decide (p = .sb)
  | .pkgi | .ht | .tt | .str | .fe | .apt | .ixp | .core | .ring | .prog | .felt | .gx | .sol | .blg | .blp | .cal | .pwrg | .pwrt | .memg
  | .memt | .ledg | .ledt | .isog | .isot | .dbgg | .dbgw | .blt => true

/-- Bits written as 1 clear (R22). -/
def State.clearInts (s : State) (pg : Page) (i v : Nat) : State :=
  (pg.intBits.filter (fun f => bit v f.lo)).foldl (fun (u : State) f => u.set f 0 i) s

/-- Bits written as 1 are set as if their events had occurred (R723). -/
def State.forceInts (s : State) (pg : Page) (i v : Nat) : State :=
  s.signalling pg i (fun t => (pg.intBits.filter (fun f => bit v f.lo)).foldl (fun (u : State) f => u.set f 1 i) t)

/-- INT_EN is written (R154, R723). -/
def State.enableInts (s : State) (pg : Page) (i v : Nat) : State := s.signalling pg i (fun t => t.set (hdrIntEn pg) (v &&& pg.intMask) i)

/-! ## SHADOW_CTL (R701 to R705) -/

/-- The register exists in this instance: some pages have registers from 0x200 on in instance 0 alone (R213, R373, R416, R459). -/
def Page.present (pg : Page) (i off : Nat) : Bool :=
  match pg with
  | .fe | .felt | .gx | .sol => off < 0x200 || i == 0
  | .pkgi | .ht | .tt | .pkgb | .str | .apt | .ixp | .core | .ring | .prog | .blg | .blp | .cal | .pwrg | .pwrt | .memg | .memt | .ledg
  | .ledt | .isog | .isot | .dbgg | .dbgw | .blt | .sb => true

/-- The page has an RW-T field that its owning function can write (R701). -/
def State.hasShadow (s : State) (pg : Page) (i : Nat) : Bool :=
  pg.rows.any (fun r => r.acc == .rwt && pg.present i r.fld.off && (r.own == .page || (r.own == .fn0 && s.owner pg i == 0)))

/-- The party is the page's owning function (R701). -/
def State.ownsPage (s : State) (p : Party) (pg : Page) (i : Nat) : Bool :=
  match p with
  | .fn f => s.owner pg i == f.val
  | .sb => false

/-- Every pending value of a page that function `w` wrote is discarded. -/
def State.dropPending (s : State) (pg : Page) (i w : Nat) : State :=
  let s := { s with pend := s.pend.filter (fun q => !(decide (q.fld.page = pg) && q.inst == i && q.writer == w)) }
  s.onlyIf (pg == .cal) (fun u => u.modBl (fun b => { b with flows := b.flows.map (fun e =>
    if e.1 / 256 = i && e.2.pend.any (fun x => x.2.1 == w) then (e.1, { e.2 with pend := none }) else e) }))

/-- ABANDON (R704). -/
def State.abandon (s : State) (pg : Page) (i : Nat) : State := (s.dropPending pg i (s.owner pg i)).set (hdrApply pg) 0 i

/-- A write of SHADOW_CTL: only the owning function's counts, on a page that has one (R701). -/
def State.shadow (s : State) (p : Party) (pg : Page) (i : Nat) (g : State → State) : State :=
  s.access p pg i .page (fun u => if u.ownsPage p pg i && u.hasShadow pg i then g u else u)

/-- HOLD, ABANDON and APPLY of one write; ABANDON wins (R702 to R704). -/
def State.shadowBits (s : State) (pg : Page) (i v : Nat) : State :=
  let s := s.set (hdrHold pg) (bits v 2 1) i
  if bit v 1 then s.abandon pg i else if bit v 0 then s.setApply pg i else s

/-! ## TENANCY of RING_, APT_ and IXP_ pages (R130, R242, R720) -/

/-- The ring is DISABLED, the port STOPPED. -/
def State.quiet (s : State) (pg : Page) (i : Nat) : Bool :=
  match pg with
  | .ring => s.get RING_STAT_STATE i == 0
  | .apt => s.portState i == ptSTOPPED
  | .ixp => s.portState (i + 8) == ptSTOPPED
  | .pkgi | .ht | .tt | .pkgb | .str | .fe | .core | .prog | .felt | .gx | .sol | .blg | .blp | .cal | .pwrg | .pwrt | .memg | .memt | .ledg
  | .ledt | .isog | .isot | .dbgg | .dbgw | .blt | .sb => true

/-- The page passes to tenancy t: the previous owner's pending values are discarded, SHADOW_CTL, INT_STAT and INT_EN clear (R720). -/
def State.retenant (s : State) (pg : Page) (i t : Nat) : State :=
  let s := s.abandon pg i
  let s := ((s.set (hdrHold pg) 0 i).clearInts pg i (two 32 - 1)).set (hdrIntEn pg) 0 i
  s.set (hdrTenancy pg) t i

/-- A write of TENANCY. -/
def State.writeTenancy (s : State) (pg : Page) (i v : Nat) : State :=
  if v % 64 = s.owner pg i then s
  else if s.quiet pg i then s.retenant pg i (v % 64) else s.refusal pg i 0x24

/-! ## Plain fields (R22, R130, R242, R284, R501, R697 to R699) -/

/-- A transfer into the receive window of tenancy t is in progress (R501): a piece of it has come and its last has not, or a store of it
has not been issued. -/
def State.rxBusy (s : State) (t : Nat) : Bool :=
  s.bl.rx.any (fun e => e.1 % 64 == t) || s.stores.any (fun x => x.kind == .transfer && x.fn == t)

/-- A "writable only while" qualifier forbids a change of the field now. -/
def State.locked (s : State) (pg : Page) (i : Nat) (f : Fld) : Bool :=
  match pg with
  | .ring => 0x100 ≤ f.off && f.off ≤ 0x118 && !s.quiet pg i
  | .apt => (f.off == 0x104 || f.off == 0x108 || f == APT_CFG_JUSTIFY || f == APT_CFG_WIDTH || f == APT_CFG_RATE) && !s.quiet pg i
  | .ixp => (f.off == 0x100 || (0x130 ≤ f.off && f.off ≤ 0x138)) && !s.quiet pg i
  | .core => f == CORE_CTL_SIDE && i < 4
  | .blt => (f == BL_RXWIN_LO || f == BL_RXWIN_HI || f == BL_RXWIN_SIZE) && s.rxBusy i
  | .pkgi | .ht | .tt | .pkgb | .str | .fe | .prog | .felt | .gx | .sol | .blg | .blp | .cal | .pwrg | .pwrt | .memg | .memt | .ledg | .ledt
  | .isog | .isot | .dbgg | .dbgw | .sb => false

/-- A value of a slot mask keeps every bound stream within M (R220, R242). -/
def State.maskOk (s : State) (p m : Nat) : Bool :=
  let n := (s.selected p m).length
  s.slots.all (fun e => e.2.state == .free || !e.2.par.portFed || e.2.par.port % 16 != p || e.2.par.port / 16 % 8 + e.2.par.channels ≤ n)

/-- What the table asks of a register's word as a whole: the end of a slot range, and R242 of a slot mask. -/
def State.wordOk (s : State) (pg : Page) (i off v : Nat) : Bool :=
  match pg with
  | .str => off != 0x100 || bits v 0 13 + bits v 16 14 ≤ 8192
  | .apt => off != 0x10C || s.maskOk i (v % 256)
  | .ixp => off != 0x104 || s.maskOk (i + 8) (v % 4)
  | .pkgi | .ht | .tt | .pkgb | .fe | .core | .ring | .prog | .felt | .gx | .sol | .blg | .blp | .cal | .pwrg | .pwrt | .memg | .memt | .ledg
  | .ledt | .isog | .isot | .dbgg | .dbgw | .blt | .sb => true

/-- The RW and RW-T fields at an offset, each with its element of a register array. -/
def Page.fieldsAt (pg : Page) (off : Nat) : List (FieldRow × Nat) :=
  pg.rows.filterMap (fun r =>
    if r.fld.off ≤ off && off < r.fld.off + 4 * r.n && (off - r.fld.off) % 4 == 0 && (r.acc == .rw || r.acc == .rwt)
    then some (r, (off - r.fld.off) / 4) else none)

/-- A word would change a field: it differs from what the field reads, pending or in force (R697). -/
def State.wouldChange (s : State) (i v : Nat) (x : FieldRow × Nat) : Bool :=
  let n := bits v x.1.fld.lo x.1.fld.w
  n != s.shown x.1.fld i x.2 && !(x.1.acc == .rwt && n == s.get x.1.fld i x.2)

/-- The qualifier of a field forbids it to a party (R697). -/
def FieldRow.forbids (r : FieldRow) (p : Party) : Bool :=
  match r.own, p with
  | .page, _ | .sb, .sb => false
  | .fn0, .fn f => f.val != 0
  | .fn0, .sb | .sb, .fn _ => true

/-- A value lies in the range that the table states for its field. -/
def FieldRow.inRange (r : FieldRow) (v : Nat) : Bool :=
  match r.lim with
  | some l => l.1 ≤ bits v r.fld.lo r.fld.w && bits v r.fld.lo r.fld.w ≤ l.2
  | none => true

/-- A ring's interrupts move to vector `v`, which is raised where its OR changes from 0 to 1 (R154). -/
def State.revector (s : State) (r v : Nat) : State :=
  let f := s.owner .ring r
  let t := s.set RING_CFG_VECTOR v r
  if !s.level f v && t.level f v then t.msixSend f v else t

/-- One field takes its value: an RW field at once, an RW-T field at the next boundary (R698, R699). HOST_LOCK is a field of the POWER
unit (R635). -/
def State.putField (s : State) (p : Party) (i v : Nat) (x : FieldRow × Nat) : State :=
  let n := bits v x.1.fld.lo x.1.fld.w
  if x.1.acc = .rwt then s.pendWrite p x.1.fld n i x.2
  else if x.1.fld = RING_CFG_VECTOR then s.revector i n
  else if x.1.fld = PWRG_CTL_HOST_LOCK then s.setGen x.1.fld n i
  else s.set x.1.fld n i x.2

/-- A write of a register of plain fields by a party that reaches its page; `marked`: it reaches the fields of tenancy 0 alone (R697,
R709). -/
def State.fieldWrite (s : State) (p : Party) (pg : Page) (i off v : Nat) (marked : Bool) : State :=
  let l := pg.fieldsAt off
  let hit := l.filter (s.wouldChange i v)
  let out := fun (x : FieldRow × Nat) => marked && x.1.own != .fn0
  if hit.any out then s
  else if hit.any (fun x => x.1.forbids p) then (s.deny p).refusal pg i off
  else if hit.any (fun x => s.locked pg i x.1.fld || !x.1.inRange v) || !s.wordOk pg i off v then s.refusal pg i off
  else (l.filter (fun x => !out x && !x.1.forbids p && !s.locked pg i x.1.fld)).foldl (State.putField · p i v) s

/-- The loop values that edges are judged with after a write of a HT_ register: in ACQUIRE and LOCKED with PPS_EN set, those in force
before it (R78). -/
def State.afterHt (s t : State) : State :=
  let st := s.get HT_STAT_STATE
  let old := if !t.flag HT_CTL_PPS_EN then none
    else if t.loopRegs = s.loopRegs then s.ht.old
    else if st = htACQUIRE || st = htLOCKED then some s.loopVals else none
  { t with ht := { t.ht with old := old } }

/-- A write of plain fields. -/
def State.plainWrite (s : State) (p : Party) (pg : Page) (i off v : Nat) : State :=
  match s.reachOf p pg i with
  | .none => s.deny p
  | .read => s
  | .marked => s.fieldWrite p pg i off v true
  | .full =>
    let t := s.fieldWrite p pg i off v false
    if pg = .ht then s.afterHt t else t

/-! ## Registers that act (R756 and their own rows) -/

/-- A command register: one bit set acts, more than one is ignored and marked (R756). -/
def State.command (s : State) (v : Nat) (acts : List (State → State)) (refused : State → State) : State :=
  match (List.range acts.length).filter (bit v) with
  | [] => s
  | [k] => (acts.getD k id) s
  | _ => refused s

/-- CAL_FLOW_CFG of the flow that CAL_FLOW_SEL names: pending for the boundary; a STEPS or an E0 out of range is ignored (R501). -/
def State.flowWrite (s : State) (p : Party) (t v : Nat) : State :=
  let k := bits v 1 5
  if k < 1 || 16 < k || toS 8 (bits v 8 8) < -111 then s
  else s.modFlow t (s.get CAL_FLOW_SEL t) (fun f => { f with pend := some (v, Party.num p, s.cnt) })

/-- MEM_INJECT (R572). -/
def State.injectWrite (s : State) (v : Nat) : State :=
  (((s.set MEM_INJECT_STORE v).set MEM_INJECT_KIND (bits v 4 1)).set MEM_INJECT_UNIT (bits v 8 6)).onlyIf (bit v 31) State.armInject

/-- The firmware sets the governor window (R441, R458); to a host the register is read-only. -/
def State.govWrite (s : State) (p : Party) (v : Nat) : State :=
  match p with
  | .sb => s.pendWrite p SOL_GOV_NS v
  | .fn _ => s

/-- A write of a register that has a row of its own in the opcode table; none where the register has plain fields only. -/
def State.ownWrite (s : State) (p : Party) (pg : Page) (i off v : Nat) : Option State :=
  let w := some (off, v)
  let page := fun (g : State → State) => some (s.access p pg i .page g)
  let fn0 := fun (g : State → State) => some (s.access p pg i .fn0 g w)
  match pg with
  | .ht => if off = 0x14C then page (fun u => u.onlyIf (bit v 0) (fun t => t.armTod p)) else none
  | .tt =>
    if off = 0x100 then page (fun u => u.writePeriod v)
    else if off = 0x12C then page (fun u => u.command v [State.ttLoad, State.ttAbandon] (fun t => t.raise TT_INT_STAT_IMG_REFUSED)) else none
  | .str => if off = 0x140 || off = 0x144 || off = 0x148 then fn0 (fun u => u.imgWindow i off v) else none
  | .fe =>
    if off = 0x164 then page (fun u => u.command v [fun t => t.bindBeam i] id)
    else if off = 0x200 || off = 0x204 || off = 0x208 then page (fun u => u.reelArea off v) else none
  | .apt =>
    if off = 0x120 then page (fun u => u.command v [fun t => t.queuePort i true, fun t => t.queuePort i false, fun t => t.flushPort i]
      (fun t => t.raise APT_INT_STAT_CFG_REFUSED i)) else none
  | .ixp =>
    if off = 0x114 then page (fun u => u.command v [fun t => t.queuePort (i + 8) true, fun t => t.queuePort (i + 8) false,
      fun t => t.flushPort (i + 8)] (fun t => t.raise IXP_INT_STAT_CFG_REFUSED i))
    else if off = 0x140 then page (fun u => u.csqReturn i v) else none
  | .prog =>
    if off = 0x110 then page (fun u => u.command v [fun t => t.progLoad i, fun t => t.progUnload i, fun t => t.progReload i]
      (fun t => t.raise PROG_INT_STAT_REFUSED i)) else none
  | .felt =>
    if off = 0x110 then page (fun u => u.command v [fun t => t.pfxTake i 0, fun t => t.pfxTake i 1, fun t => t.pfxTake i 2]
      (fun t => t.raise FELT_INT_STAT_PFX_REFUSED i)) else none
  | .gx =>
    if off = 0x134 then page (fun u => u.command v [fun t => t.gxTake i tbUNDEFINED (State.gxStartDefine i), fun t => t.gxDelete i,
      fun t => t.gxTake i tbDISABLED (State.gxAwait i 2), fun t => t.gxTake i tbENABLED (State.gxAwait i 3),
      fun t => t.gxTake i tbDISABLED (State.gxMove i 4), fun t => t.gxTake i tbDISABLED (State.gxMove i 5)]
      (fun t => t.raise GX_INT_STAT_CMD_REFUSED i))
    else if off = 0x10C then fn0 (fun u => u.quotaWrite p GX_TAG_QUOTA i v 2048)
    else if off = 0x110 then fn0 (fun u => u.quotaWrite p GX_PF_QUOTA i v 128)
    else if off = 0x100 || off = 0x104 || off = 0x108 then fn0 (fun u => u.windowWrite i off v) else none
  | .sol =>
    if off = 0x120 then page (fun u => u.command v [fun t => t.solLoad i, fun t => t.solUnload i, fun t => t.solParam i]
      (fun t => t.raise SOL_INT_STAT_CMD_REFUSED i))
    else if off = 0x130 then page (fun u => u.command v [fun t => t.solArrive i] id)
    else if off = 0x140 then fn0 (fun u => u.storeQuota p i v)
    else if off = 0x200 then page (fun u => u.govWrite p v) else none
  | .blg =>
    if off = 0x100 then page (fun u => u.writeNode v) else if off = 0x104 then page (fun u => u.writeConsist v) else none
  | .cal => if off = 0x104 then page (fun u => u.flowWrite p i v) else none
  | .blt => if off = 0x114 then page (fun u => u.command v [fun t => t.xferBegin i] id) else none
  | .pwrg =>
    if off = 0x100 then page (fun u => u.requestMode (decide (p = .sb)) (v % 8) (u.get2 PWR_MODE_AT_LO PWR_MODE_AT_HI)) else none
  | .memg =>
    if off = MEM_LOG_RD.off then page (fun u => u.logRd v) else if off = 0x140 then page (fun u => u.injectWrite v) else none
  | .isot => if off = 0x100 then fn0 (fun u => u.resReserve p i v) else none
  | .dbgg =>
    if off = 0x104 then page (fun u => u.command v [fun t => t.dbgChallenge (decide (p = .sb)), State.dbgRespond, State.closeGate]
      (fun t => t.raise DBGG_INT_STAT_REFUSED)) else none
  | .dbgw =>
    if off = 0x10C then page (fun u => u.command v [State.winRead, State.winWrite] id)
    else if off = DBG_HALT_LO.off then page (fun u => u.haltWrite false v)
    else if off = DBG_HALT_HI.off then page (fun u => u.haltWrite true v) else none
  | .pkgi | .pkgb | .core | .ring | .blp | .pwrt | .memt | .ledg | .ledt | .isog | .sb => none

/-- A whole dword of BAR0 is written (R691 to R697, R707). -/
def State.dwordWrite (s : State) (p : Party) (addr v : Nat) : State :=
  if !s.pkg.sdUp then s
  else match pageAt (addr / 0x1000) with
    | none => s
    | some (pg, i) =>
      let off := addr % 0x1000
      if !pg.present i off || (pg == .dbgw && !s.winAnswers off) then s.access p pg i .page id
      else if off = 0x10 then s.access p pg i .page (fun u => u.clearInts pg i v)
      else if off = 0x14 then s.access p pg i .page (fun u => u.onlyIf (mayForce p pg) (fun t => t.enableInts pg i v))
      else if off = 0x18 then s.access p pg i .page (fun u => u.onlyIf (mayForce p pg) (fun t => t.forceInts pg i v))
      else if off = 0x1C then s.shadow p pg i (fun u => u.shadowBits pg i v)
      else if off = 0x24 && pg.bound then s.access p pg i .fn0 (fun u => u.writeTenancy pg i v) (some (off, v))
      else (s.ownWrite p pg i off v).getD (s.plainWrite p pg i off v)

/-! ## BAR4 (R154, R708) -/

/-- A dword of a function's MSI-X table is written; a vector unmasked with its pending bit set is sent. -/
def State.msixWrite (s : State) (f d v : Nat) : State :=
  if 260 ≤ d then s
  else
    let k := d / 4
    let mask := d % 4 == 3
    let due := mask && v % 2 == 0 && Map.get s.msix (1024 * f + 512 + k) 0 == 1
    let s := { s with msix := Map.put (1024 * f + d) (if mask then v % 2 else v) s.msix }
    if due then ({ s with msix := Map.del (1024 * f + 512 + k) s.msix }).msixSend f k else s

/-- A dword of BAR4 is written by a function. -/
def State.bar4Write (s : State) (p : Party) (addr v : Nat) : State :=
  match p with
  | .fn f => if s.pkg.sdUp && s.fnEnabled f then s.msixWrite f (addr / 4) v else s
  | .sb => s

/-! ## The commands -/

/-- INT_STAT_CLEAR (R22): a write of INT_STAT of the page at `addr`. -/
def execIntStatClear (dt : Nat) (p : Party) (addr value : Nat) (s : State) : Out :=
  s.done ((s.elapse dt).dwordWrite p (addr / 0x1000 * 0x1000 + 0x10) value)

/-- INT_FORCE (R723): a write of INT_FORCE of the page at `addr`. -/
def execIntForce (dt : Nat) (p : Party) (addr value : Nat) (s : State) : Out :=
  s.done ((s.elapse dt).dwordWrite p (addr / 0x1000 * 0x1000 + 0x18) value)

/-- A write of SHADOW_CTL of the page at `addr`. -/
def State.shadowAt (s : State) (p : Party) (addr : Nat) (g : Page → Nat → State → State) : State :=
  match pageAt (addr / 0x1000) with
  | some (pg, i) => s.shadow p pg i (g pg i)
  | none => s

/-- SHADOW_HOLD (R702). -/
def execShadowHold (dt : Nat) (p : Party) (addr : Nat) (hold : Bool) (s : State) : Out :=
  s.done ((s.elapse dt).shadowAt p addr (fun pg i u => u.set (hdrHold pg) (b2n hold) i))

/-- SHADOW_APPLY (R703): HOLD keeps its value. -/
def execShadowApply (dt : Nat) (p : Party) (addr : Nat) (s : State) : Out :=
  s.done ((s.elapse dt).shadowAt p addr (fun pg i u => u.setApply pg i))

/-- SHADOW_ABANDON (R704): HOLD keeps its value. -/
def execShadowAbandon (dt : Nat) (p : Party) (addr : Nat) (s : State) : Out :=
  s.done ((s.elapse dt).shadowAt p addr (fun pg i u => u.abandon pg i))

end Sys2Proof.Machine
end

