-- ==== Sys2Proof/Machine/Tick.lean ====
section
/-! DEFINITION. Machine/Tick.lean: the tick boundary (R62). -/
namespace Sys2Proof.Machine

/-! ## Ticked values judged at the boundary (R122, R139) -/

/-- A pending value that takes effect at this boundary. -/
def State.falling (s : State) (f : Fld) (i : Nat) : Option Nat :=
  match s.pendOf f i with
  | some q => if s.falls q then some q.value else none
  | none => none

/-- Pending values of an instance's fields `l` that would take effect now are dropped. -/
def State.dropFalling (s : State) (l : List Fld) (i : Nat) : State :=
  { s with pend := s.pend.filter (fun q => !(l.contains q.fld && q.inst == i && s.falls q)) }

/-- A new slot range is ignored where a slot that leaves it is not FREE (R122). -/
def State.rangeJudge (s : State) (t : Nat) : State :=
  let b := s.falling STR_RANGE_BASE t
  let c := s.falling STR_RANGE_COUNT t
  if b.isNone && c.isNone then s
  else
    let base := b.getD (s.get STR_RANGE_BASE t)
    let n := c.getD (s.get STR_RANGE_COUNT t)
    if s.slots.any (fun e => s.inRange t e.1 && !(base ≤ e.1 && e.1 < base + n) && e.2.state != .free)
    then (s.dropFalling [STR_RANGE_BASE, STR_RANGE_COUNT] t).raise STR_INT_STAT_RANGE_REFUSED t
    else s

/-- The ring becomes ACTIVE, with its indices at zero (R131, R139). -/
def State.enableRing (s : State) (r : Nat) : State :=
  let s := ((s.set RING_HOST_IDX 0 r).set RING_DEV_IDX 0 r).set RING_HELD 0 r
  { s.setGen RING_STAT_STATE 1 r with rings := Map.del r s.rings }

/-- A slot that is not FREE names the ring (R139). -/
def State.ringNamed (s : State) (r : Nat) : Bool :=
  s.slots.any (fun e => e.2.state != .free &&
    ((!e.2.par.portFed && e.2.par.submitRing == r) || e.2.par.completeRing == r || e.2.par.eventRing == r))

/-- A COMMAND ring with commands consumed and not done (R139). -/
def State.ringOpen (s : State) (r : Nat) : Bool := s.get RING_CFG_TYPE r == ringCOMMAND && (s.ring r).out.any (fun e => !e.2)

/-- An ENABLE write of ring r is judged at its boundary (R139). -/
def State.ringJudge (s : State) (r : Nat) : State :=
  match s.falling RING_CTL_ENABLE r with
  | none => s
  | some v =>
    let st := s.get RING_STAT_STATE r
    if v = 1 then
      if st ≠ 0 then s
      else if s.fnEnabled (s.owner .ring r) then s.enableRing r
      else (s.dropFalling [RING_CTL_ENABLE] r).set RING_ERR errVF_DISABLED r
    else if st = 0 then s
    else if s.ringNamed r || s.ringOpen r then (s.dropFalling [RING_CTL_ENABLE] r).raise RING_INT_STAT_DISABLE_REFUSED r
    else s.disableRing r

/-- Every pending value that takes effect at this boundary (R62 step 2). -/
def State.tickValues (s : State) : State :=
  let s := (List.range 64).foldl State.rangeJudge s
  let s := ((s.pend.filter (fun q => q.fld = RING_CTL_ENABLE)).map (fun q => q.inst)).foldl State.ringJudge s
  s.calBoundary.applyTicked

/-! ## Slots (R82, R97 to R107) -/

/-- What a boundary does to each slot, in slot order. -/
def State.eachSlot (s : State) (g : State → Nat → State) : State := (s.slots.map (fun e => e.1)).foldl g s

/-- A stream fault of the tick that ended takes effect (R102). -/
def State.faultDueAt (s : State) (m i : Nat) : State :=
  match (s.slot i).faultDue with
  | some f => s.faultSlot i m f.1 f.2
  | none => s

/-- A teardown that has been requested begins (R106). -/
def State.tearDueAt (s : State) (m i : Nat) : State := if (s.slot i).tearReq then s.tearDown i m else s

/-- A promotion that is due, or that SIDING held (R97). -/
def State.promoteDueAt (s : State) (m i : Nat) : State :=
  let q := s.slot i
  if q.state == .listen && q.mayPass && (q.promoteAt.any (fun t => t ≤ m) || (q.held && !s.siding)) then s.promoteDue i m else s

/-- A demotion that a result asked for (R101). -/
def State.demoteDueAt (s : State) (m i : Nat) : State := if (s.slot i).demoteNext && (s.slot i).mayPass then s.demote i m else s

/-- The passes of a slot in the tick that begins are counted anew (R92). -/
def State.freshPasses (s : State) (i : Nat) : State := s.modSlot i (fun q => { q with passes := 0 })

/-- The slots at the boundary of tick m: the reels age, so that every later step reads OLDEST(m) (R197); teardowns of the last boundary end,
drains end, faults, teardowns, commands and IMPORT activations in the order observed, promotions and demotions. A recount comes at the first boundary after its reset completes (R584), so before the resets that complete here. -/
def State.slotsBoundary (s : State) (m : Nat) : State :=
  let s := ((s.ageReels.eachSlot State.freshPasses).eachSlot State.tornFree).recounts.settleFlrs
  let s := s.eachSlot (fun u i => u.endDrain i m)
  let s := (s.ledgerFaults m).eachSlot (fun u i => u.faultDueAt m i)
  let s := s.eachSlot (fun u i => u.tearDueAt m i)
  let due := s.cmds.filter (fun c => c.tick ≤ m)
  let s := s.applyCmds m
  ((s.eachSlot (fun u i => u.promoteDueAt m i)).eachSlot (fun u i => u.demoteDueAt m i)).lateEpochs due

/-! ## The timetable (R60, R61, R63) -/

/-- The pending image becomes active at its boundary, where its period still agrees (R44, R60, R61). -/
def State.activateImage (s : State) (m : Nat) : State :=
  match s.tt.pend with
  | some q =>
    match q.img with
    | some g =>
      if m < q.at_ then s
      else if g.period ≠ s.get TT_PERIOD then s.ttClear.ttRefuse ttPERIOD
      else { s.ttClear.raise TT_INT_STAT_IMG_ACTIVATED with tt := { s.tt with active := some g, pend := none } }
    | none => s
  | none => s

/-- A pending CTL.ENABLE: 0 takes effect at once, 1 where the time of day has been locked and the active image has the period in force;
until then it stays pending (R63). `v` is the value that falls due. -/
def State.takeEnable (s : State) (v : Option Nat) : State :=
  match v with
  | none => s
  | some v =>
    if v = 1 && !(s.flag HT_STAT_EVER_LOCKED && s.tt.active.any (fun g => g.period == s.get TT_PERIOD)) then s
    else
      let s := { s with pend := s.pend.filter (fun q => q.fld ≠ TT_CTL_ENABLE) }
      if s.get TT_CTL_ENABLE = v then s else ((s.set TT_CTL_ENABLE v).set TT_STAT_RUNNING v).bumpGen .tt

/-! ## The boundary -/

/-- Tick m begins (R62 step 1). -/
def State.beginTick (s : State) (m : Nat) : State :=
  let s := { s.reach (s.tickAt m) with ht := { s.ht with stepTick := none }, tt := { s.tt with tick := m, nextSlot := 0 } }
  s.raise TT_INT_STAT_TICK

/-- What the units other than the slots do at the boundary. -/
def State.unitsBoundary (s : State) (m : Nat) : State :=
  let s := ((s.bindsDue m).pfxBoundary).sweepPages
  let s := (s.imagesBoundary.gxBoundary).solBoundary m
  let s := ((s.mapBoundary m).sidePorts).sideCores
  let s := (List.range 8).foldl State.switchPort s
  (List.range 10).foldl State.rollSecond s

/-- The boundary of tick m on a part whose stream die is up (R62): `pre` is the state before it. -/
def State.dataBoundary (s pre : State) (m : Nat) : State :=
  let s := (s.memBoundary).auditKnown
  let enable := s.falling TT_CTL_ENABLE 0
  let s := ((s.tickValues.governorBoundary m).modeBoundary m).mgmtBoundary pre m
  let s := ((s.dbgBoundary).slotsBoundary m).unitsBoundary m
  let s := (((s.activateImage m).takeEnable enable).isoBoundary).deadlineCheck m (pre.get TT_INTAKE_SLOT)
  ((s.takeAudit m).epochBoundary m).startSlot m 0

/-- A tick boundary (R62): before SD_READY only the signal box acts (R669). -/
def State.tickBoundary (s : State) (x : Sensors) : State :=
  let m := s.nextTick
  let t := ((s.measure12 x).figures).beginTick m
  if s.pkg.sdUp then t.dataBoundary s m
  else
    let u := ((s.measure12 x).figures).reach (s.tickAt m)
    (({ u with tt := { u.tt with tick := m, nextSlot := 64 } }).mgmtBoundary s m).epochBoundary m

/-- TICK_BOUNDARY (R62): nothing happens while the part has no power. -/
def execTickBoundary (m : Sensors) (s : State) : Out := s.done (if s.pkg.powered then s.tickBoundary m else s)

end Sys2Proof.Machine
end

