-- ==== Sys2Proof/Machine/Views.lean ====
section
/-! DEFINITION. Machine/Views.lean: what a read of a register returns (R22, R696, R699, R709, R719): the fields that report a unit's own
state are computed from it here, and nowhere stored. No row of the command table is a plain read; the rows whose read latches or clears
are in the units' own files. -/
namespace Sys2Proof.Machine

/-- Bit `h` of the word for each `h` below `n` that satisfies `c`. -/
def bitsWhere (n : Nat) (c : Nat → Bool) : Nat := ((List.range n).map (fun h => b2n (c h) * two h)).foldl (· + ·) 0

/-- Slots of a tenancy's range in a state (R80). -/
def State.occupancy (s : State) (t : Nat) (st : SlotState) : Nat :=
  (s.slots.filter (fun e => s.inRange t e.1 && e.2.tearing.getD e.2.state == st)).length

/-- PKG_ registers (R724); `p` reads. -/
def pkgView (p : Party) : List (Fld × Nat) :=
  [(PKG_DEVICE, Config.device), (PKG_ORDER, b2n Config.order64), (PKG_DRAM_MIB, Config.dramMib),
   (PKG_SELF_FUNCTION, match p with | .fn f => f.val | .sb => 0), (PKG_SELF_SB, b2n (p == .sb))]

/-- TT_STAT, TT_TICK_LO, TT_IMG_ACTIVE_ID, TT_OWNER and TT_LOWNER (R45, R59, R61). -/
def State.ttView (s : State) (j : Nat) : List (Fld × Nat) :=
  let m := s.tt.active
  let owners := fun (l : List Nat) => ((List.range 4).map (fun b => (l[4 * j + b]?).getD 255 * two (8 * b))).foldl (· + ·) 0
  [(TT_STAT_IMG_ACTIVE, b2n m.isSome), (TT_STAT_MODE, (m.map (fun i => i.mode)).getD 0), (TT_STAT_CYCLE, (m.map (fun i => i.cycle)).getD 0),
   (TT_TICK_LO, s.cnt / s.periodNs), (TT_IMG_ACTIVE_ID, (m.map (fun i => i.id)).getD 0),
   (TT_OWNER, owners ((m.map (fun i => i.ownerMain)).getD [])), (TT_LOWNER, owners ((m.map (fun i => i.ownerListen)).getD []))]

/-- STR_STAT, STR_OCC_RUN, STR_OCC_OTHER and STR_VIEW_STATE of tenancy t (R125). -/
def State.strView (s : State) (t : Nat) : List (Fld × Nat) :=
  let i := s.get STR_SEL t
  let v := if s.inRange t i then (s.slot i).word else two 31
  [(STR_STAT_RANGE_VALID, b2n (s.get STR_RANGE_COUNT t != 0)),
   (STR_OCC_RUN_LISTEN, s.occupancy t .listen), (STR_OCC_RUN_TRANSCRIBE, s.occupancy t .transcribe),
   (STR_OCC_OTHER_PARKED, s.occupancy t .parked), (STR_OCC_OTHER_FAULTED, s.occupancy t .faulted),
   (STR_VIEW_STATE_STATE, bits v 0 3), (STR_VIEW_STATE_HOLDER, bits v 3 2), (STR_VIEW_STATE_CUR, bits v 5 1),
   (STR_VIEW_STATE_HELD, bits v 6 1), (STR_VIEW_STATE_CATCHUP, bits v 7 1), (STR_VIEW_STATE_FAULT, bits v 8 8),
   (STR_VIEW_STATE_OUT_OF_RANGE, bits v 31 1)]

/-- FE_STAT, FE_VIEW_CLK and FE_REEL_USED (R195, R196, R213). -/
def State.feView (s : State) (t : Nat) : List (Fld × Nat) :=
  let i := s.get FE_SEL t
  let ok := s.inRange t i
  let q := if ok then s.slot i else {}
  [(FE_STAT_REEL_AREA_VALID, b2n (s.get FE_REEL_SIZE != 0)), (FE_VIEW_CLK_MODE, b2n q.par.locked),
   (FE_VIEW_CLK_LOCK, b2n (q.audio.lock || q.par.locked)), (FE_VIEW_CLK_SLEWING, b2n q.audio.slewing),
   (FE_VIEW_CLK_OUT_OF_RANGE, b2n (!ok)), (FE_REEL_USED, sum (s.reels.map (fun x => x.2)))]

/-- APT_STAT and APT_CHANNELS of port x (R219, R228, R240): master clocks are driven while the port is not STOPPED. -/
def State.aptView (s : State) (x : Nat) : List (Fld × Nat) :=
  let q := s.port x
  let recent := match q.lastGood with
    | some t => decide (s.cnt ≤ t + 1000000)
    | none => false
  let input := (List.range 8).filter (fun c => s.lineDir x (c / 2) == 1 && bit (s.get APT_SLOTMASK x) c)
  [(APT_STAT_CLK_OK, b2n (if s.flag APT_STAT_MASTER x then s.clockPins x == .driven else recent)),
   (APT_STAT_GATES, bitsWhere 8 (fun c => (q.gates[c]?).any Gate.isOpen)), (APT_STAT_PENDING, q.pend.length),
   (APT_CHANNELS, input.length)]

/-- IXP_STAT of port x (R228). -/
def State.ixpView (s : State) (x : Nat) : List (Fld × Nat) :=
  let q := s.port (x + 8)
  [(IXP_STAT_GATES, bitsWhere 2 (fun c => (q.gates[c]?).any Gate.isOpen)), (IXP_STAT_PENDING, q.pend.length)]

/-- CORE_STAT, CORE_SRAM_USED and CORE_POOL_FREE of core c (R260, R266, R296). -/
def State.coreView (s : State) (c : Nat) : List (Fld × Nat) :=
  let images := s.images.flatMap (fun e => e.2)
  let secs := images.flatMap (fun m => m.on c)
  let pages := (List.range 4096).filter (fun p => secs.any (fun x => Span.meets (x.off, x.len) (4096 * p, 4096)))
  [(CORE_STAT_LISTEN_CORE, b2n (decide (c < 4))),
   (CORE_STAT_RUN_ACTIVE, b2n (s.runs.any (fun r => bit r.rcd.coreMask c))), (CORE_SRAM_USED, pages.length),
   (CORE_POOL_FREE, freeBytes (pools images 6 c ++ pools images 5 c) (s.taken c) / 64)]

/-- RING_STAT of ring r: no free descriptor, and an ENABLE write that awaits its boundary (R131, R135). -/
def State.ringView (s : State) (r : Nat) : List (Fld × Nat) :=
  let ty := s.get RING_CFG_TYPE r
  let used := if ty = ringSUBMIT || ty = ringCOMMAND then s.posted r else s.ringUsed r
  [(RING_STAT_FULL, b2n (s.get RING_STAT_STATE r != 0 && s.ringN r ≤ used)),
   (RING_STAT_ENABLE_PENDING, b2n (s.pendOf RING_CTL_ENABLE r).isSome)]

/-- PROG_STAT.LOADED and CORE_PROG_VIEW of tenancy t (R260): an image being unloaded counts no more (R265). -/
def State.progView (s : State) (t : Nat) : List (Fld × Nat) :=
  let l := (s.imagesOf t).filter (fun m => !m.unloading)
  [(PROG_STAT_LOADED, l.length), (CORE_PROG_VIEW, ((l[s.get CORE_PROG_SEL t]?).map (fun m => m.id)).getD 0)]

/-- Page counts, handles in use and FELT_VIEW_DEC of tenancy t (R338, R343, R373). -/
def State.feltView (s : State) (t : Nat) : List (Fld × Nat) :=
  let i := s.get FELT_SEL t
  let ok := s.inRange t i
  [(FELT_USED, s.feltUsed t),
   (FELT_HANDLES, bitsWhere 16 (fun h => (Map.get s.handles (16 * t + h) {}).used)),
   (FELT_VIEW_DEC_PAGES, if ok then (s.slot i).committed.pages.length else 0), (FELT_VIEW_DEC_OUT_OF_RANGE, b2n (!ok)),
   (FELT_FREE, feltPages - s.feltIn 1 - s.feltIn 2), (FELT_LIVE, s.feltIn 1), (FELT_RELEASING, s.feltIn 2)]

/-- Tags and the prefetch store (R385, R397). -/
def State.gxView (s : State) (t : Nat) : List (Fld × Nat) :=
  [(GX_TAGS_HELD, s.tagsOut (some t)), (GX_PF_USED, ceilDiv (s.pfBytes (some t)) 65536), (GX_TAGS_FREE, 2048 - s.tagsOut none)]

/-- SOL_STAT, the store and SOL_SCHED_VIEW of tenancy t (R428, R440). -/
def State.solView (s : State) (t : Nat) : List (Fld × Nat) :=
  let img := (s.solHandle t (s.get SOL_HANDLE_SEL t)).img
  let mine := fun (r : SolReq) => r.tenancy == t && !r.dead && !r.full
  [(SOL_STAT_PENDING, (s.sol.reqs.filter mine).length + b2n (s.sol.run.any (fun r => mine r.req))),
   (SOL_STAT_RUNNING, b2n (s.sol.run.any (fun r => r.req.tenancy == t))),
   (SOL_STAT_LOADED, bitsWhere 4 (fun h => !(s.solHandle t h).img.isEmpty)),
   (SOL_STAT_PARAM_PENDING, bitsWhere 4 (fun h => (s.solHandle t h).due.isSome)),
   (SOL_STORE_USED, s.solUsed t), (SOL_STORE_FREE, s.solFree), (SOL_SCHED_VIEW, if img.isEmpty then 0 else le img 0x14 4)]

/-- The selected calender flow of tenancy t (R501). -/
def State.calView (s : State) (t : Nat) : List (Fld × Nat) :=
  let q := s.flow t (s.get CAL_FLOW_SEL t)
  let c := match q.pend with
    | some (v, _, _) => q.config v
    | none => q
  [(CAL_FLOW_CFG_MODE, c.mode), (CAL_FLOW_CFG_STEPS, c.steps), (CAL_FLOW_CFG_E0, ofS 8 c.e0), (CAL_FLOW_CFG_SAT_THR, c.thr),
   (CAL_FLOW_VIEW_E, ofS 8 q.e), (CAL_FLOW_VIEW_SAT_TICK, min q.sat (two 24 - 1))]

/-- Unread records of the error log, and its selected record (R559). -/
def State.memView (s : State) : List (Fld × Nat) :=
  [(MEMG_STAT_LOG_COUNT, idxSub (s.get MEM_LOG_WR) (s.get MEM_LOG_RD)),
   (MEM_LOG_VIEW, le (Map.get s.mem.log (s.get MEM_LOG_SEL) []) 0 4)]

/-- The fields of a page that report state kept elsewhere, with what party `p` reads; `j` is the element of a register array. -/
def State.viewsOf (s : State) (p : Party) (pg : Page) (i j : Nat) : List (Fld × Nat) :=
  match pg with
  | .pkgi => pkgView p
  | .ht => [(HT_CNT_LO, s.cnt)]
  | .tt => s.ttView j
  | .str => s.strView i
  | .fe => s.feView i
  | .apt => s.aptView i
  | .ixp => s.ixpView i
  | .core => s.coreView i
  | .ring => s.ringView i
  | .prog => s.progView i
  | .felt => s.feltView i
  | .gx => s.gxView i
  | .sol => s.solView i
  | .cal => s.calView i
  | .memg => s.memView
  | .isog => [(ISO_RES_FREE, s.sharedPart - s.sharedOthers 64)]
  | .isot => [(ISO_RES_USED, s.resultUsed i 0)]
  | .dbgw => [(DBG_TRACE_VIEW, if s.groupOpen 0 then le (Map.get s.iso.trace (s.get DBG_TRACE_SEL) []) 0 4 else 0)]
  | .pkgb | .blg | .blp | .pwrg | .pwrt | .memt | .ledg | .ledt | .dbgg | .blt | .sb => []

/-- What party `p` reads in a field: its own latch for an RO-L field (R696), what the unit reports, else the pending value or the value
in force (R699). -/
def State.readField (s : State) (p : Party) (r : FieldRow) (i j : Nat) : Nat :=
  if r.acc = .rol then s.latched p r.fld i j
  else match (s.viewsOf p r.fld.page i j).find? (fun e => decide (e.1 = r.fld)) with
    | some e => e.2 % two r.fld.w
    | none => s.shown r.fld i j

/-- An RW-T field of the page holds a pending value of any writer (R705). -/
def State.hasPending (s : State) (pg : Page) (i : Nat) : Bool :=
  s.pend.any (fun q => decide (q.fld.page = pg) && q.inst == i)
    || (pg == .cal && s.bl.flows.any (fun e => e.1 / 256 == i && e.2.pend.isSome))

/-- The words of the common header (R723): PAGE_ID, VERSION, INT_EN, SHADOW_CTL, GEN and TENANCY. -/
def State.headerWord (s : State) (pg : Page) (i off : Nat) : Nat :=
  if off = 0 then i + two 16 * pg.type
  else if off = 4 then 1
  else if off = 0x14 then s.get (hdrIntEn pg) i
  else if off = 0x1C then s.get (hdrApply pg) i + 4 * s.get (hdrHold pg) i + 256 * b2n (s.hasPending pg i)
  else if off = 0x20 then s.get (hdrGen pg) i
  else if off = 0x24 then s.owner pg i
  else 0

/-- The field's register, or an element of its array, is at offset `off`. -/
def FieldRow.covers (r : FieldRow) (off : Nat) : Bool := r.fld.off ≤ off && off < r.fld.off + 4 * r.n

/-- The word party `p` reads at offset `off` of a page: zero while the stream die is down and for a page out of reach, and zero in every
bit that no field holds (R697, R709, R719). -/
def State.readWord (s : State) (p : Party) (pg : Page) (i off : Nat) : Nat :=
  if !s.pkg.sdUp || s.reachOf p pg i == .none then 0
  else ((pg.rows.filter (fun r => r.covers off && pg.present i off)).map
    (fun r => s.readField p r i ((off - r.fld.off) / 4) * two r.fld.lo)).foldl (· + ·) (s.headerWord pg i off)

end Sys2Proof.Machine
end

