-- ==== Sys2Proof/Machine/Bus.lean ====
section
/-! DEFINITION. Machine/Bus.lean: accesses to BAR0 and BAR4, and the identity a function shows (R126 to R128, R693, R696, R708). -/
namespace Sys2Proof.Machine

/-! ## Identity (R126, R127) -/

/-- The identity fields of a function's configuration space. -/
inductive IdReg where
  | vendor | device | revision | classCode | subVendor | subsystem | totalVfs | initialVfs | firstVf | vfStride | vfDevice
deriving DecidableEq, Repr

/-- What function `f` shows of itself; the SR-IOV capability is function 0's. -/
def identity (f : Nat) (r : IdReg) : Nat :=
  match r with
  | .vendor => if f = 0 then 0x1DF7 else 0xFFFF
  | .device => if f = 0 then 0x0A61 else 0xFFFF
  | .revision => 0xB0
  | .classCode => 0x120000
  | .subVendor => 0x1DF7
  | .subsystem => if Config.order64 then 0x0064 else 0x0128
  | .totalVfs | .initialVfs => if f = 0 then 63 else 0
  | .firstVf | .vfStride => if f = 0 then 1 else 0
  | .vfDevice => if f = 0 then 0x0A62 else 0

/-! ## Writes -/

/-- The whole dwords that a write carries: 4 bytes aligned to 4, or 8 aligned to 8, each with all its byte enables (R693). -/
def busDwords (w : BusWrite) : List (Nat × Nat) :=
  if w.len = 4 && w.addr % 4 = 0 then (if w.be % 16 = 15 then [(w.addr, w.value % two 32)] else [])
  else if w.len = 8 && w.addr % 8 = 0 then
    (if w.be % 16 = 15 then [(w.addr, w.value % two 32)] else []) ++
    (if w.be / 16 % 16 = 15 then [(w.addr + 4, w.value / two 32 % two 32)] else [])
  else []

/-- A bus write: its dwords in order. -/
def State.busWrite (s : State) (p : Party) (w : BusWrite) : State :=
  (busDwords w).foldl (fun (u : State) x => if w.bar4 then u.bar4Write p x.1 x.2 else u.dwordWrite p x.1 x.2) s

/-! ## Reads (R64, R693, R696, R708, R709) -/

/-- A read of a register that latches others, or clears; none where the register only shows its value. -/
def State.trigger (s : State) (p : Party) (pg : Page) (i off : Nat) : Option State :=
  match pg with
  | .ht => if off = HT_CNT_LO.off then some (s.readCnt p) else if off = HT_PPS_CAP_LO.off then some (s.readCap p) else none
  | .tt => if off = TT_TICK_LO.off then some (s.readTick p) else none
  | .str => if off = STR_VIEW_STATE_STATE.off then some (s.viewSlot p i) else none
  | .fe => if off = FE_VIEW_CLK_MODE.off then some (s.viewClk p i) else none
  | .apt => if off = APT_STAMP_LO.off then some (s.viewStamp p i) else none
  | .ixp => if off = IXP_STAMP_LO.off then some (s.viewIec p i) else if off = IXP_CS_A.off then some (s.viewCs p i) else none
  | .core => if off = CORE_FAULT_CODE.off then some (s.readCoreFault p i) else none
  | .felt => if off = FELT_VIEW_DEC_PAGES.off then some (s.viewFelt p i) else none
  | .memg => if off = MEM_LOG_VIEW.off then some (s.readLog p) else none
  | .ledg => if off = LED_LAST_BOOK_BOOK.off then some (s.readBook p) else none
  | .dbgw => if off = DBG_TRACE_VIEW.off then some (s.readTrace p) else none
  | .sb => if off = SB_EPOCH_LO.off then some (s.readEpoch p) else if off = 0x124 then some (s.readLast p) else none
  | .pkgi | .pkgb | .ring | .prog | .gx | .sol | .blg | .blp | .cal | .pwrg | .pwrt | .memt | .ledt | .isog | .isot | .dbgg | .blt => none

/-- A whole dword of BAR0 is read: zero where no page is, and where the page is out of reach, which is counted (R600, R707, R709). -/
def State.dwordRead (s : State) (p : Party) (addr : Nat) : State :=
  match pageAt (addr / 0x1000) with
  | none => s.returns 0
  | some (pg, i) =>
    let off := addr % 0x1000 / 4 * 4
    s.reading p pg i (fun u =>
      if pg == .dbgw && !u.winAnswers off then u.returns 0
      else
        let t := (u.trigger p pg i off).getD (u.returns (u.readWord p pg i off))
        t.returns (t.readData % two 32))

/-- The vectors whose pending bits stand in dword `k` of the pending-bit array: bit `j` is vector 32 × k + j. -/
def State.pendingBits (s : State) (f k : Nat) : Nat :=
  bitsWhere 32 (fun j => 32 * k + j < 65 && Map.get s.msix (1024 * f + 512 + 32 * k + j) 0 == 1)

/-- A dword of BAR4 as function `f` reads it: its MSI-X table, the pending-bit array, zero elsewhere (R128, R708). -/
def State.bar4Word (s : State) (f d : Nat) : Nat :=
  if d < 260 then s.msixWord f d else if 0x200 ≤ d && d < 0x204 then s.pendingBits f (d - 0x200) else 0

/-- A dword of BAR4 is read. -/
def State.bar4Read (s : State) (p : Party) (addr : Nat) : State :=
  match p with
  | .fn f => s.returns (if s.pkg.sdUp && s.fnEnabled f then s.bar4Word f (addr / 4) else 0)
  | .sb => s.returns 0

/-- The dword of an access. -/
def State.busDword (s : State) (p : Party) (bar4 : Bool) (addr : Nat) : State := if bar4 then s.bar4Read p addr else s.dwordRead p addr

/-- A bus read: 1 to 4 bytes within one aligned dword, or an aligned pair, its lower dword first; every other shape is refused and has no
effect (R693). -/
def State.busRead (s : State) (p : Party) (w : BusWrite) : State :=
  let o := w.addr % 4
  if 1 ≤ w.len && o + w.len ≤ 4 then
    let t := s.busDword p w.bar4 w.addr
    t.returns (bits t.readData (8 * o) (8 * w.len))
  else if w.len = 8 && w.addr % 8 = 0 then
    let t := s.busDword p w.bar4 w.addr
    let u := t.busDword p w.bar4 (w.addr + 4)
    u.returns (t.readData % two 32 + two 32 * (u.readData % two 32))
  else s

/-- REGISTER_WRITE (R693, R697): an access to BAR0 or BAR4. -/
def execRegisterWrite (dt : Nat) (p : Party) (w : BusWrite) (s : State) : Out :=
  s.done (if w.read then (s.elapse dt).busRead p w else (s.elapse dt).busWrite p w)

end Sys2Proof.Machine
end

