-- ==== Sys2Proof/Machine/Dispatch.lean ====
section
/-! DEFINITION. Machine/Dispatch.lean: exec, one arm per command (spec/opcode_table.json). -/
namespace Sys2Proof.Machine

/-- A command's effect on everything but the queue. -/
def exec (i : Instr) (s : State) : Host.Outcome State Fault Refusal :=
  match i with
  | .ppsEdge dt fall width => Sys2Proof.Machine.execPpsEdge dt fall width s
  | .todArm dt p => Sys2Proof.Machine.execTodArm dt p s
  | .ppsMissing => Sys2Proof.Machine.execPpsMissing s
  | .holdoverSecond => Sys2Proof.Machine.execHoldoverSecond s
  | .refLost dt => Sys2Proof.Machine.execRefLost dt s
  | .refReturn dt => Sys2Proof.Machine.execRefReturn dt s
  | .tickBoundary m => Sys2Proof.Machine.execTickBoundary m s
  | .slotStart => Sys2Proof.Machine.execSlotStart s
  | .placementEnd => Sys2Proof.Machine.execPlacementEnd s
  | .htCntLoRead dt p => Sys2Proof.Machine.execHtCntLoRead dt p s
  | .ttTickLoRead dt p => Sys2Proof.Machine.execTtTickLoRead dt p s
  | .htPpsCapLoRead dt p => Sys2Proof.Machine.execHtPpsCapLoRead dt p s
  | .ttPeriodWrite dt p value => Sys2Proof.Machine.execTtPeriodWrite dt p value s
  | .ttImgLoad dt p => Sys2Proof.Machine.execTtImgLoad dt p s
  | .ttImgAbandon dt p => Sys2Proof.Machine.execTtImgAbandon dt p s
  | .ttImgValidated dt img => Sys2Proof.Machine.execTtImgValidated dt img s
  | .admitStream dt ring desc record => Sys2Proof.Machine.execAdmitStream dt ring desc record s
  | .start dt ring desc => Sys2Proof.Machine.execStart dt ring desc s
  | .stop dt ring desc => Sys2Proof.Machine.execStop dt ring desc s
  | .promote dt ring desc => Sys2Proof.Machine.execPromote dt ring desc s
  | .demote dt ring desc => Sys2Proof.Machine.execDemote dt ring desc s
  | .exportStream dt ring desc => Sys2Proof.Machine.execExportStream dt ring desc s
  | .importStream dt ring desc => Sys2Proof.Machine.execImportStream dt ring desc s
  | .resume dt ring desc => Sys2Proof.Machine.execResume dt ring desc s
  | .restart dt ring desc => Sys2Proof.Machine.execRestart dt ring desc s
  | .release dt ring desc => Sys2Proof.Machine.execRelease dt ring desc s
  | .exportImageWrite dt slot => Sys2Proof.Machine.execExportImageWrite dt slot s
  | .importLoaded dt slot img => Sys2Proof.Machine.execImportLoaded dt slot img s
  | .strImgWindowWrite dt p t off value => Sys2Proof.Machine.execStrImgWindowWrite dt p t off value s
  | .strViewStateRead dt p t => Sys2Proof.Machine.execStrViewStateRead dt p t s
  | .doorbellWrite dt f ring off a => Sys2Proof.Machine.execDoorbellWrite dt f ring off a s
  | .submitAudio dt ring desc audio => Sys2Proof.Machine.execSubmitAudio dt ring desc audio s
  | .submitNop dt ring => Sys2Proof.Machine.execSubmitNop dt ring s
  | .descriptorFetchError dt ring => Sys2Proof.Machine.execDescriptorFetchError dt ring s
  | .thresholdHoldoff ring => Sys2Proof.Machine.execThresholdHoldoff ring s
  | .functionLevelReset dt f => Sys2Proof.Machine.execFunctionLevelReset dt f s
  | .hotReset dt => Sys2Proof.Machine.execHotReset dt s
  | .busMasterEnableChange dt f w => Sys2Proof.Machine.execBusMasterEnableChange dt f w s
  | .vfEnableChange dt en num => Sys2Proof.Machine.execVfEnableChange dt en num s
  | .upstreamStoreIssue dt => Sys2Proof.Machine.execUpstreamStoreIssue dt s
  | .sampleProduction slot => Sys2Proof.Machine.execSampleProduction slot s
  | .beamBind dt p t => Sys2Proof.Machine.execBeamBind dt p t s
  | .beamBlockFetched dt t blk => Sys2Proof.Machine.execBeamBlockFetched dt t blk s
  | .reelAreaWrite dt p off value => Sys2Proof.Machine.execReelAreaWrite dt p off value s
  | .feViewClkRead dt p t => Sys2Proof.Machine.execFeViewClkRead dt p t s
  | .frameBuffer dt port fr => Sys2Proof.Machine.execFrameBuffer dt port fr s
  | .iecFrameReceive dt port fr => Sys2Proof.Machine.execIecFrameReceive dt port fr s
  | .iecSignalLoss dt port => Sys2Proof.Machine.execIecSignalLoss dt port s
  | .ixpCsqHostIdxWrite dt p port value => Sys2Proof.Machine.execIxpCsqHostIdxWrite dt p port value s
  | .portStart dt p port => Sys2Proof.Machine.execPortStart dt p port s
  | .portStop dt p port => Sys2Proof.Machine.execPortStop dt p port s
  | .portFlush dt p port => Sys2Proof.Machine.execPortFlush dt p port s
  | .portCommandEffect dt port => Sys2Proof.Machine.execPortCommandEffect dt port s
  | .zcTimeout dt port channel => Sys2Proof.Machine.execZcTimeout dt port channel s
  | .outputFrame dt port line => Sys2Proof.Machine.execOutputFrame dt port line s
  | .switched dt port => Sys2Proof.Machine.execSwitched dt port s
  | .aptStampLoRead dt p port => Sys2Proof.Machine.execAptStampLoRead dt p port s
  | .ixpStampLoRead dt p port => Sys2Proof.Machine.execIxpStampLoRead dt p port s
  | .ixpCsARead dt p port => Sys2Proof.Machine.execIxpCsARead dt p port s
  | .tileW4 core ins x => Sys2Proof.Machine.execTileW4 core ins x s
  | .tileW8 core ins x => Sys2Proof.Machine.execTileW8 core ins x s
  | .tileBf16 core x => Sys2Proof.Machine.execTileBf16 core x s
  | .attn core ins x => Sys2Proof.Machine.execAttn core ins x s
  | .vecAdd core ins => Sys2Proof.Machine.execVecAdd core ins s
  | .vecMul core ins => Sys2Proof.Machine.execVecMul core ins s
  | .vecFma core ins => Sys2Proof.Machine.execVecFma core ins s
  | .vecDiv core ins => Sys2Proof.Machine.execVecDiv core ins s
  | .vecSqrt core ins => Sys2Proof.Machine.execVecSqrt core ins s
  | .vecRcp core ins => Sys2Proof.Machine.execVecRcp core ins s
  | .vecRsqrt core ins => Sys2Proof.Machine.execVecRsqrt core ins s
  | .vecExp core ins => Sys2Proof.Machine.execVecExp core ins s
  | .vecLn core ins => Sys2Proof.Machine.execVecLn core ins s
  | .vecMax core ins => Sys2Proof.Machine.execVecMax core ins s
  | .vecMin core ins => Sys2Proof.Machine.execVecMin core ins s
  | .vecQuant core ins => Sys2Proof.Machine.execVecQuant core ins s
  | .vecCvt core ins => Sys2Proof.Machine.execVecCvt core ins s
  | .vecMove core ins => Sys2Proof.Machine.execVecMove core ins s
  | .cellLstm core ins => Sys2Proof.Machine.execCellLstm core ins s
  | .cellGru core ins => Sys2Proof.Machine.execCellGru core ins s
  | .cellTable core ins => Sys2Proof.Machine.execCellTable core ins s
  | .appendKv core ins row => Sys2Proof.Machine.execAppendKv core ins row s
  | .gather dt core ins => Sys2Proof.Machine.execGather dt core ins s
  | .update dt core ins => Sys2Proof.Machine.execUpdate dt core ins s
  | .send dt core ins => Sys2Proof.Machine.execSend dt core ins s
  | .waitMbx core ins => Sys2Proof.Machine.execWaitMbx core ins s
  | .solve dt core ins => Sys2Proof.Machine.execSolve dt core ins s
  | .barrier core ins => Sys2Proof.Machine.execBarrier core ins s
  | .endStream dt core ins rows => Sys2Proof.Machine.execEndStream dt core ins rows s
  | .resultMessage dt slot => Sys2Proof.Machine.execResultMessage dt slot s
  | .commit dt slot => Sys2Proof.Machine.execCommit dt slot s
  | .featMessage dt slot => Sys2Proof.Machine.execFeatMessage dt slot s
  | .feltRefUpdate dt => Sys2Proof.Machine.execFeltRefUpdate dt s
  | .couchFlitCrcError x => Sys2Proof.Machine.execCouchFlitCrcError x s
  | .progLoad dt p t => Sys2Proof.Machine.execProgLoad dt p t s
  | .progUnload dt p t => Sys2Proof.Machine.execProgUnload dt p t s
  | .progReload dt p t => Sys2Proof.Machine.execProgReload dt p t s
  | .progLoadDone dt t img => Sys2Proof.Machine.execProgLoadDone dt t img s
  | .progReloadQuiet dt t => Sys2Proof.Machine.execProgReloadQuiet dt t s
  | .coreFaultRead dt p core => Sys2Proof.Machine.execCoreFaultRead dt p core s
  | .coreSided dt core => Sys2Proof.Machine.execCoreSided dt core s
  | .pfxCapture dt p t => Sys2Proof.Machine.execPfxCapture dt p t s
  | .pfxAttach dt p t => Sys2Proof.Machine.execPfxAttach dt p t s
  | .pfxDrop dt p t => Sys2Proof.Machine.execPfxDrop dt p t s
  | .feltViewDecRead dt p t => Sys2Proof.Machine.execFeltViewDecRead dt p t s
  | .gxDefine dt p t => Sys2Proof.Machine.execGxDefine dt p t s
  | .gxDelete dt p t => Sys2Proof.Machine.execGxDelete dt p t s
  | .gxEnable dt p t => Sys2Proof.Machine.execGxEnable dt p t s
  | .gxDisable dt p t => Sys2Proof.Machine.execGxDisable dt p t s
  | .gxLoad dt p t => Sys2Proof.Machine.execGxLoad dt p t s
  | .gxSave dt p t => Sys2Proof.Machine.execGxSave dt p t s
  | .gxCmdDone dt t data => Sys2Proof.Machine.execGxCmdDone dt t data s
  | .readReq dt q => Sys2Proof.Machine.execReadReq dt q s
  | .readReply dt src t arg data => Sys2Proof.Machine.execReadReply dt src t arg data s
  | .refuse dt src t arg mismatch => Sys2Proof.Machine.execRefuse dt src t arg mismatch s
  | .gatherReadTimeout tag => Sys2Proof.Machine.execGatherReadTimeout tag s
  | .updatePacket dt src t payload => Sys2Proof.Machine.execUpdatePacket dt src t payload s
  | .fence dt src f => Sys2Proof.Machine.execFence dt src f s
  | .applied dt src f => Sys2Proof.Machine.execApplied dt src f s
  | .updateCut => Sys2Proof.Machine.execUpdateCut s
  | .intervalApply dt t table => Sys2Proof.Machine.execIntervalApply dt t table s
  | .fenceLimitExpiry t table => Sys2Proof.Machine.execFenceLimitExpiry t table s
  | .gxTagQuotaWrite dt p t value => Sys2Proof.Machine.execGxTagQuotaWrite dt p t value s
  | .gxPfQuotaWrite dt p t value => Sys2Proof.Machine.execGxPfQuotaWrite dt p t value s
  | .gxWinWrite dt p t off value => Sys2Proof.Machine.execGxWinWrite dt p t off value s
  | .solLoad dt p t => Sys2Proof.Machine.execSolLoad dt p t s
  | .solUnload dt p t => Sys2Proof.Machine.execSolUnload dt p t s
  | .solParam dt p t => Sys2Proof.Machine.execSolParam dt p t s
  | .solLoadDone dt t img => Sys2Proof.Machine.execSolLoadDone dt t img s
  | .solParamChecked dt t blk => Sys2Proof.Machine.execSolParamChecked dt t blk s
  | .solSubmit dt p t => Sys2Proof.Machine.execSolSubmit dt p t s
  | .solveRequestRead dt t req => Sys2Proof.Machine.execSolveRequestRead dt t req s
  | .solveStart dt meas => Sys2Proof.Machine.execSolveStart dt meas s
  | .solveDeadlineExpiry t req => Sys2Proof.Machine.execSolveDeadlineExpiry t req s
  | .solvePhaseEnd => Sys2Proof.Machine.execSolvePhaseEnd s
  | .solStoreQuotaWrite dt p t value => Sys2Proof.Machine.execSolStoreQuotaWrite dt p t value s
  | .flitReceive dt port flit => Sys2Proof.Machine.execFlitReceive dt port flit s
  | .lossOfSignal dt port => Sys2Proof.Machine.execLossOfSignal dt port s
  | .portTrained dt port lanes => Sys2Proof.Machine.execPortTrained dt port lanes s
  | .hello dt port h => Sys2Proof.Machine.execHello dt port h s
  | .sideReq dt port => Sys2Proof.Machine.execSideReq dt port s
  | .sideAck dt port => Sys2Proof.Machine.execSideAck dt port s
  | .width dt port lanes => Sys2Proof.Machine.execWidth dt port lanes s
  | .rate dt port code => Sys2Proof.Machine.execRate dt port code s
  | .drained dt port => Sys2Proof.Machine.execDrained dt port s
  | .mapNotice dt port n => Sys2Proof.Machine.execMapNotice dt port n s
  | .drain dt port d => Sys2Proof.Machine.execDrain dt port d s
  | .drainReportTimer => Sys2Proof.Machine.execDrainReportTimer s
  | .seqGapExpiry src vc => Sys2Proof.Machine.execSeqGapExpiry src vc s
  | .tensorData dt pk => Sys2Proof.Machine.execTensorData dt pk s
  | .waitLimitExpiry core => Sys2Proof.Machine.execWaitLimitExpiry core s
  | .xferStart dt p t => Sys2Proof.Machine.execXferStart dt p t s
  | .xferData dt pk err => Sys2Proof.Machine.execXferData dt pk err s
  | .xferAck dt src t code => Sys2Proof.Machine.execXferAck dt src t code s
  | .xferAckTimeout t => Sys2Proof.Machine.execXferAckTimeout t s
  | .blNodeWrite dt p value => Sys2Proof.Machine.execBlNodeWrite dt p value s
  | .blConsistIdWrite dt p value => Sys2Proof.Machine.execBlConsistIdWrite dt p value s
  | .modeRequest dt p value => Sys2Proof.Machine.execModeRequest dt p value s
  | .standbyReady dt => Sys2Proof.Machine.execStandbyReady dt s
  | .governorSolveEnd dt => Sys2Proof.Machine.execGovernorSolveEnd dt s
  | .allowanceExhausted dt core => Sys2Proof.Machine.execAllowanceExhausted dt core s
  | .limiter dt => Sys2Proof.Machine.execLimiter dt s
  | .voltageStepReturn core => Sys2Proof.Machine.execVoltageStepReturn core s
  | .ceWriteback dt store unit addr => Sys2Proof.Machine.execCeWriteback dt store unit addr s
  | .patrolRead dt r => Sys2Proof.Machine.execPatrolRead dt r s
  | .memLogRdWrite dt p value => Sys2Proof.Machine.execMemLogRdWrite dt p value s
  | .memLogViewRead dt p => Sys2Proof.Machine.execMemLogViewRead dt p s
  | .memInjectArm dt p => Sys2Proof.Machine.execMemInjectArm dt p s
  | .ledgerAuditDone dt => Sys2Proof.Machine.execLedgerAuditDone dt s
  | .ledLastBookRead dt p => Sys2Proof.Machine.execLedLastBookRead dt p s
  | .dbgChallenge dt p => Sys2Proof.Machine.execDbgChallenge dt p s
  | .dbgRespond dt p => Sys2Proof.Machine.execDbgRespond dt p s
  | .dbgClose dt p => Sys2Proof.Machine.execDbgClose dt p s
  | .nonceExpiry => Sys2Proof.Machine.execNonceExpiry s
  | .dbgWinRead dt p => Sys2Proof.Machine.execDbgWinRead dt p s
  | .dbgWinWrite dt p => Sys2Proof.Machine.execDbgWinWrite dt p s
  | .dbgHaltWrite dt p hi value => Sys2Proof.Machine.execDbgHaltWrite dt p hi value s
  | .dbgTraceViewRead dt p => Sys2Proof.Machine.execDbgTraceViewRead dt p s
  | .isoResReserveWrite dt p t value => Sys2Proof.Machine.execIsoResReserveWrite dt p t value s
  | .getUnit dt body => Sys2Proof.Machine.execGetUnit dt body s
  | .side dt body => Sys2Proof.Machine.execSide dt body s
  | .returnUnit dt body => Sys2Proof.Machine.execReturnUnit dt body s
  | .teardown dt body => Sys2Proof.Machine.execTeardown dt body s
  | .setCap dt body => Sys2Proof.Machine.execSetCap dt body s
  | .setMode dt body => Sys2Proof.Machine.execSetMode dt body s
  | .setLock dt body => Sys2Proof.Machine.execSetLock dt body s
  | .setPowerParam dt body => Sys2Proof.Machine.execSetPowerParam dt body s
  | .keyRevoke dt body => Sys2Proof.Machine.execKeyRevoke dt body s
  | .keyProgram dt body key => Sys2Proof.Machine.execKeyProgram dt body key s
  | .getSnapshot dt body => Sys2Proof.Machine.execGetSnapshot dt body s
  | .getResult dt body => Sys2Proof.Machine.execGetResult dt body s
  | .setEndpointId dt eid => Sys2Proof.Machine.execSetEndpointId dt eid s
  | .getVersion dt => Sys2Proof.Machine.execGetVersion dt s
  | .getCapabilities dt => Sys2Proof.Machine.execGetCapabilities dt s
  | .negotiateAlgorithms dt asym hash => Sys2Proof.Machine.execNegotiateAlgorithms dt asym hash s
  | .getDigests dt => Sys2Proof.Machine.execGetDigests dt s
  | .getCertificate dt slot off len => Sys2Proof.Machine.execGetCertificate dt slot off len s
  | .challenge dt nonce => Sys2Proof.Machine.execChallenge dt nonce s
  | .getMeasurements dt index nonce => Sys2Proof.Machine.execGetMeasurements dt index nonce s
  | .getPdr dt handle => Sys2Proof.Machine.execGetPdr dt handle s
  | .getSensorReading dt sensor => Sys2Proof.Machine.execGetSensorReading dt sensor s
  | .getStateSensorReadings dt sensor => Sys2Proof.Machine.execGetStateSensorReadings dt sensor s
  | .requestUpdate dt maxTransfer components => Sys2Proof.Machine.execRequestUpdate dt maxTransfer components s
  | .passComponentTable dt id version => Sys2Proof.Machine.execPassComponentTable dt id version s
  | .updateComponent dt id version size => Sys2Proof.Machine.execUpdateComponent dt id version size s
  | .requestFirmwareData dt off data => Sys2Proof.Machine.execRequestFirmwareData dt off data s
  | .activateFirmware dt => Sys2Proof.Machine.execActivateFirmware dt s
  | .sbRestart dt => Sys2Proof.Machine.execSbRestart dt s
  | .sbEpochLoRead dt p => Sys2Proof.Machine.execSbEpochLoRead dt p s
  | .sbLastCmdRead dt p => Sys2Proof.Machine.execSbLastCmdRead dt p s
  | .powerOn st fw => Sys2Proof.Machine.execPowerOn st fw s
  | .pwrGoodFall dt => Sys2Proof.Machine.execPwrGoodFall dt s
  | .sysReset dt width st => Sys2Proof.Machine.execSysReset dt width st s
  | .perstAssert dt => Sys2Proof.Machine.execPerstAssert dt s
  | .perstDeassert dt => Sys2Proof.Machine.execPerstDeassert dt s
  | .railUndervoltage dt ns => Sys2Proof.Machine.execRailUndervoltage dt ns s
  | .thermalTrip dt => Sys2Proof.Machine.execThermalTrip dt s
  | .bootRomDone dt ok => Sys2Proof.Machine.execBootRomDone dt ok s
  | .sbFirmwareDone dt ok => Sys2Proof.Machine.execSbFirmwareDone dt ok s
  | .sdReady dt => Sys2Proof.Machine.execSdReady dt s
  | .dramTrainingDone dt failed => Sys2Proof.Machine.execDramTrainingDone dt failed s
  | .scrubDone dt => Sys2Proof.Machine.execScrubDone dt s
  | .cdReady dt => Sys2Proof.Machine.execCdReady dt s
  | .registerWrite dt p w => Sys2Proof.Machine.execRegisterWrite dt p w s
  | .intStatClear dt p addr value => Sys2Proof.Machine.execIntStatClear dt p addr value s
  | .intForce dt p addr value => Sys2Proof.Machine.execIntForce dt p addr value s
  | .shadowHold dt p addr hold => Sys2Proof.Machine.execShadowHold dt p addr hold s
  | .shadowApply dt p addr => Sys2Proof.Machine.execShadowApply dt p addr s
  | .shadowAbandon dt p addr => Sys2Proof.Machine.execShadowAbandon dt p addr s
  | .xferSendComplete dt t data => Sys2Proof.Machine.execXferSendComplete dt t data s
  | .cdBringUpFailed dt couch => Sys2Proof.Machine.execCdBringUpFailed dt couch s
  | .dynamicAddressAssignment dt addr => Sys2Proof.Machine.execDynamicAddressAssignment dt addr s
  | .eventReceiverRegistration dt eid => Sys2Proof.Machine.execEventReceiverRegistration dt eid s

end Sys2Proof.Machine
end

