-- ==== Sys2Proof/Safety.lean ====
section
/-! DEFINITION. Safety.lean: what every state between two commands keeps, and the words statements about commands use. -/
namespace Sys2Proof.Machine

/-- The byte memories are in canonical form, and no command is half way: no store of one is outstanding, no core acts. -/
abbrev State.Inv (s : State) : Prop :=
  s.sram.wf = true ∧ s.feltMem.wf = true ∧ s.dram.wf = true ∧ s.post = [] ∧ s.actor = none

/-- The parts of the state, one per field of State. -/
inductive Part where
  | cnt | frac | regs | pend | latches | genAt | readData | msix | ht | tt | fns | vfEnable | numVfs | linkUp | rings
  | stores | lastGrant | txq | slots | cmds | binds | ports | images | progCmds | runs | commits | nextRun | cellTabs
  | felt | handles | pfx | couchTries | couchUp | gx | sol | bl | pwr | mem | led | iso | sb | pkg | sram | feltMem
  | dram | post | actor | draws | pending
deriving DecidableEq, Repr

/-- The part is the same in both states. -/
def Part.Same : Part → State → State → Prop
  | .cnt, s, t => t.cnt = s.cnt
  | .frac, s, t => t.frac = s.frac
  | .regs, s, t => t.regs = s.regs
  | .pend, s, t => t.pend = s.pend
  | .latches, s, t => t.latches = s.latches
  | .genAt, s, t => t.genAt = s.genAt
  | .readData, s, t => t.readData = s.readData
  | .msix, s, t => t.msix = s.msix
  | .ht, s, t => t.ht = s.ht
  | .tt, s, t => t.tt = s.tt
  | .fns, s, t => t.fns = s.fns
  | .vfEnable, s, t => t.vfEnable = s.vfEnable
  | .numVfs, s, t => t.numVfs = s.numVfs
  | .linkUp, s, t => t.linkUp = s.linkUp
  | .rings, s, t => t.rings = s.rings
  | .stores, s, t => t.stores = s.stores
  | .lastGrant, s, t => t.lastGrant = s.lastGrant
  | .txq, s, t => t.txq = s.txq
  | .slots, s, t => t.slots = s.slots
  | .cmds, s, t => t.cmds = s.cmds
  | .binds, s, t => t.binds = s.binds
  | .ports, s, t => t.ports = s.ports
  | .images, s, t => t.images = s.images
  | .progCmds, s, t => t.progCmds = s.progCmds
  | .runs, s, t => t.runs = s.runs
  | .commits, s, t => t.commits = s.commits
  | .nextRun, s, t => t.nextRun = s.nextRun
  | .cellTabs, s, t => t.cellTabs = s.cellTabs
  | .felt, s, t => t.felt = s.felt
  | .handles, s, t => t.handles = s.handles
  | .pfx, s, t => t.pfx = s.pfx
  | .couchTries, s, t => t.couchTries = s.couchTries
  | .couchUp, s, t => t.couchUp = s.couchUp
  | .gx, s, t => t.gx = s.gx
  | .sol, s, t => t.sol = s.sol
  | .bl, s, t => t.bl = s.bl
  | .pwr, s, t => t.pwr = s.pwr
  | .mem, s, t => t.mem = s.mem
  | .led, s, t => t.led = s.led
  | .iso, s, t => t.iso = s.iso
  | .sb, s, t => t.sb = s.sb
  | .pkg, s, t => t.pkg = s.pkg
  | .sram, s, t => t.sram = s.sram
  | .feltMem, s, t => t.feltMem = s.feltMem
  | .dram, s, t => t.dram = s.dram
  | .post, s, t => t.post = s.post
  | .actor, s, t => t.actor = s.actor
  | .draws, s, t => t.draws = s.draws
  | .pending, s, t => t.pending = s.pending

/-- Every part of the state but those listed is as it was: no register, queue, buffer, memory or counter outside them has changed. -/
def State.SameBut (s t : State) (l : List Part) : Prop := ∀ p, p ∉ l → p.Same s t

/-- `dt` ns of the counting clock have passed (R32). -/
def State.Took (s : State) (dt : Nat) (t : State) : Prop := t.cnt = (s.elapse dt).cnt ∧ t.frac = (s.elapse dt).frac

/-- Every byte of every memory reads as before. -/
def State.SameBytes (s t : State) : Prop := ∀ sp a, t.rd sp a = s.rd sp a

/-- Every register field but those with a key in `l` is as before. -/
def State.SameRegsBut (s t : State) (l : List Nat) : Prop := ∀ k, k ∉ l → Map.find t.regs k = Map.find s.regs k

/-- `p` may write the fields of a page that carry no qualifier: the part answers and the page is the party's (R709, R719). -/
abbrev State.MayWrite (s : State) (p : Party) (pg : Page) (i : Nat) : Prop := s.pkg.sdUp = true ∧ s.reachOf p pg i = .full

/-- `p` may read a page: the part answers and the page is within the party's reach (R709, R719). -/
abbrev State.MayRead (s : State) (p : Party) (pg : Page) (i : Nat) : Prop := s.pkg.sdUp = true ∧ s.reachOf p pg i ≠ .none

/-- The command `c` that descriptor `d` of COMMAND ring `r` carries is consumed with its opcode, and passes checks 1 to 4 of R83 and its
own check `own` (R84). -/
abbrev State.Accepts (s : State) (r op : Nat) (d : List Byte) (own : State → StreamCmd → Nat) : Prop :=
  s.canTake r = true ∧ (s.parseCmd r d).op = op ∧ (s.takeCommand r).cmdCheck (s.parseCmd r d) = 0 ∧
  own (s.takeCommand r) (s.parseCmd r d) = 0

/-- Run `r` of image `m` executes on `core`, its dispatch window is over, and no fault stops it; the 32 bytes of its CODE section that it reaches
next are opcode `op` with the fields `i`, and no word of the part reads uncorrectable (R261, R270, R543). -/
abbrev State.Executes (s : State) (core : Nat) (r : Run) (m : Image) (op : Nat) (i : Ins) : Prop :=
  s.runOn core = some r ∧ s.runBy r.id = some r ∧ s.runImage r = some m ∧ r.started = true ∧ r.opened = true ∧ r.stops = none ∧
  (∃ a b, s.nextWord r m core = some (a, b) ∧ insOf b = (op, i)) ∧ ∀ d ∈ s.mem.damage, d.kind = 1

/-- The run, `x` in the state after, has passed one instruction that took `n` cycles; no other run has changed; and no register, interrupt or
error record has, where no word is damaged or armed to be and the stage stays within BUDGET (R261, R273). -/
def State.Passed (s t : State) (core n : Nat) (r x : Run) : Prop :=
  t.runBy r.id = some x ∧ Map.get x.pos core 0 = Map.get r.pos core 0 + 32 ∧ Map.get x.cycles core 0 = Map.get r.cycles core 0 + n ∧
  x.rows = r.rows ∧ x.rcd = r.rcd ∧ x.suspended = r.suspended ∧ (∀ id, id ≠ r.id → t.runBy id = s.runBy id) ∧
  (s.mem.damage = [] → s.flag MEM_INJECT_ARM = false → Map.get r.cycles core 0 + n ≤ r.rcd.budget →
    t.regs = s.regs ∧ t.mem = s.mem ∧ t.stores = s.stores ∧ t.msix = s.msix)

/-- The bytes `data` stand at `a` of a memory, and every other byte of every memory reads as before. -/
def State.Stored (s t : State) (sp : Space) (a : Nat) (data : List Byte) : Prop :=
  t.rdBytes sp a data.length = data ∧ ∀ q b, (q ≠ sp ∨ b < a ∨ a + data.length ≤ b) → t.rd q b = s.rd q b

/-- The part is as at T0: the counter at zero, nothing running, bound or queued upstream, the link down, every byte of every memory zero; fuses
keep what they hold (R664, R666, R679). -/
def State.Cold (s t : State) : Prop :=
  t.cnt = 0 ∧ t.frac = 0 ∧ t.linkUp = false ∧ t.vfEnable = false ∧ t.pkg.sdUp = false ∧ t.pkg.released = false ∧ t.slots = [] ∧ t.runs = [] ∧
  t.rings = [] ∧ t.stores = [] ∧ t.commits = [] ∧ t.images = [] ∧ t.cmds = [] ∧ t.fns = [] ∧ t.pend = [] ∧ t.sb.queue = [] ∧ t.sb.snaps = [] ∧
  t.iso.keys = s.iso.keys ∧ t.get DBG_KEY_STAT_SLOTS = s.get DBG_KEY_STAT_SLOTS % two DBG_KEY_STAT_SLOTS.w ∧
  t.get SB_ANTIROLLBACK_SB = s.get SB_ANTIROLLBACK_SB % two SB_ANTIROLLBACK_SB.w ∧ t.get SB_STAT_STAGE = 0 ∧ t.get PWR_CAP_MW = 75000 ∧
  t.get TT_STAT_RUNNING = 0 ∧ t.get MEMG_STAT_FATAL = 0 ∧ ∀ sp a, t.rd sp a = 0

/-- The parts an instruction of a run may change: its run and the bytes it stores, and what correcting a word counts (R540). -/
def insParts : List Part := [.regs, .msix, .stores, .mem, .runs, .pwr, .draws, .sram]

end Sys2Proof.Machine
end

