-- ==== Sys2Proof/Certificates/Slice0/Obligations.lean ====
section
/-! DEFINITION. Certificates/Slice0/Obligations.lean: the statements for the provers. `u` is the state once the command's nanoseconds have
passed, `t` the state the command answers. `s.SameBut t l` is a frame: every field of State that `l` does not list is as it was. -/
open Sys2Proof Sys2Proof.Machine

/-! ## The block: its queue, its invariant, its reset -/

/-- A step of a block whose queue is not empty runs the command at its front on the state with the queue's rest (FIXED NAMES: exec, step). -/
def Obligations.StepRunsFrontCommand : Prop :=
  ∀ (s : State) (c : Instr) (q : List Instr), s.pending = c :: q → step s = exec c { s with pending := q }

/-- On an empty queue one nanosecond of the counting clock passes and nothing else changes (the model's choice, assumption 1); R32 gives
what the counter gains, and a part without power counts nothing (R34, R503). -/
def Obligations.IdleStepCountsOneNanosecond : Prop :=
  ∀ s : State, s.pending = [] →
    (s.pkg.powered = true →
      step s = .next { s with
        cnt := ((((s.cnt * nsUnit + s.frac : Nat) : Int) + ((nsUnit : Int) + s.getS HT_FREQ_ADJ)) / (nsUnit : Int)).toNat,
        frac := ((((s.cnt * nsUnit + s.frac : Nat) : Int) + ((nsUnit : Int) + s.getS HT_FREQ_ADJ)) % (nsUnit : Int)).toNat }) ∧
    (s.pkg.powered = false →
      step s = .next { s with cnt := (s.cnt * nsUnit + s.frac) / nsUnit, frac := (s.cnt * nsUnit + s.frac) % nsUnit })

/-- No command stops the block: exec answers a next state for every command and every state, the queue is as it was, and no store of the
command is left outstanding. -/
def Obligations.EveryCommandAnswersAndKeepsTheQueue : Prop :=
  ∀ (c : Instr) (s : State), ∃ t, exec c s = .next t ∧ t.pending = s.pending ∧ t.post = [] ∧ t.actor = none

/-- The invariant holds at reset. -/
def Obligations.ResetMeetsInvariant : Prop := State.reset.Inv

/-- Every step keeps the invariant: the three byte memories stay in canonical form, and no command is left half way. -/
def Obligations.StepKeepsInvariant : Prop :=
  ∀ s t : State, s.Inv → step s = .next t → t.Inv

/-- What reset leaves, where the spec states a value (R31, R45, R71, R78, R135, R723): the counter at 0, the tick period code 1 (20 ms),
the loop's registers, every function's page headers, no ring, slot or run, memories that read 0, clock pins and data lines of the audio ports at
high impedance, and IXn_TX low (R247). -/
def Obligations.ResetValuesOfTheSpec : Prop :=
  State.reset.cnt = 0 ∧ State.reset.get TT_PERIOD = 1 ∧ State.reset.get TT_STAT_PERIOD = 1 ∧ State.reset.get TT_STAT_RUNNING = 0 ∧
  State.reset.get HT_STAT_STATE = 0 ∧ State.reset.get HT_STAT_EVER_LOCKED = 0 ∧
  State.reset.get HT_LOOP_KP_SHIFT = 1 ∧ State.reset.get HT_LOOP_KI_SHIFT = 4 ∧ State.reset.get HT_LOCK_LOCK_NS = 50 ∧
  State.reset.get HT_LOCK_LOCK_CNT = 8 ∧ State.reset.get HT_SLEW_MAX = 100000 ∧ State.reset.get HT_PPS_WIN = 10000 ∧
  State.reset.get HT_HOLD_DRIFT = 10 ∧ State.reset.get HT_HOLD_MAX_NS = 100000 ∧
  (∀ i, i < 64 → State.reset.get (hdrTenancy .str) i = i ∧ State.reset.get (hdrVersion .str) i = 1 ∧ State.reset.get (hdrGen .str) i = 0) ∧
  (∀ r, r < 512 → State.reset.get RING_STAT_STATE r = 0) ∧
  State.reset.slots = [] ∧ State.reset.runs = [] ∧ State.reset.pending = [] ∧
  (∀ sp a, State.reset.rd sp a = 0) ∧
  (∀ p, State.reset.clockPins p = .highZ ∧ ∀ d, State.reset.linePin p d = .highZ) ∧ (∀ x, State.reset.txPin x = .low)

/-! ## House time and the timetable (01_timetable.md) -/

/-- PPS_EDGE in ACQUIRE or LOCKED with no arm pending, on an edge that is not spurious: the edge is counted, its capture and phase error are recorded
(R35), and the loop sets the rate: with u = −(256 e / 2^KP + S / 2^KI) it takes u rounded while |u| is within HT_SLEW_MAX, and the bound with u's sign
otherwise, the integrator then keeping its value (R36). The capture's uncertainty is a free value. TOD_ARM by a party that may write the page, with at
most 18,446,744,072 staged seconds: the staged seconds become the pending arm, with its source and the instant (R42); the arm that was pending is
replaced. -/
def Obligations.EdgesAndArmedSecondsSteerTheCounter : Prop :=
  (∀ (s : State) (dt : Nat) (fall : Bool) (width : Nat), s.Inv →
     s.flag HT_CTL_PPS_EN = true → s.flag HT_CTL_PPS_FALL = fall → 20 ≤ width →
     (s.get HT_STAT_STATE = htACQUIRE ∨ s.get HT_STAT_STATE = htLOCKED) → s.ht.arm = none → s.ht.reload = false →
     (s.flag HT_STAT_EVER_LOCKED = true →
       (phaseError ((s.elapse dt).cnt + (Config.captureErr s.draws).val - 2 : Nat) s.loopVals.delayNs).natAbs ≤ s.loopVals.winNs) →
     ∃ t, exec (.ppsEdge dt fall width) s = .next t ∧
       (let u := s.elapse dt
        let c := u.cnt + (Config.captureErr s.draws).val - 2
        let v := s.loopVals
        let e := phaseError c v.delayNs
        let sc := two (v.kpShift + v.kiShift)
        let y := loopScaled v e (s.ht.integ + 256 * e)
        let slew := decide (256 * (v.slewPpb : Int) * (sc : Int) < y.natAbs)
        t.get HT_PPS_EDGES = (s.get HT_PPS_EDGES + 1) % two 32 ∧
        t.get HT_PPS_CAP_LO = c % two 32 ∧ t.get HT_PPS_CAP_HI = c / two 32 % two 32 ∧
        t.getS HT_PHASE_ERR = toS 32 (ofS 32 e) ∧
        t.getS HT_FREQ_ADJ = toS 32 (ofS 32 (if slew then (if 0 < y then 256 * (v.slewPpb : Int) else -(256 * (v.slewPpb : Int))) else rneDiv y sc)) ∧
        t.get HT_STAT_SLEWING = b2n slew ∧
        t.ht.integ = (if slew then s.ht.integ else s.ht.integ + 256 * e) ∧
        t.ht.lastEdge = some u.cnt ∧
        s.Took dt t ∧ s.SameBut t [.cnt, .frac, .regs, .genAt, .msix, .stores, .ht, .draws] ∧ t.draws = s.draws + 1)) ∧
  (∀ (s : State) (dt : Nat) (p : Party), s.Inv → s.MayWrite p .ht 0 → s.get2 HT_STAGE_SEC_LO HT_STAGE_SEC_HI ≤ 18446744072 →
     ∃ t, exec (.todArm dt p) s = .next t ∧
       (let u := s.elapse dt
        t.ht = { s.ht with arm := some { secs := s.get2 HT_STAGE_SEC_LO HT_STAGE_SEC_HI, sbArmed := decide (p = .sb), at_ := u.cnt } } ∧
        t.get HT_STAT_TOD_PENDING = 1 ∧ t.get HT_STAT_ARM_SOURCE = b2n (decide (p = .sb)) ∧
        (s.ht.arm.isSome = true → t.get HT_INT_STAT_TOD_OVERRIDDEN = 1) ∧
        s.SameRegsBut t [HT_STAT_TOD_PENDING.key 0 0, HT_STAT_ARM_SOURCE.key 0 0, HT_INT_STAT_TOD_OVERRIDDEN.key 0 0] ∧
        s.SameBytes t ∧
        s.Took dt t ∧ s.SameBut t [.cnt, .frac, .regs, .msix, .stores, .ht]))

/-- PPS_MISSING 1.5 s after the last accepted edge in ACQUIRE or LOCKED after lock: HOLDOVER with the rate frozen at the mean of the kept corrections
(R39). HOLDOVER_SECOND: the next whole second of HOLDOVER reports the bound, and beyond HT_HOLD_MAX_NS the unit is in FREERUN (R40). REF_LOST while
REF_IN is good: REF_OK clears, the cause is set, and the unit is in FREERUN unless it is UNSET. REF_RETURN of a powered part: REF_OK is set and the counter
does not step (R70). -/
def Obligations.ReferenceLossIsBoundedByHoldover : Prop :=
  ((∀ (s : State) (c : Nat), s.Inv → s.ht.lastEdge = some c → s.flag HT_STAT_EVER_LOCKED = true →
     (s.get HT_STAT_STATE = htACQUIRE ∨ s.get HT_STAT_STATE = htLOCKED) →
     ∃ t, exec .ppsMissing s = .next t ∧ t.get HT_STAT_STATE = htHOLDOVER ∧ t.cnt = max s.cnt (c + 1500000000) ∧
       t.get HT_PPS_MISSING = (s.get HT_PPS_MISSING + 1) % two 32 ∧ t.ht.holdFrom = some t.cnt ∧
       t.getS HT_FREQ_ADJ = toS 32 (ofS 32 (meanCorrection s.ht.hist (s.getS HT_FREQ_ADJ))) ∧ t.get HT_STAT_SLEWING = 0 ∧
       t.get HT_INT_STAT_HOLDOVER = 1 ∧ s.SameBytes t ∧
       s.SameBut t [.cnt, .frac, .regs, .genAt, .msix, .stores, .ht]) ∧
   (∀ (s : State) (h : Nat), s.Inv → s.ht.holdFrom = some h → s.get HT_STAT_STATE = htHOLDOVER → s.get HT_HOLD_SECONDS + 1 < two 32 →
     ∃ t, exec .holdoverSecond s = .next t ∧ t.get HT_HOLD_SECONDS = s.get HT_HOLD_SECONDS + 1 ∧
       t.cnt = max s.cnt (h + (s.get HT_HOLD_SECONDS + 1) * 1000000000) ∧
       t.get HT_HOLD_BOUND_NS = min (holdBound s.loopVals.drift (s.get HT_HOLD_SECONDS + 1)) (two 32 - 1) ∧
       t.get HT_STAT_STATE = (if holdExceeds s.loopVals.drift s.loopVals.maxNs (s.get HT_HOLD_SECONDS + 1) then htFREERUN else htHOLDOVER) ∧
       s.SameBytes t ∧
       s.SameBut t [.cnt, .frac, .regs, .genAt, .msix, .stores, .ht])) ∧
  ((∀ (s : State) (dt : Nat), s.Inv → s.flag HT_STAT_REF_OK = true →
     ∃ t, exec (.refLost dt) s = .next t ∧ t.get HT_STAT_REF_OK = 0 ∧ t.get HT_INT_STAT_REF_LOST = 1 ∧
       t.get HT_STAT_STATE = (if s.get HT_STAT_STATE = htUNSET then htUNSET else htFREERUN) ∧
       (s.get HT_STAT_STATE = htLOCKED → t.get HT_LOCK_LOSSES = (s.get HT_LOCK_LOSSES + 1) % two 32) ∧ s.SameBytes t ∧
       s.Took dt t ∧ s.SameBut t [.cnt, .frac, .regs, .genAt, .msix, .stores, .ht]) ∧
   (∀ (s : State) (dt : Nat), s.Inv → s.flag HT_STAT_REF_OK = false → s.pkg.powered = true →
     exec (.refReturn dt) s = .next { (s.elapse dt).set HT_STAT_REF_OK 1 with ht := { s.ht with pair := none } }))

/-- A read of a low register by a party that may read its page returns it and latches the registers beside it for that party, all from one
instant (R64): the house-time counter, whole in a 64-bit read, the captured edge, the tick number. -/
def Obligations.TimeReadsLatchOneInstant : Prop :=
  ∀ (s : State) (dt : Nat) (p : Party), s.Inv →
    (s.MayRead p .ht 0 → ∃ t, exec (.htCntLoRead dt p) s = .next t ∧
      (let u := s.elapse dt
       t.readData = u.cnt % two 64 ∧ t.latched p HT_CNT_HI = u.cnt / two 32 % two 32 ∧ t.latched p HT_TOD_NS = u.cnt % 1000000000 ∧
       t.latched p HT_TOD_SEC_LO = u.cnt / 1000000000 % two 32 ∧ t.latched p HT_TOD_SEC_HI = u.cnt / 1000000000 / two 32 % two 16 ∧
       s.Took dt t ∧ s.SameBut t [.cnt, .frac, .latches, .readData])) ∧
    (s.MayRead p .ht 0 → ∃ t, exec (.htPpsCapLoRead dt p) s = .next t ∧
      (t.readData = s.get HT_PPS_CAP_LO ∧ t.latched p HT_PPS_CAP_HI = s.get HT_PPS_CAP_HI % two 32 ∧
       s.Took dt t ∧ s.SameBut t [.cnt, .frac, .latches, .readData])) ∧
    (s.MayRead p .tt 0 → ∃ t, exec (.ttTickLoRead dt p) s = .next t ∧
      (let u := s.elapse dt
       t.readData = u.cnt / s.periodNs % two 32 ∧ t.latched p TT_TICK_HI = u.cnt / s.periodNs / two 32 % two 32 ∧
       t.latched p TT_TICK_INDEX = u.cnt % 1000000000 / s.periodNs % two 7 ∧
       s.Took dt t ∧ s.SameBut t [.cnt, .frac, .latches, .readData]))

/-- TT_PERIOD_WRITE of a legal code by a party that may write the page, while the timetable is stopped, takes effect at once and renumbers the tick,
and with it the table interval in force and all that waits for an interval (the model's reading: assumption 53); while it runs, and for code 3, the
write is refused and changes nothing but the refusal's bit (R71). TT_IMG_LOAD of an aligned address, with no image pending, leaves a pending fetch (R61).
TT_IMG_VALIDATED ends it where function 0 may send requests (R153): an image that passes every check of R60 in time stays pending with its content, one that fails is refused with the code of
the first check it fails. TT_IMG_ABANDON abandons a pending image and counts it (R75). -/
def Obligations.TimetableIsSetByCheckedImages : Prop :=
  (∀ (s : State) (dt : Nat) (p : Party) (value : Nat), s.Inv → s.MayWrite p .tt 0 →
     (value % 4 ≠ 3 → value % 4 ≠ s.get TT_PERIOD → s.running = false →
       ∃ t, exec (.ttPeriodWrite dt p value) s = .next t ∧
         (let u := s.elapse dt
          let f := shifted s.viewNow t.gx.interval
          t.get TT_PERIOD = value % 4 ∧ t.get TT_STAT_PERIOD = value % 4 ∧ t.tt.tick = u.cnt / codeNs (value % 4) ∧
          t.gx.interval = u.cnt / codeNs (value % 4) + b2n (decide (s.get GX_CUT * codeNs (value % 4) / 64 ≤ u.cnt % codeNs (value % 4))) ∧
          t.gx.upds = s.gx.upds.map (fun e => { e with interval := f e.interval }) ∧
          t.gx.tables = s.gx.tables.map (fun e => (e.1, { e.2 with next := f e.2.next })) ∧
          s.SameRegsBut t [TT_PERIOD.key 0 0, TT_STAT_PERIOD.key 0 0] ∧ s.SameBytes t ∧
          s.Took dt t ∧ s.SameBut t [.cnt, .frac, .regs, .tt, .ht, .gx] ∧ t.ht = { s.ht with stepTick := none } ∧ t.tt.active = s.tt.active ∧ t.tt.pend = s.tt.pend)) ∧
     (s.running = true ∨ value % 4 = 3 →
       ∃ t, exec (.ttPeriodWrite dt p value) s = .next t ∧ t.get TT_INT_STAT_PERIOD_REFUSED = 1 ∧
         s.SameRegsBut t [TT_INT_STAT_PERIOD_REFUSED.key 0 0] ∧ s.SameBytes t ∧
         s.Took dt t ∧ s.SameBut t [.cnt, .frac, .regs, .msix, .stores])) ∧
  ((∀ (s : State) (dt : Nat) (p : Party), s.Inv → s.MayWrite p .tt 0 → s.get TT_IMG_ADDR_LO % 64 = 0 → s.tt.pend = none →
     ∃ t, exec (.ttImgLoad dt p) s = .next t ∧
       t.tt = { s.tt with pend := some { img := none, at_ := s.get2 TT_IMG_AT_LO TT_IMG_AT_HI, len := s.get TT_IMG_LEN } } ∧
       t.get TT_STAT_IMG_PENDING = 1 ∧ t.get TT_IMG_STAT_STATE = 1 ∧
       s.SameRegsBut t [TT_STAT_IMG_PENDING.key 0 0, TT_IMG_STAT_STATE.key 0 0] ∧ s.SameBytes t ∧
       s.Took dt t ∧ s.SameBut t [.cnt, .frac, .regs, .tt]) ∧
   (∀ (s : State) (dt : Nat) (q : TtPend) (b : List Byte), s.Inv → s.tt.pend = some q → q.img = none →
     s.mayRequest 0 = true → ttCheck b q.len (s.get TT_PERIOD) = 0 → (q.at_ = 0 ∨ (s.elapse dt).cnt < s.tickAt q.at_) →
     ∃ t, exec (.ttImgValidated dt (some b)) s = .next t ∧ t.tt = { s.tt with pend := some { q with img := some (parseTt b) } } ∧
       t.get TT_IMG_STAT_STATE = 3 ∧ s.SameRegsBut t [TT_IMG_STAT_STATE.key 0 0] ∧ s.SameBytes t ∧
       s.Took dt t ∧ s.SameBut t [.cnt, .frac, .regs, .tt]) ∧
   (∀ (s : State) (dt : Nat) (q : TtPend) (b : List Byte), s.Inv → s.tt.pend = some q → q.img = none →
     s.mayRequest 0 = true → ttCheck b q.len (s.get TT_PERIOD) ≠ 0 →
     ∃ t, exec (.ttImgValidated dt (some b)) s = .next t ∧ t.tt = { s.tt with pend := none } ∧
       t.get TT_IMG_STAT_ERROR = ttCheck b q.len (s.get TT_PERIOD) ∧ t.get TT_IMG_REFUSED = (s.get TT_IMG_REFUSED + 1) % two 32 ∧
       t.get TT_STAT_IMG_PENDING = 0 ∧ s.SameBytes t) ∧
   (∀ (s : State) (dt : Nat) (p : Party), s.Inv → s.MayWrite p .tt 0 → s.tt.pend.isSome = true →
     ∃ t, exec (.ttImgAbandon dt p) s = .next t ∧ t.tt = { s.tt with pend := none } ∧ t.get TT_IMG_STAT_ERROR = ttABANDONED ∧
       t.get TT_IMG_REFUSED = (s.get TT_IMG_REFUSED + 1) % two 32 ∧ t.get TT_STAT_IMG_PENDING = 0 ∧ t.get TT_IMG_STAT_STATE = 0 ∧
       t.get TT_INT_STAT_IMG_REFUSED = 1 ∧ s.SameBytes t ∧
       s.Took dt t ∧ s.SameBut t [.cnt, .frac, .regs, .msix, .stores, .tt]))

/-- TICK_BOUNDARY of a powered part. With the stream die up, the timetable is at the next tick with its slot 0 started (R45, R62, R268), the
counter has reached the tick's start, and a step of the counter is over (R44); the image in force stays where none is pending, and a pending
image whose activation tick has come, and whose period is the one in force, is the active one (R61). Before SD_READY the tick alone is counted,
and no slot of it starts (R669). -/
def Obligations.BoundaryBeginsTheNextTick : Prop :=
  ∀ (s : State) (m : Sensors), s.Inv → s.pkg.powered = true →
    (s.pkg.sdUp = true →
      ∃ t, exec (.tickBoundary m) s = .next t ∧ t.tt.tick = s.nextTick ∧ t.tt.nextSlot = 1 ∧ t.cnt = max s.cnt (s.tickAt s.nextTick) ∧
        t.ht.stepTick = none ∧
        (s.tt.pend = none → t.tt.active = s.tt.active ∧ t.tt.pend = none) ∧
        (∀ q g, s.tt.pend = some q → q.img = some g → q.at_ ≤ s.nextTick → g.period = s.get TT_PERIOD →
          t.tt.active = some g ∧ t.tt.pend = none)) ∧
    (s.pkg.sdUp = false →
      ∃ t, exec (.tickBoundary m) s = .next t ∧ t.tt = { s.tt with tick := s.nextTick, nextSlot := 64 } ∧
        t.cnt = max s.cnt (s.tickAt s.nextTick) ∧ t.slots = s.slots ∧ t.ports = s.ports ∧ t.bl.reorder = s.bl.reorder)

/-- SLOT_START dispatches (R268, R270): a part with no run under way whose active image places one main-lane run at the slot, with the program in
place, its cores in service and rows eligible, has that run, with the first MAX_ROWS rows in R268's order; the slot counts as started. (A slot that
takes the intake, and an image with nonlinearity tables, do more before and after.) PLACEMENT_END of an executing fixed-mode run at the end of its
placement, which no fault stops and for whose cores no other run waits: the overrun is counted and the run is suspended on its cores (R56,
R272). -/
def Obligations.PlacementsStartAndSuspendRuns : Prop :=
  (∀ (s : State) (g : TtImage) (rcd : RunRec) (im : Image), s.Inv → s.pkg.sdUp = true → s.mayDispatch = true → s.tt.nextSlot < 64 →
     s.tt.nextSlot ≠ s.get TT_INTAKE_SLOT → s.runs = [] → s.tt.active = some g →
     g.runsAt s.tt.tick 0 s.tt.nextSlot = [rcd] → g.runsAt s.tt.tick 1 s.tt.nextSlot = [] → rcd.lane = 0 →
     s.image rcd.tenancy rcd.program = some im → im.usable = true → im.unloading = false → im.reload < 2 → im.lane = 0 →
     (maskList rcd.coreMask 64).all s.inService = true → s.stoppedT rcd.tenancy = false →
     (∀ c, (im.on c).find? (fun x => x.kind == 3) = none) →
     s.eligible rcd.tenancy 0 rcd.cls (some im.stage) ≠ [] → 1 ≤ rcd.maxRows →
     (∀ x ∈ s.eligible rcd.tenancy 0 rcd.cls (some im.stage), s.rowLen 0 im.stage x ≤ im.maxTokens) →
     ∃ t r, exec .slotStart s = .next t ∧ t.runs = [r] ∧ r.id = s.nextRun ∧ r.rcd = rcd ∧ r.stage = im.stage ∧ r.suspended = false ∧
       r.started = true ∧ r.opened = true ∧ r.tick = s.tt.tick ∧ r.first = s.tt.nextSlot ∧
       r.rows.map (fun w => (w.slot, w.k)) =
         ((s.eligible rcd.tenancy 0 rcd.cls (some im.stage)).take rcd.maxRows).map (fun x => (x.slot, x.c.k)) ∧
       t.tt = { s.tt with nextSlot := s.tt.nextSlot + 1 }) ∧
  (∀ (s : State) (r : Run), s.Inv → s.runs.find? s.placementOver = some r → r.stops = none →
     (∀ q ∈ s.runs, if q.id = r.id then q = r else q.started = true ∨ q.suspended = true) →
     ∃ t, exec .placementEnd s = .next t ∧ t.get TT_OVERRUN = (s.get TT_OVERRUN + 1) % two 32 ∧ t.get TT_INT_STAT_OVERRUN = 1 ∧
       t.runs = s.runs.map (fun q => if q.id = r.id then { q with suspended := true, started := false, opened := false } else q) ∧
       t.slots = s.slots ∧ t.tt = s.tt)

/-! ## Streams and migration (02_streams.md) -/

/-- START, STOP, PROMOTE, DEMOTE, RESUME, RESTART and RELEASE, where R83's checks and their own (R84, R97, R108) pass: the descriptor is
consumed, the command is not yet done, and it waits for its tick behind the commands observed before it; no slot changes until then. -/
def Obligations.StreamCommandsAwaitTheirTick : Prop :=
  ∀ (s : State) (dt : Nat) (ring : Fin 512) (d : List Byte), s.Inv →
    (let u := s.elapse dt
     let Waits := fun (out : Out) => ∃ t, out = .next t ∧ t.cmds = s.cmds ++ [u.parseCmd ring d] ∧
       t.get RING_DEV_IDX ring = (s.get RING_DEV_IDX ring + 1) % two 32 ∧
       (t.ring ring).out = (s.ring ring).out ++ [(s.get RING_DEV_IDX ring, false)] ∧
       s.SameBytes t ∧ s.Took dt t ∧ s.SameBut t [.cnt, .frac, .regs, .rings, .stores, .msix, .cmds]
     (u.Accepts ring opSTART d State.gridCheck → Waits (exec (.start dt ring d) s)) ∧
     (u.Accepts ring opSTOP d (fun _ _ => 0) → Waits (exec (.stop dt ring d) s)) ∧
     (u.Accepts ring opPROMOTE d State.promoteCheck → Waits (exec (.promote dt ring d) s)) ∧
     (u.Accepts ring opDEMOTE d (fun _ _ => 0) → Waits (exec (.demote dt ring d) s)) ∧
     (u.Accepts ring opRESUME d State.gridCheck → Waits (exec (.resume dt ring d) s)) ∧
     (u.Accepts ring opRESTART d (fun _ _ => 0) → Waits (exec (.restart dt ring d) s)) ∧
     (u.Accepts ring opRELEASE d (fun _ _ => 0) → Waits (exec (.release dt ring d) s)))

/-- ADMIT of a FREE slot whose record passes every check: what its stream needs, core allocations and a reel of R196's blocks, is reserved for the
command and zeroed (R87, R196, R266), the ADMIT is counted, and the slot is FREE until the command's tick (R82). EXPORT waits for its tick, where
its own check (R84, R109) passes. IMPORT of a FREE slot whose token may pass twice more in this tick (R92): the slot is PARKED at once, held by
the migration engine, with the epoch advanced and the descriptor's rings, and the IMPORT is counted and waits for its activation (R112). Each
consumes its descriptor, whose command is not yet done. -/
def Obligations.AdmitExportAndImportAreAccepted : Prop :=
  ∀ (s : State) (dt : Nat) (ring : Fin 512) (d : List Byte), s.Inv →
    (let u := s.elapse dt
     let c := u.parseCmd ring d
     let own := s.owner .ring ring
     let Taken := fun (t : State) => t.get RING_DEV_IDX ring = (s.get RING_DEV_IDX ring + 1) % two 32 ∧
       (t.ring ring).out = (s.ring ring).out ++ [(s.get RING_DEV_IDX ring, false)] ∧ s.Took dt t
     (∀ b : List Byte, u.Accepts ring opADMIT d (fun t _ => t.admitCheck own (some b)) →
        ∃ t r, exec (.admitStream dt ring d (some b)) s = .next t ∧ t.cmds = s.cmds ++ [{ c with par := parseParams b, res := r }] ∧
          r.blocks = reelBlocks (parseParams b).format (parseParams b).channels ∧ some r.base = s.allocReel r.blocks ∧
          (∀ k, k < 16384 * r.blocks → t.rd .dram (s.reelBlock r.base + k) = 0) ∧
          some r.home = s.homeFor own (parseParams b) ∧ r.listen = s.listenFor own (parseParams b) ∧
          (∀ x ∈ [r.home, r.listen].flatMap Option.toList, ∀ k, k < x.frame → t.rd .sram (sramAt x.core x.off + k) = 0) ∧
          t.slots = s.slots ∧ t.get STR_ADMITS own = (s.get STR_ADMITS own + 1) % two 32 ∧ Taken t ∧
          s.SameBut t [.cnt, .frac, .regs, .rings, .stores, .msix, .cmds, .mem, .sb, .draws, .sram, .dram]) ∧
     (u.Accepts ring opEXPORT d State.exportCheck →
        ∃ t, exec (.exportStream dt ring d) s = .next t ∧ t.cmds = s.cmds ++ [c] ∧ Taken t ∧ s.SameBytes t ∧
          s.SameBut t [.cnt, .frac, .regs, .rings, .stores, .msix, .cmds]) ∧
     (u.Accepts ring opIMPORT d (fun t c => if (t.slot c.slot).passes ≤ 2 then 0 else cBAD_STATE) →
        ∃ t x, exec (.importStream dt ring d) s = .next t ∧ t.cmds = s.cmds ++ [c] ∧
          (t.slot c.slot).imp = some x ∧ x.ring = ring.val ∧ x.idx = s.get RING_DEV_IDX ring ∧ x.tick = c.tick ∧ x.addr = c.addr ∧ x.len = c.len ∧
          x.loaded = false ∧ (t.slot c.slot).state = .parked ∧ (t.slot c.slot).holder = .engine ∧
          (t.slot c.slot).epoch = ((s.slot c.slot).epoch + 1) % two 32 ∧ (t.slot c.slot).cmdRing = ring.val ∧
          (t.slot c.slot).par.completeRing = le d 0x1E 2 ∧ (t.slot c.slot).par.eventRing = le d 0x20 2 ∧
          (∀ i, i ≠ c.slot → t.slot i = s.slot i) ∧ t.get STR_ADMITS own = (s.get STR_ADMITS own + 1) % two 32 ∧
          Taken t ∧ s.SameBytes t ∧ s.SameBut t [.cnt, .frac, .regs, .rings, .stores, .msix, .cmds, .slots]))

/-- EXPORT_IMAGE_WRITE once every chunk before the export tick has ended, with a buffer that holds the image: where the buffer lies in the image
window and no word is damaged, the image stands in it; the slot is PARKED with its token at the ring and the epoch advanced, the EXPORT is over and
counted, and its interrupt is set (R107). IMPORT_LOADED with an image in host memory, of a function that may send requests (R153), that passes every
test of R113: the slot has the image's next chunk, tier, epoch plus one and counters, and the IMPORT waits for its activation (R112). With a fetch
that ended in an error the slot is FREE again. -/
def Obligations.StreamImagesLeaveAndEnter : Prop :=
  (∀ (s : State) (dt : Nat) (slot : Fin 8192) (x : Export), s.Inv → (s.slot slot).exp = some x →
     (let u := (s.elapse dt).ensure slot (((s.slot slot).limit.getD 0) - 1)
      let own := s.tenancyOf slot
      (∀ c ∈ (u.slot slot).chunks, c.status.isSome = true) → u.bufferOk slot x = true →
      ∃ t, exec (.exportImageWrite dt slot) s = .next t ∧
        (x.dev = true → s.mem.damage = [] → s.flag MEM_INJECT_ARM = false →
          s.Stored t .dram (s.imgBase own + x.addr) (u.imageOf slot x)) ∧
        (x.dev = false → s.SameBytes t) ∧
        (t.slot slot).state = .parked ∧ (t.slot slot).holder = .ring ∧ (t.slot slot).exp = none ∧
        (t.slot slot).epoch = ((s.slot slot).epoch + 1) % two 32 ∧ (∀ i, i ≠ slot.val → t.slot i = s.slot i) ∧
        t.get STR_EXPORTS own = (s.get STR_EXPORTS own + 1) % two 32 ∧ t.get STR_INT_STAT_EXPORT_DONE own = 1 ∧ s.Took dt t ∧
        s.SameBut t [.cnt, .frac, .regs, .rings, .stores, .msix, .slots, .mem, .sb, .draws, .dram])) ∧
  (∀ (s : State) (dt : Nat) (slot : Fin 8192) (x : Import), s.Inv → (s.slot slot).imp = some x → x.loaded = false → x.dev = false →
     s.mayRequest (s.owner .ring x.ring) = true →
     (let u := s.elapse dt
      let t0 := s.owner .ring x.ring
      (∀ b : List Byte, (u.importCheck t0 x b (s.slot slot).par).1 = 0 →
         ∃ t y, exec (.importLoaded dt slot (some b)) s = .next t ∧ (t.slot slot).imp = some y ∧ y.loaded = true ∧
           y.trans = bit (le b 0x14 4) 2 ∧ (t.slot slot).next = le b 0x48 8 ∧ (t.slot slot).full = bit (le b 0x14 4) 2 ∧
           (t.slot slot).epoch = (le b 0x50 4 + 1) % two 32 ∧ (t.slot slot).cnt.chunks = le (sectBytes b 6) 0 8 ∧
           (t.slot slot).cnt.misses = le (sectBytes b 6) 8 8) ∧
      (∃ t, exec (.importLoaded dt slot none) s = .next t ∧ (t.slot slot).state = .free ∧ (t.slot slot).imp = none)))

/-- STR_IMG_WINDOW_WRITE of another value by the physical function, with no EXPORT or IMPORT of the tenancy in progress and a window that
ends within the capacity, takes effect at once; while one is in progress it is ignored with RANGE_REFUSED (R109). STR_VIEW_STATE_READ
returns the selected slot's word and latches its view (R125). -/
def Obligations.ImageWindowAndSlotView : Prop :=
  ∀ (s : State) (dt : Nat) (p : Party) (t0 : Fin 64), s.Inv →
    (∀ value : Nat, p = .fn 0 → s.MayWrite p .str t0 → s.sameWord .str t0 0x148 value = false → s.slots = [] → s.cmds = [] →
      (((s.set STR_IMG_SIZE (value / two STR_IMG_SIZE.lo) t0).imgSize t0 = 0) ∨
       (s.set STR_IMG_SIZE (value / two STR_IMG_SIZE.lo) t0).imgBase t0 + (s.set STR_IMG_SIZE (value / two STR_IMG_SIZE.lo) t0).imgSize t0
         ≤ Config.dramMib * two 20) →
      ∃ t, exec (.strImgWindowWrite dt p t0 0x148 value) s = .next t ∧
        t.get STR_IMG_SIZE t0 = value / two STR_IMG_SIZE.lo % two STR_IMG_SIZE.w ∧
        s.SameRegsBut t [STR_IMG_SIZE.key t0 0] ∧ s.SameBytes t ∧ s.Took dt t ∧ s.SameBut t [.cnt, .frac, .regs]) ∧
    (s.MayRead p .str t0 → s.inRange t0 (s.get STR_SEL t0) = true →
      ∃ t, exec (.strViewStateRead dt p t0) s = .next t ∧
        (let q := s.slot (s.get STR_SEL t0)
         t.readData = q.word ∧ t.latched p STR_VIEW_EPOCH t0 = q.epoch % two 32 ∧ t.latched p STR_VIEW_NEXT_LO t0 = q.nextChunk % two 32 ∧
         t.latched p STR_VIEW_NEXT_HI t0 = q.nextChunk / two 32 % two 32 ∧
         t.latched p STR_VIEW_MISS t0 = min q.cnt.misses (two 32 - 1)) ∧
        s.SameBytes t ∧ s.Took dt t ∧ s.SameBut t [.cnt, .frac, .latches, .readData])

/-! ## Rings, resets of functions, upstream stores (03_host_interface.md) -/

/-- DOORBELL_WRITE of all four bytes of RING_DB through the bound function, on an ACTIVE ring, with a value within its indices: the host index is
the value and the write is counted; on a COMMAND or SUBMIT ring whose index moves, the stamp is kept (R134, R142); where no completion waits for
a credit of the ring and no event was lost on it, nothing else changes. A value out of range leaves the host index and is counted and recorded
(R159). A read returns the device index, and any other offset of the page zero (R169). Through another function a write is discarded and a read
returns zero, and either is counted (R160). -/
def Obligations.DoorbellMovesTheHostIndex : Prop :=
  ∀ (s : State) (dt : Nat) (f : Fin 64) (ring : Fin 512), s.Inv → s.pkg.sdUp = true →
    (∀ value : Nat, s.owner .ring ring = f.val → s.get RING_STAT_STATE ring = 1 → value < two 32 →
      (s.doorbellOk ring value = true →
        ∃ t, exec (.doorbellWrite dt f ring 0 (.write value 15)) s = .next t ∧ t.get RING_HOST_IDX ring = value ∧
          t.get RING_DB_WRITES ring = (s.get RING_DB_WRITES ring + 1) % two 32 ∧ s.Took dt t ∧ t.ht = s.ht ∧ t.ports = s.ports ∧
          (s.get RING_HOST_IDX ring ≠ value → s.get RING_CFG_TYPE ring = ringCOMMAND ∨ s.get RING_CFG_TYPE ring = ringSUBMIT →
            (t.ring ring).stamps = (s.ring ring).stamps ++ [(value, (s.elapse dt).cnt)]) ∧
          (s.get RING_CFG_TYPE ring ≠ ringCOMPLETE ∨
             (∀ e ∈ s.slots, e.2.par.completeRing = ring.val → ∀ c ∈ e.2.chunks, c.status = none) →
           s.get RING_CFG_TYPE ring ≠ ringEVENT ∨ s.get RING_HELD ring = 0 →
             s.SameRegsBut t [RING_HOST_IDX.key ring 0, RING_DB_WRITES.key ring 0] ∧ (∀ r, r ≠ ring.val → t.ring r = s.ring r) ∧
             s.SameBytes t ∧ s.SameBut t [.cnt, .frac, .regs, .rings])) ∧
      (s.doorbellOk ring value = false →
        ∃ t, exec (.doorbellWrite dt f ring 0 (.write value 15)) s = .next t ∧ t.get RING_HOST_IDX ring = s.get RING_HOST_IDX ring ∧
          t.get RING_DB_BAD ring = (s.get RING_DB_BAD ring + 1) % two 32 ∧ t.get RING_ERR ring = errDB_RANGE ∧
          t.get RING_ERR_IDX ring = value ∧ t.get RING_INT_STAT_DB_BAD ring = 1 ∧ s.SameBytes t ∧ s.Took dt t ∧
          s.SameBut t [.cnt, .frac, .regs, .msix, .stores])) ∧
    (∀ off : Nat, s.owner .ring ring = f.val →
      ∃ t, exec (.doorbellWrite dt f ring off .read) s = .next t ∧ t.readData = (if off = 0 then s.get RING_DEV_IDX ring else 0) ∧
        s.SameBytes t ∧ s.Took dt t ∧ s.SameBut t [.cnt, .frac, .readData]) ∧
    (∀ (off : Nat) (a : DbAccess), s.owner .ring ring ≠ f.val →
      ∃ t, exec (.doorbellWrite dt f ring off a) s = .next t ∧ t.get ISO_T_DB_DENIED f = (s.get ISO_T_DB_DENIED f + 1) % two 32 ∧
        t.get ISOT_INT_STAT_DENIED f = 1 ∧ (a = .read → t.readData = 0) ∧
        s.SameRegsBut t [ISO_T_DB_DENIED.key f 0, ISOT_INT_STAT_DENIED.key f 0] ∧ s.SameBytes t ∧ s.Took dt t ∧
        s.SameBut t [.cnt, .frac, .regs, .msix, .stores, .readData])

/-- SUBMIT_AUDIO: a descriptor that passes every check of R162 for a slot that runs has its frames placed on the stream's grid, completes
the chunks it makes complete (R142), and is consumed; the first one of a stream, within chunk 0 and without END, leaves its frames in the device from
its own position on (R175, R177). One that names no slot of the ring, or whose audio cannot be fetched, is counted and consumed (R162). SUBMIT_NOP and
a consumed descriptor advance the device index and queue its write-back (R132, R141). DESCRIPTOR_FETCH_ERROR puts the ring in ERROR (R163). -/
def Obligations.SubmitRingsConsume : Prop :=
  ∀ (s : State) (dt : Nat) (ring : Fin 512), s.Inv → (s.elapse dt).canConsume ring = true → s.get RING_CFG_TYPE ring = ringSUBMIT →
    (let u := s.elapse dt
     let Consumed := fun (t : State) => t.get RING_DEV_IDX ring = (s.get RING_DEV_IDX ring + 1) % two 32 ∧
       t.get RING_DESCS ring = (s.get RING_DESCS ring + 1) % two 32 ∧ s.SameBytes t ∧ s.Took dt t
     (∀ d b : List Byte, le d 0 1 = 1 → u.submitCheck ring d (some b) = 0 → u.submitKind2 d = none →
        exec (.submitAudio dt ring d (some b)) s = .next (s.commit (((u.takeAudio d b).submitCompletes ring d true).consume ring)) ∧
        (let i := le d 2 2
         let a := (s.slot i).audio
         let fs := (parseFrames (s.slot i).par.format (s.slot i).par.channels (le d 0x18 4) b).1
         a.anchors = [] → a.begin_ ≤ le d 0x10 8 → bit (le d 1 1) 0 = false → u.chunkOf (s.slot i) (le d 0x10 8) = some 0 →
         ∃ t, exec (.submitAudio dt ring d (some b)) s = .next t ∧
           (t.slot i).audio.frames = a.frames ++ (List.range fs.length).map (fun k => (a.nextFrame + k, fs.getD k [])) ∧
           (t.slot i).audio.nextFrame = a.nextFrame + fs.length ∧
           (t.slot i).audio.anchors = [Anchor.mk a.nextFrame ((le d 0x10 8 : Int) * (62500 * ((s.slot i).par.rate : Int)))] ∧
           (∀ j, j ≠ i → t.slot j = s.slot j) ∧ Consumed t ∧ s.SameBut t [.cnt, .frac, .regs, .rings, .stores, .msix, .slots])) ∧
     (∀ (d : List Byte) (b : Option (List Byte)), le d 0 1 ≠ 2 → u.submitNames ring (le d 2 2) = false →
        ∃ t, exec (.submitAudio dt ring d b) s = .next t ∧ t.get RING_SUBMIT_BAD ring = (s.get RING_SUBMIT_BAD ring + 1) % two 32 ∧
          t.get RING_INT_STAT_SUBMIT_BAD ring = 1 ∧ t.slots = s.slots ∧ Consumed t ∧
          s.SameBut t [.cnt, .frac, .regs, .rings, .stores, .msix]) ∧
     (∀ d : List Byte, u.submitCheck ring d none = subFETCH →
        exec (.submitAudio dt ring d none) s =
          .next (s.commit (((u.submitBad ring d subFETCH).submitCompletes ring d true).consume ring))) ∧
     (∃ t, exec (.submitNop dt ring) s = .next t ∧ t.slots = s.slots ∧ Consumed t ∧
        s.SameBut t [.cnt, .frac, .regs, .rings, .stores, .msix]) ∧
     (∃ t, exec (.descriptorFetchError dt ring) s = .next t ∧ t.get RING_STAT_STATE ring = 2 ∧ t.get RING_ERR ring = errFETCH ∧
        t.get RING_ERR_IDX ring = s.get RING_DEV_IDX ring % two 32 ∧ t.get RING_INT_STAT_ERROR ring = 1 ∧
        t.get RING_DEV_IDX ring = s.get RING_DEV_IDX ring ∧ s.SameBytes t ∧ s.Took dt t ∧
        s.SameBut t [.cnt, .frac, .regs, .stores, .msix]))

/-- THRESHOLD_HOLDOFF of an ACTIVE ring whose holdoff runs sets THRESHOLD and starts the counts again, the counter having reached the end of the
holdoff, of the length in force when it began (R155, R168). BUS_MASTER_ENABLE_CHANGE of an enabled function that is not under reset sets its Bus
Master Enable and the rest of its configuration, no other function's, and nothing else where no vector of it is pending (R126, R153, R154).
UPSTREAM_STORE_ISSUE with the link up outside STANDBY: the store that has held its buffer longest leaves; where none is buffered, the oldest of the
function next in the round robin takes a buffer and leaves, and the others stay, buffered or waiting (R151, R152). -/
def Obligations.UpstreamStoresAndHoldoffsInTurn : Prop :=
  ((∀ (s : State) (ring : Fin 512) (t0 us : Nat), s.Inv → (s.ring ring).holdFrom = some (t0, us) → us ≠ 0 →
     s.ringActive ring = true →
     ∃ t, exec (.thresholdHoldoff ring) s = .next t ∧ t.get RING_INT_STAT_THRESHOLD ring = 1 ∧ (t.ring ring).holdFrom = none ∧
       (t.ring ring).wbs = 0 ∧ t.cnt = max s.cnt (t0 + 1000 * us) ∧
       s.SameRegsBut t [RING_INT_STAT_THRESHOLD.key ring 0] ∧ s.SameBytes t ∧
       s.SameBut t [.cnt, .frac, .regs, .rings, .stores, .msix]) ∧
   (∀ (s : State) (dt : Nat) (f : Fin 64) (en : Bool) (cfg : FnCfg), s.Inv → s.fnEnabled f = true → (s.fnState f).flr = false →
     ∃ t, exec (.busMasterEnableChange dt f ⟨en, cfg⟩) s = .next t ∧ (t.fnState f).bme = en ∧ (t.fnState f).cfg = cfg ∧
       (t.fnState f).flr = false ∧ (∀ g, g ≠ f.val → t.fnState g = s.fnState g) ∧ s.SameBytes t ∧ s.Took dt t ∧
       s.SameBut t [.cnt, .frac, .fns, .stores, .msix] ∧
       ((∀ k, k < 65 → Map.get s.msix (1024 * f.val + 512 + k) 0 ≠ 1) → t.stores = s.stores ∧ t.msix = s.msix))) ∧
  (∀ (s : State) (dt : Nat) (x : Store) (l : List Store), s.Inv → s.linkUp = true → s.standby = false →
     s.flag MEM_INJECT_ARM = false → x.note = .none →
     (∀ f : Nat, s.stores.filter (fun y => y.up) = [] → s.nextFn = some f → takeStore (fun y => y.fn == f && !y.up) s.stores = some (x, l) →
       ∃ t, exec (.upstreamStoreIssue dt) s = .next t ∧ t.txq = ((s.elapse dt).cnt, x) :: s.txq ∧ t.stores.length = l.length ∧
         (∀ y ∈ l, y ∈ t.stores ∨ { y with up := true } ∈ t.stores) ∧ s.SameBytes t ∧ s.Took dt t ∧
         s.SameBut t [.cnt, .frac, .regs, .txq, .stores, .lastGrant]) ∧
     (s.nextFn = none → takeStore (fun y => y.up) s.stores = some (x, l) →
       ∃ t, exec (.upstreamStoreIssue dt) s = .next t ∧ t.txq = ((s.elapse dt).cnt, { x with up := false }) :: s.txq ∧ t.stores = l ∧
         s.SameBytes t ∧ s.Took dt t ∧ s.SameBut t [.cnt, .frac, .regs, .txq, .stores]))

/-- FUNCTION_LEVEL_RESET of an enabled function other than 0: while the reset is in progress none of the function's stores is pending and
forced teardown is requested of every slot of its range that is not FREE (R156, R157); of function 0 it resets every function, and VF Enable and NumVFs
clear. HOT_RESET resets every function too, and the link is down while it does so; house time and the timetable keep running (R158).
VF_ENABLE_CHANGE sets both fields (R165). -/
def Obligations.FunctionAndHostResets : Prop :=
  (∀ (s : State) (dt : Nat) (f : Fin 64), s.Inv → s.linkUp = true → s.pkg.sdUp = true → s.fnEnabled f = true →
    ∃ t, exec (.functionLevelReset dt f) s = .next t ∧
      (f ≠ 0 → t.sb.queue = s.sb.queue ∧
        (f.val ∈ t.pkg.flrs → (t.fnState f).flr = true ∧ (t.fnState f).bme = false ∧ (∀ x ∈ t.stores, x.fn ≠ f.val) ∧
          (∀ i, t.inRange f i = true → (t.slot i).state ≠ .free → (t.slot i).tearReq = true))) ∧
      (f = 0 → t.vfEnable = false ∧ t.numVfs = 0) ∧
      s.Took dt t ∧ t.ht = s.ht ∧ t.ports = s.ports) ∧
  (∀ (s : State) (dt : Nat), s.Inv → s.linkUp = true → s.pkg.sdUp = true →
    ∃ t, exec (.hotReset dt) s = .next t ∧ t.vfEnable = false ∧ t.numVfs = 0 ∧ t.linkUp = false ∧ t.pkg.hostReset = true ∧
      s.Took dt t ∧ t.ht = s.ht ∧ t.ports = s.ports ∧ t.get TT_STAT_RUNNING = s.get TT_STAT_RUNNING ∧ t.tt.active = s.tt.active) ∧
  (∀ (s : State) (dt : Nat) (en : Bool) (num : Fin 64), s.Inv → s.linkUp = true → s.pkg.sdUp = true →
    ∃ t, exec (.vfEnableChange dt en num) s = .next t ∧ t.vfEnable = en ∧ t.numVfs = num.val ∧ s.Took dt t ∧ t.ht = s.ht)

/-! ## The audio front end (04_audio_front_end.md) -/

/-- SAMPLE_PRODUCTION for a port-fed stream that is processed, at a sample that is not its chunk's last and lies before any padding: the
counter has reached (n + 8) × 62,500 and sample n has been produced, so the next one is n + 1 (R181); a slot that records holds it in its reel
(R197), and no other slot changes. -/
def Obligations.SamplesAreProducedInOrder : Prop :=
  ∀ (s : State) (slot : Fin 8192), s.Inv → (s.slot slot).par.portFed = true → (s.slot slot).audio.active = true → s.standby = false →
    (let n := (s.slot slot).audio.next
     let v := (s.reach ((n + 8) * 62500)).ensureAt slot n
     zeroOf (v.liveChunk slot n) = none → v.chunkEnd slot n ≠ n →
     ∃ t, exec (.sampleProduction slot) s = .next t ∧ t = s.commit (v.produce slot none) ∧ t.cnt = max s.cnt ((n + 8) * 62500) ∧
       (t.slot slot).audio.next = n + 1 ∧ (s.records (s.slot slot) = true → (t.slot slot).audio.nextRec = n + 1) ∧
       (∀ i, i ≠ slot.val → t.slot i = s.slot i) ∧
       s.SameBut t [.cnt, .frac, .regs, .stores, .msix, .slots, .mem, .sb, .draws, .dram])

/-- BEAM_BIND on a page that is not busy, of an aligned address: the bind is being fetched with the operands of the page's registers.
BEAM_BLOCK_FETCHED for a host block of a function that may send requests (R153): one that passes every check of R190 stands in the weight bank not
in use and waits for its tick, one that fails is refused with the code of
the first check it fails and the page is free again. REEL_AREA_WRITE of another value, with no slot in use and an area that ends within the capacity,
takes effect at once; with a slot in use it is ignored and REEL_CFG_REFUSED is set (R195). FE_VIEW_CLK_READ returns the selected slot's clock word and
latches its view (R213). -/
def Obligations.BeamsAndReelsAreCheckedBeforeUse : Prop :=
  (∀ (s : State) (dt : Nat) (t0 : Fin 64), s.Inv →
     (∀ p : Party, s.MayWrite p .fe t0 → Map.find s.binds t0 = none → s.get FE_BEAM_ADDR_LO t0 % 64 = 0 →
       ∃ t b, exec (.beamBind dt p t0) s = .next t ∧ Map.find t.binds t0 = some b ∧ b.slot = s.get FE_BEAM_SLOT t0 ∧
         b.addr = s.get FE_BEAM_ADDR_LO t0 + two 32 * s.get FE_BEAM_ADDR_HI_ADDR_HI t0 ∧ b.ready = false ∧
         b.tick = s.get2 FE_BEAM_TICK_LO FE_BEAM_TICK_HI t0 ∧ t.get FE_BEAM_STAT_STATE t0 = 1 ∧ t.get FE_STAT_BEAM_BUSY t0 = 1 ∧
         s.SameRegsBut t [FE_BEAM_STAT_STATE.key t0 0, FE_STAT_BEAM_BUSY.key t0 0] ∧ s.SameBytes t ∧ s.Took dt t ∧
         s.SameBut t [.cnt, .frac, .regs, .binds]) ∧
     (∀ (b : Bind) (d : List Byte), Map.find s.binds t0 = some b → b.ready = false → b.dev = false →
       s.mayRequest t0 = true → (s.elapse dt).beamCheck t0 b (some d) = 0 →
       ∃ t, exec (.beamBlockFetched dt t0 (some d)) s = .next t ∧ Map.find t.binds t0 = some { b with ready := true } ∧
         t.get FE_BEAM_STAT_STATE t0 = 2 ∧ t.slots = s.slots ∧ s.Took dt t ∧
         (s.mem.damage = [] → s.flag MEM_INJECT_ARM = false →
           s.Stored t .dram (s.bankAddr (s.slot b.slot) (1 - (s.slot b.slot).audio.bank)) (fit (beamLen d) d)) ∧
         s.SameBut t [.cnt, .frac, .regs, .binds, .mem, .sb, .draws, .dram]) ∧
     (∀ (b : Bind) (blk : Option (List Byte)), Map.find s.binds t0 = some b → b.ready = false → b.dev = false →
       Map.sorted s.binds = true → s.mayRequest t0 = true → (s.elapse dt).beamCheck t0 b blk ≠ 0 →
       ∃ t, exec (.beamBlockFetched dt t0 blk) s = .next t ∧ Map.find t.binds t0 = none ∧
         t.get FE_BEAM_STAT_CODE t0 = (s.elapse dt).beamCheck t0 b blk ∧ t.get FE_BEAM_STAT_STATE t0 = 0 ∧
         t.get FE_BEAM_REFUSED t0 = (s.get FE_BEAM_REFUSED t0 + 1) % two 32 ∧ t.get FE_INT_STAT_BEAM_REFUSED t0 = 1 ∧ s.SameBytes t ∧
         s.Took dt t ∧ s.SameBut t [.cnt, .frac, .regs, .binds, .stores, .msix])) ∧
  (∀ (s : State) (dt : Nat) (p : Party), s.Inv →
     (∀ value : Nat, s.MayWrite p .fe 0 → s.sameWord .fe 0 0x208 value = false →
       (∀ e ∈ s.slots, e.2.state = .free) →
       ((s.set FE_REEL_SIZE (value / two FE_REEL_SIZE.lo)).get FE_REEL_SIZE = 0 ∨
        (s.set FE_REEL_SIZE (value / two FE_REEL_SIZE.lo)).reelBlock ((s.set FE_REEL_SIZE (value / two FE_REEL_SIZE.lo)).get FE_REEL_SIZE)
          ≤ Config.dramMib * two 20) →
       ∃ t, exec (.reelAreaWrite dt p 0x208 value) s = .next t ∧ t.get FE_REEL_SIZE = value / two FE_REEL_SIZE.lo % two FE_REEL_SIZE.w ∧
         s.SameRegsBut t [FE_REEL_SIZE.key 0 0] ∧ s.SameBytes t ∧ s.Took dt t ∧ s.SameBut t [.cnt, .frac, .regs]) ∧
     (∀ (off value : Nat), s.MayWrite p .fe 0 → (off = 0x200 ∨ off = 0x204 ∨ off = 0x208) → s.sameWord .fe 0 off value = false →
       (∃ e ∈ s.slots, e.2.state ≠ .free) →
       ∃ t, exec (.reelAreaWrite dt p off value) s = .next t ∧ t.get FE_INT_STAT_REEL_CFG_REFUSED = 1 ∧
         s.SameRegsBut t [FE_INT_STAT_REEL_CFG_REFUSED.key 0 0] ∧ s.SameBytes t ∧ s.Took dt t ∧
         s.SameBut t [.cnt, .frac, .regs, .stores, .msix]) ∧
     (∀ t0 : Fin 64, s.MayRead p .fe t0 → s.inRange t0 (s.get FE_SEL t0) = true →
       ∃ t, exec (.feViewClkRead dt p t0) s = .next t ∧
         (let q := s.slot (s.get FE_SEL t0)
          t.readData = b2n q.par.locked + 2 * b2n (q.audio.lock || q.par.locked) + 4 * b2n q.audio.slewing ∧
          t.latched p FE_VIEW_RATIO_LO t0 = q.audio.rho % two 32 ∧ t.latched p FE_VIEW_LEVEL t0 = ofS 32 q.audio.level % two 32) ∧
         s.SameBytes t ∧ s.Took dt t ∧ s.SameBut t [.cnt, .frac, .latches, .readData]))

/-! ## Audio and IEC ports (05_audio_ports.md) -/

/-- PORT_START and PORT_STOP with fewer than four commands pending queue a command with its stamp, the later of CMD_AT and now; PORT_FLUSH discards
every pending one (R228). PORT_COMMAND_EFFECT of a START alone whose stamp has come, on a STOPPED port: the port runs from now, STARTING until every
gated channel is open, with nothing pending (R230, R241). SWITCHED, in a switch to master whose instant has come: the port is in the state it had
before the switch (R240). ZC_TIMEOUT of a channel that has waited TIMEOUT frames to open: it ramps, and the timeout is counted (R230). -/
def Obligations.PortCommandsWaitForTheirStamp : Prop :=
  (∀ (s : State) (dt : Nat) (p : Party) (port : Fin 10), s.Inv →
     (if port.val < 8 then s.MayWrite p .apt port else s.MayWrite p .ixp (port - 8)) →
     (let u := s.elapse dt
      let at_ := s.pget port APT_CMD_AT_LO IXP_CMD_AT_LO + two 32 * s.pget port APT_CMD_AT_HI IXP_CMD_AT_HI
      let q := s.port port
      (q.pend.length < 4 →
        (∃ t, exec (.portStart dt p port) s = .next t ∧
           (t.port port).pend = q.pend ++ [{ isStart := true, stamp := max at_ u.cnt, seq := q.seq }] ∧ s.SameBytes t ∧ s.Took dt t ∧
           s.SameBut t [.cnt, .frac, .ports]) ∧
        (∃ t, exec (.portStop dt p port) s = .next t ∧
           (t.port port).pend = q.pend ++ [{ isStart := false, stamp := max at_ u.cnt, seq := q.seq }] ∧ s.SameBytes t ∧ s.Took dt t ∧
           s.SameBut t [.cnt, .frac, .ports])) ∧
      (∃ t, exec (.portFlush dt p port) s = .next t ∧ (t.port port).pend = [] ∧
         (q.pend ≠ [] → t.pget port APT_SUPERSEDED IXP_SUPERSEDED =
           (s.pget port APT_SUPERSEDED IXP_SUPERSEDED + q.pend.length) % two 32) ∧ s.SameBytes t ∧ s.Took dt t ∧
         s.SameBut t [.cnt, .frac, .regs, .stores, .msix, .ports]))) ∧
  ((∀ (s : State) (dt : Nat) (port : Fin 10) (c : PortCmd), s.Inv → s.standby = false → s.portState port = ptSTOPPED →
     (s.port port).pend = [c] → c.isStart = true → c.stamp ≤ (s.elapse dt).cnt →
     ∃ t, exec (.portCommandEffect dt port) s = .next t ∧ (t.port port).pend = [] ∧ (t.port port).since = (s.elapse dt).cnt ∧
       t.portState port = (if (t.gated port).isEmpty then ptRUNNING else ptSTARTING) ∧
       t.pget port APT_INT_STAT_STARTED IXP_INT_STAT_STARTED = 1 ∧ s.SameBytes t ∧ s.Took dt t ∧
       s.SameBut t [.cnt, .frac, .regs, .stores, .msix, .ports]) ∧
   (∀ (s : State) (dt : Nat) (port : Fin 8) (w : Nat × Bool × Nat), s.Inv → (s.port port).switch = some w → w.1 < 8 → w.2.1 = true →
     (s.elapse dt).switchAt port w ≤ (s.elapse dt).cnt →
     ∃ t, exec (.switched dt port) s = .next t ∧ t.portState port = w.1 ∧ (t.port port).switch = none ∧
       (t.port port).newBlock = true ∧ (t.port port).since = s.switchAt port w ∧ t.get APT_INT_STAT_SWITCHED port = 1 ∧ s.SameBytes t ∧
       s.Took dt t ∧ s.SameBut t [.cnt, .frac, .regs, .stores, .msix, .ports])) ∧
  (∀ (s : State) (dt : Nat) (port : Fin 10) (ch : Fin 8) (w : Nat), s.Inv → (s.port port).gates.getD ch .closed = .opening w →
     (s.port port).timeout ≤ w →
     ∃ t, exec (.zcTimeout dt port ch) s = .next t ∧ (t.port port).gates.getD ch .closed = .rampUp 0 ∧
       t.pget port APT_ZC_TIMEOUTS IXP_ZC_TIMEOUTS = (s.pget port APT_ZC_TIMEOUTS IXP_ZC_TIMEOUTS + 1) % two 32 ∧
       t.pget port APT_INT_STAT_ZC_TIMEOUT IXP_INT_STAT_ZC_TIMEOUT = 1 ∧ s.SameBytes t ∧ s.Took dt t ∧
       s.SameBut t [.cnt, .frac, .regs, .stores, .msix, .ports])

/-- FRAME_BUFFER of a frame that a running AP port follows: a well-formed one, with a channel selected and room, is buffered whole and counted; one
that finds 64 frames untaken, and a malformed one, is dropped and counted (R217, R226). The first one after a port has become a slave completes its
switch too (R240). IEC_FRAME_RECEIVE of a well-formed frame on a locked running port is buffered and counted the same
way (R233); IEC_SIGNAL_LOSS loses lock (R234). OUTPUT_FRAME of an output line of a running AP port sends one frame, and so does IXn_TX in SILENCE, 192
frames to a block (R232, R239). IXP_CSQ_HOST_IDX_WRITE that leaves at most N descriptors moves the host index; another leaves it (R238). -/
def Obligations.PortFramesEnterAndLeaveInOrder : Prop :=
  ((∀ (s : State) (dt : Nat) (port : Fin 8) (fr : PortFrame), s.Inv → s.portState port = ptRUNNING → (s.port port).switch = none →
     (s.elapse dt).follows port ((s.elapse dt).frameStart port ((s.elapse dt).cnt - fr.age)) = true →
     s.portMask port = (s.port port).mask →
     (s.serialOk port fr = true → s.selected port (s.port port).mask ≠ [] → 64 ≤ (s.elapse dt).untaken port →
       ∃ t, exec (.frameBuffer dt port fr) s = .next t ∧ t.get APT_DROP_OVERRUN port = (s.get APT_DROP_OVERRUN port + 1) % two 32 ∧
         t.get APT_FRAMES port = s.get APT_FRAMES port ∧ (t.port port).frameNo = (s.port port).frameNo + 1 ∧
         t.get APT_INT_STAT_OVERRUN port = 1 ∧ s.SameBytes t ∧ s.Took dt t ∧
         s.SameBut t [.cnt, .frac, .regs, .stores, .msix, .ports]) ∧
     (s.serialOk port fr = true → s.selected port (s.port port).mask ≠ [] → (s.elapse dt).untaken port < 64 →
       ∃ t, exec (.frameBuffer dt port fr) s = .next t ∧ t.get APT_FRAMES port = (s.get APT_FRAMES port + 1) % two 32 ∧
         (t.port port).frameNo = (s.port port).frameNo + 1 ∧ s.SameBytes t ∧ s.Took dt t ∧
         s.SameBut t [.cnt, .frac, .regs, .stores, .msix, .ports, .slots]) ∧
     (s.serialOk port fr = false →
       ∃ t, exec (.frameBuffer dt port fr) s = .next t ∧ t.get APT_DROP_MALFORMED port = (s.get APT_DROP_MALFORMED port + 1) % two 32 ∧
         t.get APT_FRAMES port = s.get APT_FRAMES port ∧ (t.port port).frameNo = (s.port port).frameNo + 1 ∧
         t.get APT_INT_STAT_MALFORMED port = 1 ∧ s.SameBytes t ∧ s.Took dt t ∧
         s.SameBut t [.cnt, .frac, .regs, .stores, .msix, .ports])) ∧
   (∀ (s : State) (dt : Nat) (port : Fin 8) (fr : PortFrame) (T : Nat), s.Inv → s.portState port = ptSWITCHING →
     (s.port port).switch = some (ptRUNNING, false, T) → s.portMask port = (s.port port).mask → s.serialOk port fr = true →
     s.selected port (s.port port).mask ≠ [] → (s.elapse dt).untaken port < 64 →
     (s.port port).since ≤ (s.elapse dt).cnt - fr.age → s.releaseAt port (ptRUNNING, false, T) < (s.elapse dt).cnt - fr.age →
     ∃ t, exec (.frameBuffer dt port fr) s = .next t ∧ (t.port port).switch = none ∧ t.get APT_INT_STAT_SWITCHED port = 1 ∧
       (t.port port).since = s.switchAt port (ptRUNNING, false, T) ∧ t.get APT_FRAMES port = (s.get APT_FRAMES port + 1) % two 32 ∧
       (t.port port).frameNo = (s.port port).frameNo + 1 ∧ s.SameBytes t ∧ s.Took dt t ∧
       s.SameBut t [.cnt, .frac, .regs, .stores, .msix, .ports, .slots]) ∧
   (∀ (s : State) (dt : Nat) (port : Fin 2) (fr : IecFrame), s.Inv → s.portState (port + 8) = ptRUNNING →
     s.flag IXP_STAT_RX_LOCK port = true → iecOk fr = true → (s.port (port + 8)).since ≤ (s.elapse dt).cnt - fr.age →
     s.portMask (port + 8) = (s.port (port + 8)).mask → s.selected (port + 8) (s.port (port + 8)).mask ≠ [] →
     (s.elapse dt).untaken (port + 8) < 64 →
     ∃ t, exec (.iecFrameReceive dt port fr) s = .next t ∧ t.get IXP_FRAMES port = (s.get IXP_FRAMES port + 1) % two 32 ∧
       (t.port (port + 8)).frameNo = (s.port (port + 8)).frameNo + 1 ∧ s.SameBytes t ∧ s.Took dt t) ∧
   (∀ (s : State) (dt : Nat) (port : Fin 2), s.Inv → s.flag IXP_STAT_RX_LOCK port = true →
     ∃ t, exec (.iecSignalLoss dt port) s = .next t ∧ t.get IXP_STAT_RX_LOCK port = 0 ∧ t.get IXP_INT_STAT_LOCK_LOST port = 1 ∧
       (t.port (port + 8)).good = 0 ∧ (t.port (port + 8)).bad = 0 ∧ s.SameBytes t ∧ s.Took dt t ∧
       s.SameBut t [.cnt, .frac, .regs, .stores, .msix, .ports])) ∧
  ((∀ (s : State) (dt : Nat) (port : Fin 10) (line : Fin 4), s.Inv → s.pkg.sdUp = true → port.val < 8 → s.portState port = ptRUNNING →
     s.lineDir port line = 2 →
     ∃ t, exec (.outputFrame dt port line) s = .next t ∧ t.outFrame port line = s.outFrame port line + 1 ∧ s.SameBytes t ∧ s.Took dt t ∧
       s.SameBut t [.cnt, .frac, .regs, .stores, .msix, .ports]) ∧
   (∀ (s : State) (dt : Nat) (x : Fin 2), s.Inv → s.portState (x + 8) = ptRUNNING → s.get IXP_CFG_TX_SRC x = 2 →
     ∃ t, exec (.outputFrame dt ⟨x.val + 8, by omega⟩ 0) s = .next t ∧ (t.port (x + 8)).silencePos = ((s.port (x + 8)).silencePos + 1) % 192 ∧
       t.get IXP_STAT_TX_ACTIVE x = 1 ∧ t.outFrame (x + 8) 0 = s.outFrame (x + 8) 0 + 1 ∧ s.SameBytes t ∧ s.Took dt t ∧
       s.SameBut t [.cnt, .frac, .regs, .stores, .msix, .ports]) ∧
   (∀ (s : State) (dt : Nat) (p : Party) (x : Fin 2) (value : Nat), s.Inv → s.MayWrite p .ixp x → value < two 32 →
     ∃ t, exec (.ixpCsqHostIdxWrite dt p x value) s = .next t ∧
       t.get IXP_CSQ_HOST_IDX x =
         (if s.csqN x < idxSub (s.get IXP_CSQ_DEV_IDX x) value then s.get IXP_CSQ_HOST_IDX x else value) ∧
       s.SameRegsBut t [IXP_CSQ_HOST_IDX.key x 0] ∧ s.SameBytes t ∧ s.Took dt t ∧ s.SameBut t [.cnt, .frac, .regs]))

/-- Reads of the ports' stamps and channel status latch what belongs to one block (R248). -/
def Obligations.PortReadsLatchOneBlock : Prop :=
  ∀ (s : State) (dt : Nat) (p : Party), s.Inv →
    (∀ x : Fin 8, s.MayRead p .apt x → ∃ t, exec (.aptStampLoRead dt p x) s = .next t ∧ t.readData = s.get APT_STAMP_LO x ∧
      t.latched p APT_STAMP_HI x = s.get APT_STAMP_HI x % two 32 ∧ t.latched p APT_BLOCK_LO x = (s.port x).blockNo % two 32 ∧
      t.latched p APT_BLOCK_HI x = (s.port x).blockNo / two 32 % two 32 ∧ s.SameBytes t ∧ s.Took dt t ∧
      s.SameBut t [.cnt, .frac, .latches, .readData]) ∧
    (∀ x : Fin 2, s.MayRead p .ixp x → ∃ t, exec (.ixpStampLoRead dt p x) s = .next t ∧ t.readData = s.get IXP_STAMP_LO x ∧
      t.latched p IXP_STAMP_HI x = s.get IXP_STAMP_HI x % two 32 ∧ t.latched p IXP_BLOCK_LO x = s.get IXP_BLOCK_LO x % two 32 ∧
      t.latched p IXP_BLOCK_HI x = s.get IXP_BLOCK_HI x % two 32 ∧ s.SameBytes t ∧ s.Took dt t ∧
      s.SameBut t [.cnt, .frac, .latches, .readData]) ∧
    (∀ x : Fin 2, s.MayRead p .ixp x → ∃ t, exec (.ixpCsARead dt p x) s = .next t ∧ t.readData = s.get IXP_CS_A x ∧
      (∀ k, k < 5 → t.latched p IXP_CS_A_REST x k = s.get IXP_CS_A_REST x k % two 32) ∧
      (∀ k, k < 6 → t.latched p IXP_CS_B x k = s.get IXP_CS_B x k % two 32) ∧ s.SameBytes t ∧ s.Took dt t ∧
      s.SameBut t [.cnt, .frac, .latches, .readData])

/-! ## The tile, vector and cell instructions (06_compute_die.md, 07_numeric_formats.md) -/

/-- TILE_W4, TILE_W8 and TILE_BF16, valid by R262 and with every operand in the image's sections: the outputs of every row and column that is not
padding stand at C, row after row, each from the accumulation and the rescale of the weights, activations and column records read (R276, R306 to R308,
R312, R313), the counts of R317 have grown by theirs, and no other byte of any memory has changed. -/
def Obligations.TileInstructionsStoreTheirOutputs : Prop :=
  ∀ (s : State) (core : Fin 64) (i : Ins) (z : TileX) (r : Run) (m : Image), s.Inv →
    (let Stores := fun (out : Out) (op : Nat) (ok : Bool) (wb ab : Nat)
         (form : List Byte → List Byte → List ColRec → Nat → Nat → List Byte × List Nat) =>
      s.Executes core r m op i → ok = true → m.holds core i.a wb = true → m.holds core i.b (tileRows i * ab) = true → m.holds core i.d (16 * tileN i) = true →
      (let o := tileOuts (tileRows i) (tileN i) (s.rdBytes .sram (sramAt core i.a) wb) (s.rdBytes .sram (sramAt core i.d) (16 * tileN i))
          (fun k => s.rdBytes .sram (sramAt core (i.b + k * ab)) ab) form
       let all := o.flatMap (fun y => y.1)
       let row := fun (k : Nat) => (o.drop (k * tileN i)).take (tileN i)
       let len := all.length / tileRows i
       let real := (List.range (tileRows i)).filter (fun k => !r.padded m (z.first + k))
       m.holds core i.c all.length = true →
       ∃ t x, out = .next t ∧ s.Passed t core i.cycles r x ∧ s.SameBut t insParts ∧
         (real.length = tileRows i → s.Stored t .sram (sramAt core i.c) all) ∧
         (∀ k ∈ real, t.rdBytes .sram (sramAt core (i.c + k * len)) len = (row k).flatMap (fun y => y.1)) ∧
         (∀ sp a, (sp = .sram → ∀ k ∈ real, a < sramAt core (i.c + k * len) ∨ sramAt core (i.c + k * len) + len ≤ a) → t.rd sp a = s.rd sp a) ∧
         Map.get x.status core [] = addCounts (Map.get r.status core []) ((real.flatMap row).foldl (fun a y => addCounts a y.2) []))
     Stores (exec (.tileW4 core i z) s) 1 (tileOk i 32 4096 true) (tileK i * tileN i / 2) (tileK i) (outW4 i z s.draws) ∧
     Stores (exec (.tileW8 core i z) s) 2 (tileOk i 32 2048 false) (tileK i * tileN i) (tileK i) (outW8 i z s.draws) ∧
     Stores (exec (.tileBf16 core ⟨i, z.first⟩) s) 3 (tileOk i 16 1024 false) (2 * tileK i * tileN i) (2 * tileK i) (outBf i s.draws))

/-- Every VEC and CELL instruction, valid by R262, on the image's sections or on every row (PER_ROW): for each target the destination holds
the elements the operation gives from that target's operands as they were before (R252 to R254, R311, R314, R318, R320), and no byte outside
the destinations has changed. Targets are distinct and no destination meets another target's operands, as R266's allocations are; with more
than one target no injection is armed. A VEC instruction's rows have the features it reads (R607). -/
def Obligations.VectorAndCellInstructionsStoreTheirElements : Prop :=
  ∀ (s : State) (core : Fin 64) (i : Ins) (r : Run) (m : Image), s.Inv →
    (let Stores := fun (out : Out) (op : Nat) (ok : Prop) (na nb nc n3 : Nat) (f : List Byte → List Byte → List Byte → List Byte × List Nat) =>
      s.Executes core r m op i → ok → m.holds core i.d n3 = true →
      (r.targets i).Nodup → (s.flag MEM_INJECT_ARM = false ∨ (r.targets i).length ≤ 1) →
      (∀ w ∈ r.targets i, ∃ o, m.operands core i na nb nc w = some o) →
      (∀ w ∈ r.targets i, ∀ v ∈ r.targets i, w ≠ v → ∀ o q, m.operands core i na nb nc w = some o →
        m.operands core i na nb nc v = some q → ∀ y ∈ o.c, ∀ u ∈ q.a ++ q.b ++ q.c, y.1 + y.2 ≤ u.1 ∨ u.1 + u.2 ≤ y.1) →
      ∃ t x, out = .next t ∧ s.Passed t core i.cycles r x ∧ s.SameBut t insParts ∧
        (∀ w ∈ r.targets i, ∀ o, m.operands core i na nb nc w = some o →
          t.rdPieces o.c = (f (s.rdBytes .sram (sramAt core i.d) n3) (s.rdPieces o.a) (s.rdPieces o.b)).1) ∧
        (∀ sp a, (sp = .sram → ∀ w ∈ r.targets i, ∀ o, m.operands core i na nb nc w = some o →
          ∀ y ∈ o.c, a < y.1 ∨ y.1 + y.2 ≤ a) → t.rd sp a = s.rd sp a)
     let Vec := fun (out : Out) (sub : Nat) =>
       let na := i.e * elemBytes (vecSrc i)
       let nb := if vecTwo sub then na else 0
       Stores out 0x10 (vecOk i sub = true ∧ (insPerRow i = true → r.rows.filter (s.lacksFeatures r i na nb) = [])) na nb
         (i.e * elemBytes (vecDst i)) (vecThird i sub) (vecAll i sub)
     let Cell := fun (out : Out) (sub : Nat) =>
       Stores out 0x11 (cellOk i sub = true) (cellBytes i sub).1 (cellBytes i sub).2.1 (cellBytes i sub).2.2 0
         (fun _ => cellAll i sub (Map.get s.cellTabs core []))
     Vec (exec (.vecAdd core i) s) 0 ∧ Vec (exec (.vecMul core i) s) 1 ∧ Vec (exec (.vecFma core i) s) 2 ∧ Vec (exec (.vecDiv core i) s) 3 ∧
     Vec (exec (.vecSqrt core i) s) 4 ∧ Vec (exec (.vecRcp core i) s) 5 ∧ Vec (exec (.vecRsqrt core i) s) 6 ∧ Vec (exec (.vecExp core i) s) 7 ∧
     Vec (exec (.vecLn core i) s) 8 ∧ Vec (exec (.vecMax core i) s) 9 ∧ Vec (exec (.vecMin core i) s) 10 ∧ Vec (exec (.vecQuant core i) s) 11 ∧
     Vec (exec (.vecCvt core i) s) 12 ∧ Vec (exec (.vecMove core i) s) 13 ∧
     Cell (exec (.cellLstm core i) s) 0 ∧ Cell (exec (.cellGru core i) s) 1 ∧ Cell (exec (.cellTable core i) s) 2)

/-! ## Attention and the felt (08_attention_and_felt.md) -/

/-- ATTN, valid, with every range it names in the image's sections and every felt page it reads within its tenancy's reach (R371), of a block that is
not the part's last one: each query's running state
after the block stands at C, from its state before and the admissible keys in order (R349, R352), and nothing else of memory changes. The last
block of a part above 0 leaves the partials with the run; the last block of a finished part 0 whose queries all took keys leaves their outputs
at C (R352, R355). One query that took no key gives zeros, and one that met a NaN gives NaNs, and each is counted (R353). -/
def Obligations.AttentionRunsItsBlocks : Prop :=
  ∀ (s : State) (core : Fin 64) (i : Ins) (z : AttnX) (r : Run) (m : Image) (w : Row) (a : Alloc), s.Inv → s.Executes core r m 4 i →
    (let d := s.descAt core i.a
     let v := s.view d w
     let pb := partBlocks d (ceilDiv v.len 128) z.part
     let b := attnBlockNo i
     let idx := if pb.1 ≤ b ∧ b < pb.2 then (List.range (min 128 (v.len - 128 * b))).map (fun j => 128 * b + j) else []
     let keys := idx.map (fun j => (j, s.keyVal core d z w a j))
     let res := (List.range (attnQueries i)).map (fun k => s.queryBlock core i z d w keys (b ≤ pb.1 || pb.2 ≤ pb.1) k)
     let ps := res.map (fun y => y.1)
     let all := if d.place = 0 then ps else (List.range ps.length).map (fun k => combine d.dim ((ps[k]?).toList ++
       (List.range (d.split - 1)).map (fun j => match Map.find r.partials (partialKey z.row z.head (z.first + k) (j + 1)) with
         | some (x :: l :: o) => ({ m := x, l := l, o := o } : Partial)
         | some _ | none => Partial.start d.dim)))
     let bytes := fun (p : Partial) => p.output.flatMap (fun y => if z.fmt = 1 then toLe 2 (fp32.convert bf16 y) else toLe 4 y)
     let t := r.rcd.tenancy
     attnOk i = true → s.attnWaits core i z = false → m.holds core i.a 64 = true → s.namedRow r z.row = some w →
     w.alloc = some a → z.head < d.heads → z.part < max 1 d.split →
     (∀ j ∈ idx, ∀ p, d.source ≠ 1 → s.keyAt core d z w a j = (.felt, p) → s.mayReach t (p / feltPageBytes) = true) →
     (attnRanges i z d v).all (fun y => m.holds core y.1 y.2) = true →
     (attnLast i = false → ∃ u x, exec (.attn core i z) s = .next u ∧ s.Stored u .sram (sramAt core i.c) (ps.flatMap Partial.bytes) ∧
        s.Passed u core i.cycles r x ∧
        Map.get x.status core [] = addCounts (Map.get r.status core []) (res.foldl (fun n y => addCounts n y.2) []) ∧ s.SameBut u insParts) ∧
     (attnLast i = true → d.place ≠ 0 → z.part ≠ 0 → ∃ u x, exec (.attn core i z) s = .next u ∧ s.Passed u core i.cycles r x ∧
        s.SameBut u insParts ∧ s.Stored u .sram (sramAt core i.c) (ps.flatMap Partial.bytes) ∧
        ∀ k p, ps[k]? = some p → Map.find x.partials (partialKey z.row z.head (z.first + k) z.part) = some (p.m :: p.l :: p.o)) ∧
     (attnLast i = true → (d.place = 0 ∨ z.part = 0) → (∀ p ∈ all, p.kind = 0) →
        ∃ u x, exec (.attn core i z) s = .next u ∧ s.Passed u core i.cycles r x ∧ s.SameBut u (.sb :: insParts) ∧
          u.rdBytes .sram (sramAt core i.c) (all.flatMap bytes).length = all.flatMap bytes ∧
          ∀ sp q, (sp = .sram → q < sramAt core i.c ∨ sramAt core i.c + (ps.flatMap Partial.bytes).length ≤ q) → u.rd sp q = s.rd sp q) ∧
     (∀ p c, attnLast i = true → (d.place = 0 ∨ z.part = 0) → all = [p] → s.segment core i d z.first ≠ 0xFFFF → s.rowChunk r w = some c →
        t < 64 →
        (p.kind = 1 → z.first ∉ c.emptyQ → ∃ u, exec (.attn core i z) s = .next u ∧ (∀ y ∈ p.output, y = 0) ∧
          (sramAt a.core (a.off + 8) + 4 ≤ sramAt core i.c ∨ sramAt core i.c + (bytes p).length ≤ sramAt a.core (a.off + 8) →
            u.rdBytes .sram (sramAt core i.c) (bytes p).length = bytes p) ∧
          u.get FELT_INT_STAT_EMPTY t = 1 ∧ u.get FELT_EMPTY_QUERIES t = (s.get FELT_EMPTY_QUERIES t + 1) % two 32) ∧
        (p.kind = 2 → z.first ∉ c.nanQ → ∃ u, exec (.attn core i z) s = .next u ∧ (∀ y ∈ p.output, y = fp32.qnan) ∧
          u.rdBytes .sram (sramAt core i.c) (bytes p).length = bytes p ∧
          u.get FELT_INT_STAT_NAN_QUERY t = 1 ∧ u.get FELT_NAN_QUERIES t = (s.get FELT_NAN_QUERIES t + 1) % two 32)))

/-- APPEND_KV, valid, of a main-lane row whose stage gives it a place, and whose pages from the first position on are within its tenancy's reach
(R371): for the encoder the chunk's A is the row's length clipped to APPEND_MAX
where none is fixed yet, and for the decoder the length itself, with DLEN grown by it where its pages can be had; then the parts of the first
A tokens stand at their entries or positions (R345, R346). A decoder that cannot have its pages faults the row with FELT_FULL's code. -/
def Obligations.AppendKvWritesEveryPosition : Prop :=
  ∀ (s : State) (core : Fin 64) (i : Ins) (row : Nat) (r : Run) (m : Image) (w : Row) (a : Alloc) (off : Nat) (word : List Byte), s.Inv →
    s.Executes core r m 0x20 i → s.nextWord r m core = some (off, word) →
    (let d := s.descAt core i.a
     let v := (((({ s with actor := some core.val }).runReads r.id core core off 32).fetch r core).spend r core i.cycles).runReads r.id core core i.a 64
     let src := fun (j : Nat) => sramAt core (i.b + j * d.part)
     let old := (s.slot w.slot).committed
     appendOk i = true → m.holds core i.a 64 = true → s.namedRow r row = some w → w.alloc = some a → r.rcd.lane = 0 →
     m.holds core i.b (bits i.c 0 16 * d.part) = true →
     (d.cache = 1 → (old.pagesFrom old.dlen d.ppp).all (s.mayReach r.rcd.tenancy) = true) →
     (∀ A, d.cache = 1 → (s.slot w.slot).decA = some A →
        (let at_ := fun (j : Nat) => feltPageBytes * (s.slot w.slot).other.pages.getD (((s.slot w.slot).committed.dlen + j) / d.ppp) 0 +
            ((s.slot w.slot).committed.dlen + j) % d.ppp * d.entry + d.layerOff
         let n := min (bits i.c 0 16) A
         (∀ j k, j < k → k < n → at_ j + d.part ≤ at_ k ∨ at_ k + d.part ≤ at_ j) →
         ∃ t, exec (.appendKv core i row) s = .next t ∧
           (∀ j, j < n → t.rdBytes .felt (at_ j) d.part = s.rdBytes .sram (src j) d.part) ∧
           (∀ sp q, (sp = .felt → ∀ j, j < n → q < at_ j ∨ at_ j + d.part ≤ q) → t.rd sp q = s.rd sp q) ∧ t.slots = s.slots)) ∧
     (d.cache = 1 → (s.slot w.slot).decA = none →
        ((v.firstDecoder r.id r.rcd.tenancy w.slot w.len d).2.1 = true →
          ∃ t, exec (.appendKv core i row) s = .next t ∧ (t.slot w.slot).decA = some w.len ∧
            (t.slot w.slot).other.dlen = (v.formWorking w.slot |>.slot w.slot).other.dlen + w.len) ∧
        ((v.firstDecoder r.id r.rcd.tenancy w.slot w.len d).2.1 = false → w.fault = none →
          ∃ t, exec (.appendKv core i row) s = .next t ∧
            ∃ x, t.runBy r.id = some x ∧ ∃ y ∈ x.rows, y.slot = w.slot ∧ y.fault = some sfFELT)) ∧
     (d.cache ≠ 1 → d.cap * d.entry ≤ a.cacheLen → d.entry ≠ 0 → d.cap ≠ 0 →
        (let A := ((s.slot w.slot).encA).getD (min w.len d.appendMax)
         let at_ := fun (j : Nat) => sramAt a.core (a.cacheOff + ((s.slot w.slot).committed.head / d.entry + j) % d.cap * d.entry + d.layerOff)
         let n := min (bits i.c 0 16) A
         (∀ j k, j < k → k < n → at_ j + d.part ≤ at_ k ∨ at_ k + d.part ≤ at_ j) →
         (∀ j k, j < k → k < n → at_ j + d.part ≤ src k ∨ src k + d.part ≤ at_ j) →
         ∃ t, exec (.appendKv core i row) s = .next t ∧ (t.slot w.slot).encA = some A ∧
           (∀ j, j < n → t.rdBytes .sram (at_ j) d.part = s.rdBytes .sram (src j) d.part) ∧
           (∀ sp q, (sp = .sram → ∀ j, j < n → q < at_ j ∨ at_ j + d.part ≤ q) → t.rd sp q = s.rd sp q))))

/-- Prefix commands on a page with none pending are taken with the slot and the handle the registers hold, and with one pending, or before
CD_READY, are refused with BUSY (R343). FELT_VIEW_DEC_READ latches one view of the selected slot (R373). FELT_REF_UPDATE brings the oldest open
reference change to the other die's counter (R578). -/
def Obligations.PrefixCommandsViewAndReferences : Prop :=
  ∀ (s : State) (dt : Nat) (p : Party) (t0 : Fin 64), s.Inv →
    (s.MayWrite p .felt t0 →
     let Taken := fun (out : Out) (k : Nat) =>
      (s.cdReady = true → Map.find s.pfx t0 = none →
        ∃ t, out = .next t ∧
          Map.find t.pfx t0 = some ⟨k, s.get FELT_PFX_SLOT t0, s.get FELT_PFX_HANDLE_HANDLE t0, s.flag FELT_PFX_HANDLE_CROSS t0, (s.elapse dt).cnt⟩ ∧
          t.get FELT_STAT_PFX_PENDING t0 = 1 ∧ t.get FELT_PFX_STAT_PENDING t0 = 1 ∧
          s.SameRegsBut t [FELT_STAT_PFX_PENDING.key t0 0, FELT_PFX_STAT_PENDING.key t0 0] ∧ s.SameBytes t ∧ s.Took dt t ∧
          s.SameBut t [.cnt, .frac, .regs, .pfx]) ∧
      (s.cdReady = false ∨ Map.find s.pfx t0 ≠ none →
        ∃ t, out = .next t ∧ t.get FELT_PFX_STAT_CODE t0 = pxBUSY ∧
          t.get FELT_PFX_REFUSED t0 = (s.get FELT_PFX_REFUSED t0 + 1) % two 32 ∧ t.get FELT_INT_STAT_PFX_REFUSED t0 = 1 ∧ s.SameBytes t ∧
          s.Took dt t ∧ s.SameBut t [.cnt, .frac, .regs, .stores, .msix])
     Taken (exec (.pfxCapture dt p t0) s) 0 ∧ Taken (exec (.pfxAttach dt p t0) s) 1 ∧ Taken (exec (.pfxDrop dt p t0) s) 2) ∧
    (s.MayRead p .felt t0 → s.inRange t0 (s.get FELT_SEL t0) = true →
      ∃ t, exec (.feltViewDecRead dt p t0) s = .next t ∧ t.readData = (s.slot (s.get FELT_SEL t0)).committed.pages.length ∧
        t.latched p FELT_VIEW_DLEN t0 = (s.slot (s.get FELT_SEL t0)).committed.dlen % two FELT_VIEW_DLEN.w ∧ s.SameBytes t ∧ s.Took dt t ∧
        s.SameBut t [.cnt, .frac, .latches, .readData]) ∧
    (∀ o l, s.led.opens = o :: l →
      ∃ t, exec (.feltRefUpdate dt) s = .next t ∧ t.led = { s.led with opens := l, refs := s.led.refs.plus o.1 o.2 } ∧ s.SameBytes t ∧
        s.Took dt t ∧ s.SameBut t [.cnt, .frac, .led])

/-! ## Runs, commits, features, programs and cores (06_compute_die.md, 03_streams.md) -/

/-- BARRIER: the core waits until every core of the mask has reached it, and then they all go on (R262). END of a core that is not the run's
last: its stream is over (R271). END of the last core with nothing outstanding: the rows of a stage that is not final are eligible for the next
one, and those of the final stage send their results and commits (R267, R274). -/
def Obligations.BarriersAndStageEnds : Prop :=
  ∀ (s : State) (dt : Nat) (core : Fin 64) (i : Ins) (r : Run) (m : Image) (ends : List RowEnd), s.Inv → barrierOk i = true →
    (s.Executes core r m 0x30 i →
      (¬(((r.barrier ||| two core) ||| r.ended) &&& r.rcd.coreMask = r.rcd.coreMask ∧ r.ended = 0) →
        ∃ t x, exec (.barrier core i) s = .next t ∧ s.Passed t core 0 r x ∧ x.barrier = r.barrier ||| two core ∧ s.SameBytes t ∧
          s.SameBut t [.regs, .msix, .stores, .mem, .runs, .pwr]) ∧
      (((r.barrier ||| two core) ||| r.ended) &&& r.rcd.coreMask = r.rcd.coreMask → r.ended = 0 →
        ∃ t x, exec (.barrier core i) s = .next t ∧ t.runBy r.id = some x ∧ x.barrier = 0 ∧ x.barrierAt = [] ∧
          Map.get x.pos core 0 = Map.get r.pos core 0 + 32 ∧ x.rows = r.rows ∧ x.rcd = r.rcd ∧ x.suspended = r.suspended ∧
          (∀ id, id ≠ r.id → t.runBy id = s.runBy id) ∧ s.SameBytes t ∧ s.SameBut t [.regs, .msix, .stores, .mem, .runs, .pwr])) ∧
    (let u := s.elapse dt
     u.Executes core r m 0x3F i →
     (((r.ended ||| two core) &&& r.rcd.coreMask) ≠ r.rcd.coreMask →
       ∃ t x, exec (.endStream dt core i ends) s = .next t ∧ u.Passed t core 0 r x ∧ x.ended = r.ended ||| two core ∧ s.Took dt t ∧
         s.SameBut t (.cnt :: .frac :: insParts)) ∧
     (((r.ended ||| two core) &&& r.rcd.coreMask) = r.rcd.coreMask → s.outstanding r.id = false → r.ends = none →
       (let live := (rowEnds r.rows ends).filter (fun y => y.1.fault.isNone)
        ∃ t, exec (.endStream dt core i ends) s = .next t ∧ s.Took dt t ∧
          (r.final = true → t.commits = s.commits ++ live.map (fun y => rowMsg r m y.1 y.2)) ∧
          (r.final = false → t.commits = s.commits ∧
            ∀ y ∈ live, ∀ c ∈ (s.slot y.1.slot).chunks, c.k = y.1.k → c.stage = .running r.stage r.id →
              { c with stage := .eligible (r.stage + 1), since := t.cnt } ∈ (t.slot y.1.slot).chunks) ∧
          ((∀ c ∈ t.commits, c.run = r.id → c.rest = []) → t.runBy r.id = none))))

/-- RESULT_MESSAGE of bytes the result store has room for: the store holds them for the tenancy and the chunk's record gains them (R274,
R605); without room the message waits and the wait is counted once. COMMIT of a row whose epoch is accepted makes the chunk OK and the other
bank current; of one that is not, the previous state stays and the write is counted stale (R91, R93, R94). FEAT_MESSAGE puts the next 4 KiB of a chunk's
features in its area, and with the last they are all there (R279, R607). A bad couch flit is sent again, and when its fourth replay has failed the link is down and every run has
stopped (R282). -/
def Obligations.ResultsCommitsAndFeaturesCrossTheLink : Prop :=
  ∀ (s : State) (dt : Nat) (slot : Fin 8192), s.Inv → s.couchUp = true →
    (∀ x, s.commits.find? (fun y => y.slot == slot.val && !y.rest.isEmpty) = some x →
      (let n := x.rest.take 4096
       let tn := s.tenancyOf slot
       (s.resultRoom tn n.length = true →
         ∃ t, exec (.resultMessage dt slot) s = .next t ∧
           Map.get t.iso.held (resKey slot x.k) (0, 0) = (tn, (Map.get s.iso.held (resKey slot x.k) (tn, 0)).2 + n.length) ∧
           t.commits = modMsg (fun y => y.slot == slot.val && y.k == x.k && y.run == x.run) (fun y => { y with rest := y.rest.drop 4096 }) s.commits ∧
           (∀ c, s.msgChunk x = some c → { c with result := c.result ++ n } ∈ (t.slot slot).chunks) ∧ s.SameBytes t ∧ s.Took dt t) ∧
       (s.resultRoom tn n.length = false → x.waited = false →
         ∃ t, exec (.resultMessage dt slot) s = .next t ∧ t.iso = { s.iso with resWait := true } ∧
           t.get ISO_RES_WAIT = (s.get ISO_RES_WAIT + 1) % two 32 ∧ t.slots = s.slots ∧ s.SameBytes t ∧ s.Took dt t ∧
           s.SameBut t [.cnt, .frac, .regs, .iso, .commits]))) ∧
    (∀ x l c, takeMsg (fun y => y.slot == slot.val && y.rest.isEmpty) s.commits = some (x, l) → s.stoppedT (s.tenancyOf slot) = false →
      s.msgChunk x = some c → (s.slot slot).faultDue.any (fun f => f.2 == x.k) = false →
      ((s.slot slot).accepts x = true →
        ∃ t, exec (.commit dt slot) s = .next t ∧ t.commits = l ∧ (t.slot slot).cur = 1 - (s.slot slot).cur ∧
          (x.lane = 0 → (t.slot slot).decA = none ∧ (t.slot slot).encA = none ∧ (t.slot slot).working = false) ∧
          (t.slot slot).cnt.chunks = (s.slot slot).cnt.chunks + 1 ∧
          (∀ y ∈ (t.slot slot).chunks, y.same c = true → y.status = some stOK) ∧ s.Took dt t) ∧
      ((s.slot slot).accepts x = false →
        ∃ t, exec (.commit dt slot) s = .next t ∧ t.commits = l ∧ (t.slot slot).cur = (s.slot slot).cur ∧
          ((s.slot slot).demoting = false → (t.slot slot).committed.dlen = (s.slot slot).committed.dlen) ∧ (t.slot slot).cnt.stale = (s.slot slot).cnt.stale + 1 ∧
          (∀ y ∈ (t.slot slot).chunks, y.same c = true → y.status = some (s.slot slot).droppedStatus) ∧ s.Took dt t)) ∧
    (∀ c a, s.cdReady = true → (s.slot slot).chunks.find? (fun y => y.status.isNone) = some c → c.joined.isSome = true → c.featured = false →
      (if c.trans then (s.slot slot).home else (s.slot slot).listen) = some a →
      (let v := Map.get (s.slot slot).audio.feats c.k []
       let b := fit (min a.feat (4 * v.length)) (v.flatMap (fun y => toLe 4 y))
       ∃ t, exec (.featMessage dt slot) s = .next t ∧
         s.Stored t .sram (sramAt a.core (a.off + 64 + c.featSent)) ((b.drop c.featSent).take 4096) ∧
         { c with featSent := c.featSent + 4096, featured := decide (b.length ≤ c.featSent + 4096) } ∈ (t.slot slot).chunks ∧ s.Took dt t ∧
         s.SameBut t [.cnt, .frac, .regs, .mem, .msix, .stores, .sb, .slots, .draws, .sram])) ∧
    (∀ (up : Bool) (flit n : Nat),
      n = (if (Map.get s.couchTries (b2n up) (0, 0)).1 = flit then (Map.get s.couchTries (b2n up) (0, 0)).2 + 1 else 1) →
      (n ≤ 4 → exec (.couchFlitCrcError ⟨dt, up, flit⟩) s = .next { s.elapse dt with couchTries := Map.put (b2n up) (flit, n) s.couchTries }) ∧
      (4 < n → ∃ t, exec (.couchFlitCrcError ⟨dt, up, flit⟩) s = .next t ∧ t.couchUp = false ∧ t.couchTries = [] ∧ t.runs = [] ∧
        s.SameBytes t ∧ s.Took dt t))

/-- PROG_LOAD, PROG_UNLOAD and PROG_RELOAD on an idle page: a fetch begins, an image not in use goes at the next boundary, a program stops being
dispatched while its new image is fetched (R263, R265). A fetched image of a function that may send requests (R153), that passes R264, is loaded: every section holds its data and then zeros,
and nothing else changes in memory. One that fails is refused with its code. A quiet program's sections of kinds 1 to 4 are rewritten (R265). -/
def Obligations.ProgramCommandsLoadCheckedImages : Prop :=
  ∀ (s : State) (dt : Nat) (p : Party) (t0 : Fin 64), s.Inv →
    (s.MayWrite p .prog t0 → s.progIdle t0 = true →
      (s.get CORE_PROG_ADDR_LO t0 % 64 = 0 →
        (let q : ProgCmd := { kind := 1, addr := s.get2 CORE_PROG_ADDR_LO CORE_PROG_ADDR_HI t0, len := s.get CORE_PROG_LEN t0, id := 0 }
         ∃ t, exec (.progLoad dt p t0) s = .next t ∧ Map.find t.progCmds t0 = some q ∧ t.get CORE_PROG_STAT_STATE t0 = 1 ∧
           t.get PROG_STAT_BUSY t0 = 1 ∧ s.SameBytes t ∧ s.Took dt t ∧ s.SameBut t [.cnt, .frac, .regs, .progCmds])) ∧
      (∀ m, s.loaded t0 (s.get CORE_PROG_ID t0) = some m →
        (s.imageUsed t0 m = false → ∃ t, exec (.progUnload dt p t0) s = .next t ∧
          t.imagesOf t0 = (s.imagesOf t0).map (fun x => if x.id == m.id then { x with unloading := true } else x) ∧
          t.get CORE_PROG_STAT_CODE t0 = 0 ∧ t.get PROG_INT_STAT_DONE t0 = 1 ∧ s.SameBytes t ∧ s.Took dt t ∧
          s.SameBut t [.cnt, .frac, .regs, .msix, .stores, .images]) ∧
        (s.imageUsed t0 m = true → ∃ t, exec (.progUnload dt p t0) s = .next t ∧ t.get CORE_PROG_STAT_CODE t0 = pgIN_USE ∧
          s.SameBytes t ∧ s.Took dt t ∧ s.SameBut t [.cnt, .frac, .regs, .msix, .stores]) ∧
        (s.get CORE_PROG_ADDR_LO t0 % 64 = 0 → ∃ t, exec (.progReload dt p t0) s = .next t ∧
          t.imagesOf t0 = (s.imagesOf t0).map (fun x => if x.id == s.get CORE_PROG_ID t0 then { x with reload := 1 } else x) ∧
          (∃ q, Map.find t.progCmds t0 = some q ∧ q.kind = 3 ∧ q.id = s.get CORE_PROG_ID t0) ∧ s.SameBytes t ∧ s.Took dt t ∧
          s.SameBut t [.cnt, .frac, .regs, .progCmds, .images]))) ∧
    (∀ q b, Map.find s.progCmds t0 = some q → q.kind = 1 → s.mayRequest t0 = true →
      (let img := fit q.len b
       let m := parseImage img
       (s.imageCheck t0 img q.len = 0 →
         ∃ t, exec (.progLoadDone dt t0 (some b)) s = .next t ∧ t.imagesOf t0 = s.imagesOf t0 ++ [m] ∧
           (∀ x ∈ m.sections, t.rdBytes .sram (sramAt x.core x.off) x.len = fit x.len ((img.drop x.imgOff).take x.dataLen)) ∧
           (∀ sp a, (sp = .sram → ∀ x ∈ m.sections, a < sramAt x.core x.off ∨ sramAt x.core x.off + x.len ≤ a) → t.rd sp a = s.rd sp a) ∧
           t.get CORE_PROG_STAT_CODE t0 = 0 ∧ t.get CORE_PROG_STAT_STATE t0 = 0 ∧ t.get PROG_STAT_BUSY t0 = 0 ∧ s.Took dt t) ∧
       (s.imageCheck t0 img q.len ≠ 0 →
         ∃ t, exec (.progLoadDone dt t0 (some b)) s = .next t ∧ t.images = s.images ∧
           t.get CORE_PROG_STAT_CODE t0 = s.imageCheck t0 img q.len ∧ t.get PROG_STAT_BUSY t0 = 0 ∧ s.SameBytes t ∧ s.Took dt t ∧
           s.SameBut t [.cnt, .frac, .regs, .msix, .stores, .progCmds]))) ∧
    (∀ q m, Map.find s.progCmds t0 = some q → q.kind = 4 → s.programRuns t0 q.id = false → s.loaded t0 q.id = some m → m.reload = 2 →
      ∃ t, exec (.progReloadQuiet dt t0) s = .next t ∧ (∃ x, t.loaded t0 q.id = some x ∧ x.reload = 3 ∧ x.sections = m.sections) ∧
        t.get CORE_PROG_STAT_CODE t0 = 0 ∧ t.get PROG_STAT_BUSY t0 = 0 ∧ s.Took dt t ∧
        ∀ sp a, (sp = .sram → ∀ x ∈ (parseImage q.img).sections, x.kind ≤ 4 → a < sramAt x.core x.off ∨ sramAt x.core x.off + x.len ≤ a) →
          t.rd sp a = s.rd sp a)

/-- CORE_FAULT_READ returns code and tenancy and latches the program and the time (R298). CORE_SIDED of a SIDING core that no run names: it
is SIDED, its sidings and the page's GEN have advanced, and no other register but its interrupt bit (R286). -/
def Obligations.CoreFaultViewAndSiding : Prop :=
  ∀ (s : State) (dt : Nat) (core : Fin 64), s.Inv →
    (∀ p : Party, s.MayRead p .core core →
      ∃ t, exec (.coreFaultRead dt p core) s = .next t ∧ t.readData = s.get CORE_FAULT_CODE core + 256 * s.get CORE_FAULT_TENANCY core ∧
        t.latched p CORE_FAULT_PROG core = s.get CORE_FAULT_PROG core % two 32 ∧
        t.latched p CORE_FAULT_TIME_LO core = s.get CORE_FAULT_TIME_LO core % two 32 ∧
        t.latched p CORE_FAULT_TIME_HI core = s.get CORE_FAULT_TIME_HI core % two 32 ∧ s.SameBytes t ∧ s.Took dt t ∧
        s.SameBut t [.cnt, .frac, .latches, .readData]) ∧
    (s.get CORE_STAT_STATE core = csSIDING → s.named core = false →
      ∃ t, exec (.coreSided dt core) s = .next t ∧ t.get CORE_STAT_STATE core = csSIDED ∧
        t.get CORE_SIDINGS core = (s.get CORE_SIDINGS core + 1) % two 32 ∧ t.get CORE_INT_STAT_SIDED core = 1 ∧
        s.SameRegsBut t [CORE_STAT_STATE.key core 0, CORE_SIDINGS.key core 0, CORE_INT_STAT_SIDED.key core 0, (hdrGen .core).key core 0] ∧
        s.SameBytes t ∧ s.Took dt t ∧ s.SameBut t [.cnt, .frac, .regs, .genAt, .msix, .stores]) ∧
    (s.get CORE_STAT_STATE core = csSIDING → s.named core = true → exec (.coreSided dt core) s = .next (s.elapse dt))

/-! ## Tables and the gather engine (09_tables_and_gather.md) -/

/-- Table commands on a page with none in progress, in the table's state that each needs: DEFINE and LOAD begin a fetch, SAVE a transfer, ENABLE and
DISABLE wait for the boundary, DELETE forgets the table at once (R380). A DEFINE whose descriptor passes the checks gives the table it describes,
DISABLED; a LOAD's bytes stand in the shard's storage, and no other byte changes; a fetch in error is refused with FETCH (R379, R381); a fetch of a
function that may send no request goes on waiting (R153). In the wrong state a command is refused with STATE. GX_TAG_QUOTA_WRITE and
GX_PF_QUOTA_WRITE of tenancy 0 are pending for the boundary where the sum stays within the pool, and are otherwise ignored with QUOTA_REFUSED
(R414). GX_WIN_WRITE takes effect while every table of the tenancy is UNDEFINED, and is otherwise ignored with CMD_REFUSED (R375, R415). -/
def Obligations.TablesQuotasAndWindowsAreGuarded : Prop :=
  (∀ (s : State) (dt : Nat) (p : Party) (t0 : Fin 64), s.Inv →
     (let T := s.get GX_TBL_SEL t0
      let b := s.table t0 T
      let d := s.get GX_DESC_ADDR_LO t0 + two 32 * s.get GX_DESC_ADDR_HI t0
      let a := s.get GX_XFER_ADDR_LO t0 + two 32 * s.get GX_XFER_ADDR_HI t0
      let o := s.get GX_XFER_OFF_LO t0 + two 32 * s.get GX_XFER_OFF_HI t0
      let n := s.get GX_XFER_LEN t0
      let inside := a % 64 = 0 ∧ o % 64 = 0 ∧ n % 64 = 0 ∧ o + n ≤ b.bytes
      let Begins := fun (out : Out) (need : Nat) (ok : Prop) (q : GxCmd) (st : Nat) =>
        (b.state = need → ok → ∃ t, out = .next t ∧ Map.find t.gx.cmds t0 = some q ∧ t.get GX_CMD_STAT_STATE t0 = st ∧
           t.get GX_STAT_CMD_BUSY t0 = 1 ∧ s.SameBytes t ∧ s.Took dt t ∧
           s.SameBut t [.cnt, .frac, .regs, .gx, .stores, .mem, .msix, .sb]) ∧
        (b.state ≠ need → ∃ t, out = .next t ∧ t.get GX_CMD_STAT_CODE t0 = gxSTATE ∧ t.get GX_INT_STAT_CMD_REFUSED t0 = 1 ∧
           s.SameBytes t ∧ s.Took dt t ∧ s.SameBut t [.cnt, .frac, .regs, .stores, .msix])
      s.MayWrite p .gx t0 → s.cdReady = true → Map.find s.gx.cmds t0 = none →
      Begins (exec (.gxDefine dt p t0) s) tbUNDEFINED (d % 64 = 0) ⟨0, T, 0, 0, d, 0⟩ 1 ∧
      Begins (exec (.gxEnable dt p t0) s) tbDISABLED True ⟨2, T, 0, 0, 0, (s.elapse dt).cnt⟩ 3 ∧
      Begins (exec (.gxDisable dt p t0) s) tbENABLED True ⟨3, T, 0, 0, 0, (s.elapse dt).cnt⟩ 3 ∧
      Begins (exec (.gxLoad dt p t0) s) tbDISABLED inside ⟨4, T, o, n, a, 0⟩ 2 ∧
      Begins (exec (.gxSave dt p t0) s) tbDISABLED inside ⟨5, T, o, n, a, 0⟩ 2 ∧
      (b.state = tbDISABLED → ∃ t, exec (.gxDelete dt p t0) s = .next t ∧ t.table t0 T = {} ∧ t.get GX_CMD_STAT_CODE t0 = 0 ∧
         t.get GX_INT_STAT_CMD_DONE t0 = 1 ∧ s.SameBytes t ∧ s.Took dt t ∧ s.SameBut t [.cnt, .frac, .regs, .gx, .stores, .msix])) ∧
     (∀ q : GxCmd, Map.find s.gx.cmds t0 = some q →
       (∀ d, q.kind = 0 → s.mayRequest t0 = true → s.tableCheck t0 q.table (fit 128 d) = 0 →
         ∃ t, exec (.gxCmdDone dt t0 (some d)) s = .next t ∧ t.table t0 q.table = parseTable (fit 128 d) ∧
           t.get GX_CMD_STAT_STATE t0 = 0 ∧ t.get GX_STAT_CMD_BUSY t0 = 0 ∧ t.get GX_CMD_STAT_CODE t0 = 0 ∧ s.SameBytes t ∧ s.Took dt t) ∧
       (∀ d, q.kind = 4 → s.mayRequest t0 = true →
         ∃ t, exec (.gxCmdDone dt t0 (some d)) s = .next t ∧
           s.Stored t .dram (s.winBase t0 + (s.table t0 q.table).off + q.off) (fit q.len d) ∧ t.get GX_CMD_STAT_CODE t0 = 0 ∧
           t.get GX_STAT_CMD_BUSY t0 = 0 ∧ s.Took dt t) ∧
       (q.kind = 0 ∨ q.kind = 4 → s.mayRequest t0 = false → ∀ d, exec (.gxCmdDone dt t0 d) s = .next (s.elapse dt)) ∧
       (q.kind = 5 ∨ ((q.kind = 0 ∨ q.kind = 4) ∧ s.mayRequest t0 = true) →
         ∃ t, exec (.gxCmdDone dt t0 none) s = .next t ∧ t.get GX_CMD_STAT_CODE t0 = gxFETCH ∧ t.get GX_STAT_CMD_BUSY t0 = 0 ∧
           s.SameBytes t ∧ s.Took dt t ∧ s.SameBut t [.cnt, .frac, .regs, .gx, .stores, .msix]))) ∧
  (∀ (s : State) (dt value : Nat) (t0 : Fin 64), s.Inv → s.pkg.sdUp = true →
     (let Quota := fun (out : Out) (f : Fld) (most : Nat) =>
        let sum := (((List.range 64).filter (fun u => u ≠ t0.val)).map (fun u => s.shown f u)).foldl (· + ·) 0 + value % two f.w
        (sum ≤ most → ∃ t, out = .next t ∧ t.pendOf f t0 = some ⟨f, t0, 0, value % two f.w, 0, (s.elapse dt).cnt⟩ ∧ s.SameBytes t ∧ s.Took dt t ∧
           s.SameBut t [.cnt, .frac, .pend]) ∧
        (most < sum → ∃ t, out = .next t ∧ t.get GX_INT_STAT_QUOTA_REFUSED = 1 ∧ s.SameRegsBut t [GX_INT_STAT_QUOTA_REFUSED.key 0 0] ∧
           s.SameBytes t ∧ s.Took dt t ∧ s.SameBut t [.cnt, .frac, .regs, .stores, .msix])
      Quota (exec (.gxTagQuotaWrite dt (.fn 0) t0 value) s) GX_TAG_QUOTA 2048 ∧ Quota (exec (.gxPfQuotaWrite dt (.fn 0) t0 value) s) GX_PF_QUOTA 128) ∧
     (∀ off f, (off, f) ∈ [(0x100, GX_WIN_BASE_LO), (0x104, GX_WIN_BASE_HI), (0x108, GX_WIN_SIZE)] → s.sameWord .gx t0 off value = false →
       (s.get GX_TBL_STATE t0 = 0 →
         (off = 0x108 → s.winBase t0 / two 20 + value % two 18 ≤ Config.dramMib ∧ value % two 18 ≤ 131072) →
         ∃ t, exec (.gxWinWrite dt (.fn 0) t0 off value) s = .next t ∧ t.get f t0 = value / two f.lo % two f.w ∧
           s.SameRegsBut t [f.key t0 0] ∧ s.SameBytes t ∧ s.Took dt t ∧ s.SameBut t [.cnt, .frac, .regs]) ∧
       (s.get GX_TBL_STATE t0 ≠ 0 →
         ∃ t, exec (.gxWinWrite dt (.fn 0) t0 off value) s = .next t ∧ t.get GX_INT_STAT_CMD_REFUSED t0 = 1 ∧
           s.SameRegsBut t [GX_INT_STAT_CMD_REFUSED.key t0 0] ∧ s.SameBytes t ∧ s.Took dt t ∧
           s.SameBut t [.cnt, .frac, .regs, .stores, .msix])))

/-- GATHER of a good list with no other list under way. On a table that is not ENABLED every index is absent; on one whose rows this chip owns, in the
view's interval, every good index is read: in both cases the record with the pooled bags stands at OUT and nothing else of memory has changed (R382,
R383, R389, R393). One index of another chip's shard takes the lowest free tag with a new generation and a time limit (R385, R386, R389). READ_REPLY,
REFUSE and GATHER_READ_TIMEOUT of the last read a list waits for: the tag is free, the index holds the row, is poisoned or is absent, and the record
stands at OUT (R383, R387 to R389). A reply that no tag waits for is counted and changes nothing of the engine (R389). -/
def Obligations.GatherListsRunToTheirEnd : Prop :=
  (∀ (s : State) (dt : Nat) (core : Fin 64) (i : Ins) (r : Run) (m : Image), s.Inv → (s.elapse dt).Executes core r m 0x21 i → r.ends = none →
     (let h := s.rdBytes .sram (sramAt core i.a) 32
      let tn := r.rcd.tenancy
      let b := s.table tn (le h 0 1)
      let dim := if b.state = tbUNDEFINED then 0 else b.dim
      let rows := s.words core (le h 0xC 4) (le h 4 4)
      let good := rows.filter (fun x => decide (indexOut true b.rows x = .waiting))
      let l : GList := { id := 0, tenancy := tn, table := le h 0 1, core := core, run := r.id, flags := le h 1 1, out := le h 8 4,
                         view := s.viewNow, bounds := s.words core (le h 0x14 4) (le h 2 2 + 1), rows := rows,
                         weights := if bit (le h 1 1) 1 then s.words core (le h 0x10 4) (le h 4 4) else [],
                         got := rows.map (fun _ => .absent) }
      oneOperand i 64 = true → tn < 64 → m.holds core i.a 32 = true → gatherOk h = true →
      (gatherArrays h).all (fun x => m.holds core x.1 x.2) = true → m.holds core (le h 8 4) (gatherOut h dim) = true →
      boundsOk l.bounds (le h 4 4) = true → s.gx.lists = [] → s.gx.prefetch = [] →
      (b.state ≠ tbENABLED →
        ∃ t, exec (.gather dt core i) s = .next t ∧ s.Stored t .sram (sramAt core (le h 8 4)) (l.record b dim) ∧ t.gx.lists = [] ∧
          t.get GX_ABSENT tn = (s.get GX_ABSENT tn + rows.length) % two 32 ∧ t.get GX_GATHERS tn = (s.get GX_GATHERS tn + 1) % two 32 ∧
          s.Took dt t) ∧
      (b.state = tbENABLED → l.prefetch = false → (∀ x ∈ good, b.owner x = s.node) → b.next = s.viewNow →
        s.tagsHeld tn < s.get GX_TAG_QUOTA tn → s.freeTag.isSome = true →
        ∃ t, exec (.gather dt core i) s = .next t ∧
          s.Stored t .sram (sramAt core (le h 8 4))
            ({ l with got := rows.map (fun x => match indexOut true b.rows x with
                        | .waiting => .row (s.rdBytes .dram (s.rowAddr tn b x) (b.stride x))
                        | o => o),
                      distinct := (readOrder l.sorted false good).length } |>.record b dim) ∧
          t.gx.lists = [] ∧ t.get GX_GATHERS tn = (s.get GX_GATHERS tn + 1) % two 32 ∧ s.Took dt t) ∧
      (∀ x k, b.state = tbENABLED → rows = [x] → good = [x] → b.owner x ≠ s.node → s.reachable (b.owner x) = true →
        s.tagsHeld tn < s.get GX_TAG_QUOTA tn → s.freeTag = some k →
        ∃ t g, exec (.gather dt core i) s = .next t ∧ Map.find t.gx.tags k = some g ∧ g.row = x ∧ g.node = b.owner x ∧ g.tenancy = tn ∧
          g.gen = (Map.get s.gx.gens k 0 + 1) % 256 ∧ g.at_ = t.cnt + s.get GX_TIMEOUT_NS ∧ t.gx.lists.length = 1 ∧
          s.SameBytes t ∧ s.Took dt t))) ∧
  (∀ (s : State) (dt : Nat) (src : Fin 32) (tn : Fin 64) (arg : Nat) (d : List Byte) (bad : Bool), s.Inv →
     (∀ k g l, s.gx.lists = [l] → Map.find s.gx.tags k = some g → g.list = l.id → l.todo = [] → l.prefetch = false →
       (∀ a ∈ (s.member g.tenancy l.table g.node).applied, a.1 < l.view) → (∀ r, s.runBy l.run = some r → r.ends = none) →
       (let b := s.table l.tenancy l.table
        let Ends := fun (out : Out) (o : IdxOut) =>
          IdxOut.waiting ∉ (l.fill g.row o).1 →
          ∃ t, out = .next t ∧ t.gx.tags = Map.del k s.gx.tags ∧ t.gx.lists = [] ∧
            s.Stored t .sram (sramAt l.core l.out) ({ l with got := (l.fill g.row o).1 }.record b (if b.state = tbUNDEFINED then 0 else b.dim))
        (s.tagOf src arg = some (k, g) → bit arg 0 = false → bit arg 2 = true →
          Ends (exec (.readReply dt src tn arg d) s) (.row (g.part0.getD [] ++ d))) ∧
        (s.tagOf src arg = some (k, g) → bit arg 0 = true → Ends (exec (.readReply dt src tn arg d) s) .poison) ∧
        (s.tagOf src arg = some (k, g) → Ends (exec (.refuse dt src tn arg bad) s) .absent) ∧
        (∀ h : k < 2048, Ends (exec (.gatherReadTimeout ⟨k, h⟩) s) .absent))) ∧
     (s.tagOf src arg = none →
       (∃ t, exec (.readReply dt src tn arg d) s = .next t ∧ t.gx = s.gx ∧ t.get GX_LATE_REPLY tn = (s.get GX_LATE_REPLY tn + 1) % two 32 ∧
         s.SameRegsBut t [GX_LATE_REPLY.key tn 0] ∧ s.SameBytes t ∧ s.Took dt t ∧ s.SameBut t [.cnt, .frac, .regs, .bl]) ∧
       (∃ t, exec (.refuse dt src tn arg false) s = .next t ∧ t.gx = s.gx ∧ t.get GX_LATE_REPLY tn = (s.get GX_LATE_REPLY tn + 1) % two 32 ∧
         s.SameRegsBut t [GX_LATE_REPLY.key tn 0] ∧ s.SameBytes t ∧ s.Took dt t ∧ s.SameBut t [.cnt, .frac, .regs, .bl])))

/-- READ_REQ of a row this chip owns, of an ENABLED table with the group's key, over a link that reads good words, is served once the shard has
applied the interval before its view, and after the requests of its chip that wait; it waits until then. A table that is not ENABLED, or another
key, is refused (R386, R387, R396). A block that two reads fail on the link goes back as poison (R539, R542). -/
def Obligations.ReadRequestsAreServedAfterTheirInterval : Prop :=
  ∀ (s : State) (dt block : Nat) (q : ReadReq), s.Inv → s.standby = false →
    (let b := s.table q.tenancy q.table
     let u := (s.elapse dt).takeArrived q.src 0x20
     let mine := fun (v : State) => v.modMember q.tenancy q.table q.src (fun m => { m with served := m.served.plus q.view 1 })
     (b.state = tbENABLED → b.key = q.key → q.view ≤ b.next → (∀ x ∈ s.gx.waiting, x.src ≠ q.src) → q.row < b.rows → b.owner q.row = s.node →
       (∀ link : LinkEcc, ∃ t, exec (.readReq dt ⟨q, link, block⟩) s = .next t ∧
         (t.member q.tenancy q.table q.src).served = (s.member q.tenancy q.table q.src).served.plus q.view 1 ∧ s.SameBytes t ∧ s.Took dt t) ∧
       (s.mem.damage = [] → s.flag MEM_INJECT_ARM = false →
         exec (.readReq dt ⟨q, .good, block⟩) s =
           .next (s.commit ((mine u).sendRow q (some (s.rdBytes .dram (s.rowAddr q.tenancy b q.row) (b.stride q.row))))) ∧
         ∃ t, exec (.readReq dt ⟨q, .failed, block⟩) s = .next t ∧
           t.bl = (u.sendRow q none).bl ∧ s.SameBytes t ∧ s.Took dt t)) ∧
     (b.state = tbENABLED → b.key = q.key → b.next < q.view ∨ (∃ x ∈ s.gx.waiting, x.src = q.src) →
       ∃ t, exec (.readReq dt ⟨q, .good, block⟩) s = .next t ∧ t.gx = { s.gx with waiting := s.gx.waiting ++ [q] } ∧ s.SameBytes t ∧ s.Took dt t ∧
         s.SameBut t [.cnt, .frac, .gx, .bl]) ∧
     (b.state ≠ tbENABLED → exec (.readReq dt ⟨q, .good, block⟩) s = .next (s.commit (u.refuseReq q false))) ∧
     (b.state = tbENABLED → b.key ≠ q.key →
       ∃ t, exec (.readReq dt ⟨q, .good, block⟩) s = .next t ∧ t.get GX_INT_STAT_MISMATCH q.tenancy = 1 ∧
         t.get GX_MISMATCH q.tenancy = (s.get GX_MISMATCH q.tenancy + 1) % two 32 ∧ s.SameBytes t ∧ s.Took dt t))

/-- UPDATE of rows this chip owns holds one entry per row, in order, with rising sequence numbers (R399). UPDATE_PACKET of an ENABLED table with
the group's key holds its entry (R388). INTERVAL_APPLY with every fence in, and FENCE_LIMIT_EXPIRY without, apply the interval: its entries are
gone and the next interval waits (R396, R400, R405); one SET entry leaves the row it gives (R400). UPDATE_CUT ends the interval of its tick
(R394). FENCE and APPLIED are recorded of their sender (R396, R398). -/
def Obligations.UpdatesAreHeldFencedAndApplied : Prop :=
  ∀ (s : State) (dt : Nat), s.Inv →
    (∀ (core : Fin 64) (i : Ins) (r : Run) (m : Image), (s.elapse dt).Executes core r m 0x22 i →
      (let h := s.rdBytes .sram (sramAt core i.a) 32
       let tn := r.rcd.tenancy
       let b := s.table tn (le h 0 1)
       let rows := s.words core (le h 0x10 4) (le h 4 4)
       oneOperand i 64 = true → m.holds core i.a 32 = true → updateOk h = true → m.holds core (le h 0x10 4) (4 * le h 4 4) = true →
       m.holds core (le h 0x14 4) (4 * le h 4 4 * b.dim) = true → b.state = tbENABLED → (∀ x ∈ rows, x < b.rows ∧ b.owner x = s.node) →
       s.gx.seq + rows.length < two 32 →
       ∃ t, exec (.update dt core i) s = .next t ∧
         t.gx = { s.gx with
           seq := s.gx.seq + rows.length,
           upds := s.gx.upds ++ (List.range rows.length).map (fun k =>
             { tenancy := tn, table := le h 0 1, interval := s.viewNow, node := s.node, seq := s.gx.seq + k, row := rows.getD k 0,
               rule := le h 1 1, flags := le h 2 1, eta := le h 8 4, decay := le h 0xC 4, parts := ceilDiv b.dim 1016,
               got := (List.range (ceilDiv b.dim 1016)).map (fun j =>
                 (j, ((s.words core (le h 0x14 4 + 4 * b.dim * k) b.dim).drop (1016 * j)).take 1016)), key := b.key }) } ∧
         s.SameBytes t ∧ s.Took dt t)) ∧
    (∀ (src : Fin 32) (tn : Fin 64) (d : List Byte),
      (let T := le d 0x18 1 % 16
       let b := s.table tn T
       s.standby = false → b.state = tbENABLED → b.key = le d 0x10 4 → (tabKey tn T, src.val, le d 4 4) ∉ s.gx.gone →
       (∀ e ∈ s.gx.upds, ¬(e.tenancy = tn ∧ e.table = T ∧ e.node = src ∧ e.seq = le d 4 4)) →
       ∃ t e, exec (.updatePacket dt src tn d) s = .next t ∧ t.gx.upds = s.gx.upds ++ [e] ∧ e.row = le d 0 4 ∧ e.seq = le d 4 4 ∧
         e.node = src.val ∧ e.interval = s.packetInterval tn T src ∧ e.rule = le d 0x14 1 ∧ e.parts = le d 0x17 1 ∧ s.SameBytes t ∧
         s.Took dt t ∧ s.SameBut t [.cnt, .frac, .gx, .bl])) ∧
    (∀ (tn : Fin 64) (T : Fin 16),
      (let b := s.table tn T
       let due := fun (e : UpdEntry) => e.tenancy == tn.val && e.table == T.val && e.interval ≤ b.next
       s.cutTaken b = true →
       (s.fenced tn T b = true → ∃ t, exec (.intervalApply dt tn T) s = .next t ∧ (t.table tn T).next = b.next + 1 ∧
          t.gx.upds = s.gx.upds.filter (fun e => !due e) ∧ s.Took dt t ∧
          (∀ e g n, s.gx.upds.filter due = [e] → e.rule = 2 → e.values = some g → e.row < b.rows → b.owner e.row = s.node →
            newRow (b.cls e.row) (b.stride e.row) (s.rdBytes .dram (s.rowAddr tn b e.row) (b.stride e.row)) (bit e.flags 0)
              ((List.range b.dim).map (fun j => g.getD j 0)) s.draws = some n →
            t.rdBytes .dram (s.rowAddr tn b e.row) n.1.length = n.1)) ∧
       (s.fenced tn T b = false → exec (.intervalApply dt tn T) s = .next (s.elapse dt)) ∧
       (∀ l, Map.find s.gx.limits (tabKey tn T) = some l → s.fenced tn T b = false →
          ∃ t, exec (.fenceLimitExpiry tn T) s = .next t ∧ (t.table tn T).next = b.next + 1 ∧ l ≤ t.cnt ∧
            t.gx.upds = s.gx.upds.filter (fun e => !due e)))) ∧
    (s.pkg.sdUp = true → s.gx.interval ≤ s.tt.tick →
      ∃ t, exec .updateCut s = .next t ∧ t.gx.interval = s.tt.tick + 1 ∧ s.slotAt s.tt.tick (s.get GX_CUT) ≤ t.cnt ∧
        t.gx.prefetch = s.gx.prefetch.filter (fun r => s.tt.tick < r.view + 1) ∧ s.SameBytes t) ∧
    (∀ (src : Fin 32) (f : FenceMsg), (s.table f.tenancy f.table).state = tbENABLED → (s.table f.tenancy f.table).key = f.key →
      (s.table f.tenancy f.table).next ≤ f.interval →
      ∃ t, exec (.fence dt src f) s = .next t ∧
        Map.find (t.member f.tenancy f.table src).fences f.interval = some (f.reads, f.updates) ∧ s.SameBytes t ∧ s.Took dt t ∧
        s.SameBut t [.cnt, .frac, .gx, .bl]) ∧
    (∀ (src : Fin 32) (f : AppliedMsg), (s.table f.tenancy f.table).key = f.key →
      ∃ t, exec (.applied dt src f) s = .next t ∧ (t.member f.tenancy f.table src).applied = some (f.interval, f.rows) ∧
        (f.rows ≠ 0 → ∀ x ∈ t.gx.prefetch, ¬(x.tenancy = f.tenancy ∧ x.table = f.table ∧ x.shard = src)) ∧ s.SameBytes t ∧ s.Took dt t ∧
        s.SameBut t [.cnt, .frac, .gx, .bl])

/-! ## The solver (10_solver.md) -/

/-- SOL_LOAD, SOL_UNLOAD and SOL_PARAM on an idle page: a fetch begins for a free handle, a loaded handle that nothing names is forgotten, a
block is fetched for a loaded one (R427, R428, R430). A schedule that passes the checks is the handle's with its units, and a parameter block
that passes is due at its tick (R427, R430); a fetch in error is refused with FETCH, and one of a function that may send no request goes on
waiting (R153). SOL_STORE_QUOTA_WRITE is pending where the sum stays within 240 units (R457). -/
def Obligations.SolverCommandsLoadAndCheck : Prop :=
  ∀ (s : State) (dt : Nat) (p : Party) (t0 : Fin 64), s.Inv →
    (let h := s.get SOL_HANDLE_SEL t0
     let ia := s.get SOL_IMG_ADDR_LO t0 + two 32 * s.get SOL_IMG_ADDR_HI t0
     let pa := s.get SOL_PARAM_ADDR_LO t0 + two 32 * s.get SOL_PARAM_ADDR_HI t0
     s.MayWrite p .sol t0 → s.scBusy t0 = false →
     (ia % 64 = 0 → (s.solHandle t0 h).units = 0 →
       ∃ t, exec (.solLoad dt p t0) s = .next t ∧ Map.find t.sol.cmds t0 = some ⟨0, h, ia, s.get SOL_IMG_LEN t0, 0⟩ ∧
         t.get SOL_CMD_STAT_STATE t0 = 1 ∧ t.get SOL_STAT_CMD_BUSY t0 = 1 ∧ s.SameBytes t ∧ s.Took dt t ∧ s.SameBut t [.cnt, .frac, .regs, .sol]) ∧
     ((s.solHandle t0 h).units ≠ 0 →
       (s.solNamed t0 h = false →
         ∃ t, exec (.solUnload dt p t0) s = .next t ∧ t.sol.handles = Map.del (4 * t0 + h) s.sol.handles ∧ t.get SOL_CMD_STAT_CODE t0 = 0 ∧
           t.get SOL_INT_STAT_CMD_DONE t0 = 1 ∧ s.SameBytes t ∧ s.Took dt t ∧ s.SameBut t [.cnt, .frac, .regs, .sol, .stores, .msix]) ∧
       (s.solNamed t0 h = true →
         ∃ t, exec (.solUnload dt p t0) s = .next t ∧ t.get SOL_CMD_STAT_CODE t0 = scIN_USE ∧ s.SameBytes t ∧ s.Took dt t ∧
           s.SameBut t [.cnt, .frac, .regs, .stores, .msix]) ∧
       ((s.solHandle t0 h).due = none → pa % 64 = 0 →
         ∃ t, exec (.solParam dt p t0) s = .next t ∧
           Map.find t.sol.cmds t0 = some ⟨2, h, pa, 0, s.get2 SOL_PARAM_TICK_LO SOL_PARAM_TICK_HI t0⟩ ∧
           t.get SOL_CMD_STAT_STATE t0 = 1 ∧ t.get SOL_STAT_CMD_BUSY t0 = 1 ∧ s.SameBytes t ∧ s.Took dt t ∧
           s.SameBut t [.cnt, .frac, .regs, .sol]))) ∧
    (∀ q b, Map.find s.sol.cmds t0 = some q →
      (q.kind = 0 → q.handle < 4 → s.mayRequest t0 = true →
        (let code := s.loadCode t0 q (fit q.len b)
         let n := sdStore (fit q.len b) / 65536
         ∃ t, exec (.solLoadDone dt t0 (some b)) s = .next t ∧ t.get SOL_CMD_STAT_CODE t0 = code ∧ t.get SOL_STAT_CMD_BUSY t0 = 0 ∧
           (code = 0 → t.solHandle t0 q.handle = { img := fit q.len b, base := s.solPlace n, units := n }) ∧
           (code ≠ 0 → t.sol.handles = s.sol.handles ∧ t.mem = s.mem ∧ t.draws = s.draws) ∧ s.SameBytes t ∧ s.Took dt t ∧
           s.SameBut t [.cnt, .frac, .regs, .sol, .stores, .msix, .mem, .draws])) ∧
      (let x := s.solHandle t0 q.handle
       let due := if q.tick = 0 then (s.elapse dt).nextTick else q.tick
       let v := words64 b 32 (sdParams x.img)
       q.kind = 2 → q.handle < 4 → s.mayRequest t0 = true → x.units ≠ 0 → paramBad x.img b = false → (q.tick = 0 ∨ (s.elapse dt).cnt < s.tickAt q.tick) →
        ∃ t, exec (.solParamChecked dt t0 (some b)) s = .next t ∧
          t.solHandle t0 q.handle = (if x.cur = some 0 then { x with bank1 := v, due := some due } else { x with bank0 := v, due := some due }) ∧
          t.get SOL_CMD_STAT_STATE t0 = 3 ∧ t.get SOL_CMD_STAT_CODE t0 = 0 ∧ s.SameBytes t ∧ s.Took dt t ∧
          s.SameBut t [.cnt, .frac, .regs, .sol, .stores, .msix])) ∧
    (∀ q, Map.find s.sol.cmds t0 = some q →
      (let Failed := fun (out : Out) =>
         ∃ t, out = .next t ∧ t.get SOL_CMD_STAT_CODE t0 = scFETCH ∧ t.get SOL_STAT_CMD_BUSY t0 = 0 ∧ t.sol.handles = s.sol.handles ∧
           s.SameBytes t ∧ s.Took dt t ∧ s.SameBut t [.cnt, .frac, .regs, .sol, .stores, .msix]
       (s.mayRequest t0 = true → (q.kind = 0 → Failed (exec (.solLoadDone dt t0 none) s)) ∧
         (q.kind = 2 → Failed (exec (.solParamChecked dt t0 none) s))) ∧
       (s.mayRequest t0 = false → ∀ b, exec (.solLoadDone dt t0 b) s = .next (s.elapse dt) ∧
         exec (.solParamChecked dt t0 b) s = .next (s.elapse dt)))) ∧
    (∀ value, s.pkg.sdUp = true →
      (let sum := (((List.range 64).filter (fun u => u ≠ t0.val)).map (fun u => s.shown SOL_STORE_QUOTA u)).foldl (· + ·) 0 + value % 256
       (sum ≤ 240 → ∃ t, exec (.solStoreQuotaWrite dt (.fn 0) t0 value) s = .next t ∧
          t.pendOf SOL_STORE_QUOTA t0 = some ⟨SOL_STORE_QUOTA, t0, 0, value % two SOL_STORE_QUOTA.w, 0, (s.elapse dt).cnt⟩ ∧ s.SameBytes t ∧ s.Took dt t ∧
          s.SameBut t [.cnt, .frac, .pend]) ∧
       (240 < sum → ∃ t, exec (.solStoreQuotaWrite dt (.fn 0) t0 value) s = .next t ∧ t.get SOL_INT_STAT_CMD_REFUSED = 1 ∧
          s.SameRegsBut t [SOL_INT_STAT_CMD_REFUSED.key 0 0] ∧ s.SameBytes t ∧ s.Took dt t ∧ s.SameBut t [.cnt, .frac, .regs, .stores, .msix])))

/-- SOL_SUBMIT and SOLVE bring a request, the ninth of a tenancy marked to be refused; SOLVE_REQUEST_READ takes a good one's fields and refuses
the others, counted (R439, R440). SOLVE_START of a request that may start runs it on its data array, with the pivot bounds of SOL_PIVOT_EPS at the start: setup ends no sooner than
its cycles (R424, R436, R441).
SOLVE_DEADLINE_EXPIRY ends a request that has not started (R441). SOLVE_PHASE_END ends a converged solve in time as OPTIMAL, with its result
written, and goes on to the next iteration of R434 where nothing ends it, the iterate so far kept (R435, R436, R444, R455). The values of the steps are
FACTOR's, free functions of what the spec gives them (R424, R425). -/
def Obligations.SolveRequestsRunToTheirEnd : Prop :=
  ∀ (s : State) (dt : Nat) (p : Party) (t0 : Fin 64), s.Inv →
    (let a := s.get SOL_REQ_ADDR_LO t0 + two 32 * s.get SOL_REQ_ADDR_HI t0
     let q : SolReq := { id := s.sol.nextReq, tenancy := t0, addr := a, arrived := (s.elapse dt).cnt, full := decide (8 ≤ s.solHeld t0) }
     s.MayWrite p .sol t0 → a % 64 = 0 →
     ∃ t, exec (.solSubmit dt p t0) s = .next t ∧
       t.sol = { s.sol with nextReq := s.sol.nextReq + 1, reqs := s.sol.reqs ++ [q] } ∧
       s.SameBytes t ∧ s.Took dt t ∧ s.SameBut t [.cnt, .frac, .sol]) ∧
    (∀ (core : Fin 64) (i : Ins) (r : Run) (m : Image), (s.elapse dt).Executes core r m 0x25 i →
      (let d := s.rdBytes .sram (sramAt core i.a) 64
       let q : SolReq := { id := s.sol.nextReq, tenancy := r.rcd.tenancy, core := some core.val, run := r.id, addr := i.a,
                           arrived := (s.elapse dt).cnt, full := false }
       let x := q.fill d (s.elapse dt).cnt
       oneOperand i 1 = true → m.holds core i.a 64 = true → m.holds core x.resAddr x.resLen = true →
       m.holds core x.measAddr (8 * sdMeas (s.solHandle x.tenancy x.handle).img) = true → s.solHeld x.tenancy < 8 → 64 ≤ x.resLen →
       s.reqBad x d = false →
       ∃ t, exec (.solve dt core i) s = .next t ∧ x ∈ t.sol.reqs ∧ t.sol.nextReq = s.sol.nextReq + 1 ∧ s.SameBytes t ∧ s.Took dt t)) ∧
    (∀ q d, s.sol.reqs.find? (fun y => y.tenancy == t0.val && !y.read && y.core.isNone) = some q → q.dead = false →
      s.mayRequest t0 = true →
      (let x := q.fill (fit 64 d) (s.elapse dt).cnt
       (q.full = false → 64 ≤ x.resLen → s.reqBad x (fit 64 d) = false →
         ∃ t, exec (.solveRequestRead dt t0 (some d)) s = .next t ∧ t.sol.reqs = s.sol.reqs.map (fun z => if z.id = q.id then x else z) ∧
           s.SameBytes t ∧ s.Took dt t ∧ s.SameBut t [.cnt, .frac, .regs, .sol]) ∧
       (q.full = true ∨ x.resLen < 64 ∨ s.reqBad x (fit 64 d) = true →
         ∃ t, exec (.solveRequestRead dt t0 (some d)) s = .next t ∧ t.sol.reqs = s.sol.reqs.filter (fun z => z.id ≠ q.id) ∧
           t.get SOL_REFUSED t0 = (s.get SOL_REFUSED t0 + 1) % two 32 ∧ t.get SOL_INT_STAT_REQ_REFUSED t0 = 1 ∧ s.SameBytes t ∧
           s.Took dt t) ∧
       (∃ t, exec (.solveRequestRead dt t0 none) s = .next t ∧ t.sol.reqs = s.sol.reqs.filter (fun z => z.id ≠ q.id) ∧
         t.get SOL_REFUSED t0 = (s.get SOL_REFUSED t0 + 1) % two 32 ∧ t.get SOL_INT_STAT_REQ_REFUSED t0 = 1 ∧ s.SameBytes t ∧
         s.Took dt t ∧ s.SameBut t [.cnt, .frac, .regs, .sol, .stores, .msix]))) ∧
    (∀ q meas mv, (s.elapse dt).nextSolve = some q →
      (let h := s.solHandle q.tenancy q.handle
       let b := h.img
       (sdParams b = 0 ∨ h.cur ≠ none) →
       (bit q.flags 1 = false ∨ s.inWindow q.tenancy (s.stageArea q.tenancy) (roundUp (0x10 + 4 * (s.bindShape q).2.2) 32) = true) →
       s.measOf q (sdMeas b) meas = some mv → (∀ d ∈ s.mem.damage, h.holds d = true → d.kind < 2) →
       (∀ i, i < sdMeas b → inputBad b (sdParams b + i) (mv.getD i 0) = false) →
       ∃ t v, exec (.solveStart dt meas) s = .next t ∧ t.sol.run = some v ∧ v.req = q ∧ v.start = t.cnt ∧ v.phase = 0 ∧
         v.eps = s.get SOL_PIVOT_EPS_EPS_EXP q.tenancy ∧ v.shift = s.get SOL_PIVOT_EPS_SHIFT_EXP q.tenancy ∧
         v.data = (assemble b h.bank mv).1 ∧ v.warm = (bit q.flags 0 && h.last.isSome) ∧
         v.it = (runPhase b ⟨v.data, v.eps, v.shift, bit q.flags 2⟩ true v.warm (if v.warm then warmStart b (h.last.getD {}) else {})).it ∧ v.start + sdSetup b ≤ v.endAt ∧ t.sol.reqs = s.sol.reqs.filter (fun y => y.id ≠ q.id) ∧
         s.SameBytes t ∧ s.Took dt t)) ∧
    (∀ q n, s.sol.reqs.find? (fun y => y.tenancy == t0.val && y.id == n && y.read && !y.full) = some q →
      ∃ t, exec (.solveDeadlineExpiry t0 n) s = .next t ∧ t.sol.reqs = s.sol.reqs.filter (fun y => y.id ≠ q.id) ∧ q.deadline ≤ t.cnt ∧
        t.get SOL_DEADLINE_MISS t0 = (s.get SOL_DEADLINE_MISS t0 + 1) % two 32 ∧ t.get SOL_SOLVES t0 = (s.get SOL_SOLVES t0 + 1) % two 32 ∧
        t.get SOL_INT_STAT_SOLVE_DEADLINE t0 = 1) ∧
    (∀ v, s.sol.run = some v → v.req.dead = false → v.req.tenancy < 64 → v.req.handle < 4 →
      (let b := (s.solHandle v.req.tenancy v.req.handle).img
       (∀ d ∈ s.mem.damage, (s.solHandle v.req.tenancy v.req.handle).holds d = true → d.kind < 2) →
       (sdFixed b = false → v.it.bad = false) → (sdFixed b = true → v.phaseSat = 0) →
       (v.converged b = true → v.endAt < v.req.deadline →
         ∃ t, exec .solvePhaseEnd s = .next t ∧ t.sol.run = none ∧ v.endAt ≤ t.cnt ∧
           (t.solHandle v.req.tenancy v.req.handle).last = some v.it ∧
           t.get SOL_OPTIMAL v.req.tenancy = (s.get SOL_OPTIMAL v.req.tenancy + 1) % two 32 ∧
           t.get SOL_SOLVES v.req.tenancy = (s.get SOL_SOLVES v.req.tenancy + 1) % two 32 ∧
           ∀ c, v.req.core = some c → t.rdLe .sram (sramAt c v.req.resAddr) 4 = 0x4D495352 ∧
             t.rdLe .sram (sramAt c (v.req.resAddr + 4)) 1 = slOPTIMAL) ∧
       (v.converged b = false → v.endAt < v.req.deadline → (if v.phase ≠ 0 ∧ v.small = true then v.stalls + 1 else 0) < 3 →
         v.phase < sdIterMax b →
         ∃ t w, exec .solvePhaseEnd s = .next t ∧ t.sol.run = some w ∧ w.phase = v.phase + 1 ∧ w.req = v.req ∧ w.data = v.data ∧
           w.it = (iterate b ⟨v.data, v.eps, v.shift, bit v.req.flags 2⟩ v.it).it ∧ w.prev = v.it ∧ w.prevRes = (v.pres, v.dres, v.mu) ∧
           v.endAt + sdIter b ≤ w.endAt ∧ t.sol.reqs = s.sol.reqs ∧ s.SameBytes t)))

/-! ## Buarcon Link, the calender and mailboxes (11_buarcon_link.md) -/

/-- FLIT_RECEIVE on a port with trained lanes: a good flit in sequence moves the expected number on and clears the failures; a flit with a
bad CRC is counted and not accepted, and the eighth failure darkens the port; one out of sequence changes nothing (R461, R463). LOSS_OF_SIGNAL
darkens a port that is not DARK and discards what it held (R495). -/
def Obligations.FlitsAreCheckedAndSequenced : Prop :=
  ∀ (s : State) (dt : Nat) (port : Fin 8) (f : List Byte), s.Inv →
    (let g := fit 256 f
     let good := crc64 (g.take 0xF8) = le g 0xF8 8
     s.blState port ∈ [ptCHECK, ptIN_SERVICE, ptSIDING, ptRETURNING] → s.get BL_PORT_STAT_WIDTH port ≠ 0 →
     (good → le g 0 2 = (s.blPort port).expect →
       ∃ t, exec (.flitReceive dt port f) s = .next t ∧ (t.blPort port).expect = (le g 0 2 + 1) % 65536 ∧ (t.blPort port).fails = 0 ∧
         s.SameBytes t ∧ s.Took dt t) ∧
     (good → le g 0 2 ≠ (s.blPort port).expect → exec (.flitReceive dt port f) s = .next (s.elapse dt)) ∧
     (¬good → (s.blPort port).fails < 7 →
       ∃ t, exec (.flitReceive dt port f) s = .next t ∧ t.get BL_CRC_ERR port = (s.get BL_CRC_ERR port + 1) % two 32 ∧
         (t.blPort port).fails = (s.blPort port).fails + 1 ∧ (t.blPort port).expect = (s.blPort port).expect ∧
         s.SameRegsBut t [BL_CRC_ERR.key port 0] ∧ s.SameBytes t ∧ s.Took dt t ∧ s.SameBut t [.cnt, .frac, .regs, .bl]) ∧
     (¬good → 7 ≤ (s.blPort port).fails →
       ∃ t, exec (.flitReceive dt port f) s = .next t ∧ t.blState port = ptDARK ∧ t.get BLP_INT_STAT_DARK port = 1 ∧ s.SameBytes t ∧
         s.Took dt t)) ∧
    (s.blState port ≠ ptDARK →
      ∃ t, exec (.lossOfSignal dt port) s = .next t ∧ t.blState port = ptDARK ∧ t.get BL_PORT_STAT_WIDTH port = 0 ∧
        t.get BL_PORT_STAT_LANES_OK port = 0 ∧ (t.blPort port).outq = [] ∧ (t.blPort port).asm = [] ∧ (t.blPort port).unacked = [] ∧
        t.get BLP_INT_STAT_DARK port = 1 ∧ s.SameBytes t ∧ s.Took dt t) ∧
    (s.blState port = ptDARK → exec (.lossOfSignal dt port) s = .next (s.elapse dt))

/-- A port that may train and has allowed lanes is in CHECK, or RETURNING where it was, with its full credits (R469, R489); on a port that runs, lanes that train again are taken in from a flit 64 ahead (R490). A HELLO without a
cause makes it RETURNING and ready, one with a cause is reported (R472). SIDE_REQ, SIDE_ACK and DRAINED move a siding on to SIDED (R488); WIDTH
fixes the lanes from a flit 64 ahead and RATE the rate (R490, R499). -/
def Obligations.PortsTrainSideAndReturn : Prop :=
  ∀ (s : State) (dt : Nat) (port : Fin 8), s.Inv →
    (∀ lanes : Fin 16, (s.blState port = ptRETURNING ∨ ((s.blState port = ptDARK ∨ s.blState port = ptTRAINING) ∧ s.bl.noded = true)) →
      s.lanesAllowed port lanes ≠ 0 → s.flag MEMG_STAT_FATAL = false →
      ∃ t, exec (.portTrained dt port lanes) s = .next t ∧
        t.blState port = (if s.blState port = ptRETURNING then ptRETURNING else ptCHECK) ∧
        t.get BL_PORT_STAT_LANES_OK port = s.lanesAllowed port lanes ∧ t.get BL_PORT_STAT_WIDTH port = widthOf (s.lanesAllowed port lanes) ∧
        (∀ k, k < 8 → Map.find (t.blPort port).books k = some { held := creditsOf k }) ∧ (t.blPort port).outq = [] ∧ s.SameBytes t ∧
        s.Took dt t ∧ s.SameBut t [.cnt, .frac, .regs, .genAt, .bl]) ∧
    (∀ lanes : Fin 16, s.portRuns port = true →
      (let l := s.lanesAllowed port (s.get BL_PORT_STAT_LANES_OK port ||| lanes)
       l ≠ 0 → l ≠ s.get BL_PORT_STAT_LANES_OK port →
       ∃ t, exec (.portTrained dt port lanes) s = .next t ∧ (t.blPort port).widthAt = some (l, ((s.blPort port).expect + 64) % 65536) ∧
         s.SameBytes t ∧ s.Took dt t ∧ s.SameBut t [.cnt, .frac, .bl])) ∧
    (∀ h : HelloMsg, s.blState port = ptCHECK ∨ s.blState port = ptRETURNING → s.get BL_PORT_STAT_WIDTH port ≠ 0 →
      (s.blPort port).ready = false →
      (s.helloCause port h = 0 → ∃ t, exec (.hello dt port h) s = .next t ∧ t.blState port = ptRETURNING ∧ (t.blPort port).ready = true ∧
        t.get BL_PORT_STAT_PARTNER port = h.node ∧ t.get BL_PORT_STAT_CAUSE port = 0 ∧ s.SameBytes t ∧ s.Took dt t) ∧
      (s.helloCause port h ≠ 0 → ∃ t, exec (.hello dt port h) s = .next t ∧ t.blState port = ptCHECK ∧
        t.get BL_PORT_STAT_CAUSE port = s.helloCause port h ∧ t.get BLP_INT_STAT_CHECK_FAIL port = 1 ∧ s.SameBytes t ∧ s.Took dt t ∧
        s.SameBut t [.cnt, .frac, .regs, .genAt, .stores, .msix])) ∧
    (s.blState port = ptIN_SERVICE ∨ s.blState port = ptSIDING →
      ∃ t, exec (.sideReq dt port) s = .next t ∧ t.blState port = ptSIDING ∧ (t.blPort port).ackSent = true ∧ s.SameBytes t ∧ s.Took dt t ∧
        s.SameBut t [.cnt, .frac, .regs, .genAt, .bl]) ∧
    (s.blState port = ptSIDING →
      ((s.blPort port).reqSent = true → ∃ t, exec (.sideAck dt port) s = .next t ∧ (t.blPort port).ackSeen = true ∧ s.SameBytes t ∧
        s.Took dt t ∧ s.SameBut t [.cnt, .frac, .bl]) ∧
      (∃ t, exec (.drained dt port) s = .next t ∧ (t.blPort port).drainedSeen = true ∧ s.SameBytes t ∧ s.Took dt t ∧
        ((s.blPort port).drainedSent = true → (s.blPort port).back = false → t.blState port = ptSIDED ∧
          t.get BL_SIDINGS port = (s.get BL_SIDINGS port + 1) % two 32 ∧ t.get BLP_INT_STAT_SIDED port = 1))) ∧
    (s.portRuns port = true →
      (∀ lanes : Fin 16, lanes.val ≠ 0 → ∃ t, exec (.width dt port lanes) s = .next t ∧
        (t.blPort port).widthAt = some (lanes.val, ((s.blPort port).expect + 64) % 65536) ∧ s.SameBytes t ∧ s.Took dt t ∧
        s.SameBut t [.cnt, .frac, .bl]) ∧
      (∀ code : Fin 8, code.val ≤ 4 → ∃ t, exec (.rate dt port code) s = .next t ∧ t.get BL_PORT_STAT_RATE port = code ∧
        s.SameRegsBut t [BL_PORT_STAT_RATE.key port 0] ∧ s.SameBytes t ∧ s.Took dt t ∧ s.SameBut t [.cnt, .frac, .regs]))

/-- MAP_NOTICE not seen before is kept for its boundary, one seen before is not (R477). DRAIN records a generation's figures and
DRAIN_REPORT_TIMER sends this chip's while an older generation is live (R478). SEQ_GAP_EXPIRY passes over the missing packet and delivers the
next (R467). BL_NODE_WRITE and BL_CONSIST_ID_WRITE take effect while every port is DARK or SIDED, and are otherwise refused (R501, R671). -/
def Obligations.MapsDrainsAndTopology : Prop :=
  ∀ (s : State) (dt : Nat), s.Inv →
    (∀ (port : Fin 8) (n : MapNotice),
      ((n.origin.val, n.serial) ∉ s.bl.seen → ∃ t, exec (.mapNotice dt port n) s = .next t ∧
        t.bl.seen = (n.origin.val, n.serial) :: s.bl.seen ∧ t.bl.due = s.bl.due ++ [n] ∧
        (n.tick ≤ s.tt.tick → t.get BLG_INT_STAT_MAP_LATE = 1) ∧ s.SameBytes t ∧ s.Took dt t) ∧
      ((n.origin.val, n.serial) ∈ s.bl.seen → ∃ t, exec (.mapNotice dt port n) s = .next t ∧ t.bl.due = s.bl.due ∧ t.bl.seen = s.bl.seen ∧
        s.SameBytes t ∧ s.Took dt t ∧ s.SameBut t [.cnt, .frac, .bl])) ∧
    (∀ (port : Fin 8) (src : Fin 32) (g : DrainGen),
      ∃ t, exec (.drain dt port ⟨src, [g]⟩) s = .next t ∧ Map.find t.bl.reports (4 * src.val + g.gen.val) = some (g.inj, g.final, g.ej) ∧
        s.SameBytes t ∧ s.Took dt t) ∧
    ((s.bl.live ≠ [] → ∃ t, exec .drainReportTimer s = .next t ∧ t.bl.reportAt = t.cnt ∧ s.bl.reportAt + 10000 ≤ t.cnt ∧ s.SameBytes t) ∧
     (s.bl.live = [] → exec .drainReportTimer s = .next s)) ∧
    (∀ (src : Fin 32) (vc : Fin 4) (k : Packet), s.mem.damage = [] → s.bl.reorder = [k] → k.src = src → vcOf k.kind = some vc.val →
      k.seq = (Map.get s.bl.seqIn (4 * src.val + vc.val) 0 + 1) % 65536 →
      ∃ t, exec (.seqGapExpiry src vc) s = .next t ∧ t.bl.arrived = s.bl.arrived ++ [k] ∧ t.bl.reorder = [] ∧
        Map.get t.bl.seqIn (4 * src.val + vc.val) 0 = (k.seq + 1) % 65536 ∧ t.get BL_SEQ_GAP = (s.get BL_SEQ_GAP + 1) % two 32 ∧
        s.bl.mapAt + s.get BL_GAP_NS ≤ t.cnt ∧ s.SameBytes t) ∧
    (∀ (p : Party) (v : Nat), s.MayWrite p .blg 0 →
      (s.portsQuiet = true →
        (formOk (bits v 8 6) (bits v 16 3) = true →
          ∃ t, exec (.blNodeWrite dt p v) s = .next t ∧ t.node = v % 32 ∧ t.dx = bits v 8 6 ∧ t.dy = bits v 16 3 ∧ t.bl.noded = true ∧
            t.get BL_REACH = t.reachIn t.bl.map % two 32 ∧ s.SameBytes t ∧ s.Took dt t ∧
            s.SameBut t [.cnt, .frac, .regs, .bl, .stores, .msix]) ∧
        (∃ t, exec (.blConsistIdWrite dt p v) s = .next t ∧ t.get BL_CONSIST_ID = v % two 32 ∧ s.SameRegsBut t [BL_CONSIST_ID.key 0 0] ∧
          s.SameBytes t ∧ s.Took dt t ∧ s.SameBut t [.cnt, .frac, .regs])) ∧
      (s.portsQuiet = false →
        (let Refused := fun (out : Out) =>
           ∃ t, out = .next t ∧ t.get BLG_INT_STAT_CFG_REFUSED = 1 ∧ s.SameRegsBut t [BLG_INT_STAT_CFG_REFUSED.key 0 0] ∧ s.SameBytes t ∧
             s.Took dt t ∧ s.SameBut t [.cnt, .frac, .regs, .stores, .msix]
         (s.sameWord .blg 0 0x100 v = false → Refused (exec (.blNodeWrite dt p v) s)) ∧
         (s.sameWord .blg 0 0x104 v = false → Refused (exec (.blConsistIdWrite dt p v) s)))))

/-- SEND of a good descriptor to this chip copies the elements to the destination in its format and advances its mailbox (R480, R483); to an
unreachable chip it is counted; to another chip the flow's largest exponent follows (R484). TENSOR_DATA writes its elements, and the last packet
advances the mailbox; a WAIT goes on at its target and otherwise waits, until the mailbox or the limit ends it (R483). -/
def Obligations.TensorsMailboxesAndWaits : Prop :=
  ∀ (s : State) (dt : Nat) (core : Fin 64) (i : Ins) (r : Run) (m : Image), s.Inv →
    ((s.elapse dt).Executes core r m 0x23 i →
      (let h := s.rdBytes .sram (sramAt core i.a) 32
       let d := parseSend h
       let tn := r.rcd.tenancy
       let vs := s.sendElems core d
       let w := if d.outBf then 2 else 4
       oneOperand i 1 = true → m.holds core i.a 32 = true → sendOk h = true → m.holds core d.src (d.elems * (if d.inBf then 2 else 4)) = true →
       tn < 64 →
       (d.node = s.node → s.standby = false → s.scratchHolds tn d.core d.dst (d.elems * w) = true →
         ∃ t, exec (.send dt core i) s = .next t ∧
           s.Stored t .sram (sramAt d.core d.dst) (if d.outBf then vs.flatMap (fun v => toLe 2 (fp32.convert bf16 v)) else vs.flatMap (fun v => toLe 4 v)) ∧
           t.mailbox tn d.core d.mbox = (s.mailbox tn d.core d.mbox + 1) % two 32 ∧ s.Took dt t) ∧
       (d.node ≠ s.node → s.reachable d.node = false →
         ∃ t, exec (.send dt core i) s = .next t ∧ t.get CAL_TX_UNREACH tn = (s.get CAL_TX_UNREACH tn + 1) % two 32 ∧
           t.get CAL_INT_STAT_TX_UNREACH tn = 1 ∧ s.SameBytes t ∧ s.Took dt t) ∧
       (d.node ≠ s.node → s.reachable d.node = true →
         ∃ t, exec (.send dt core i) s = .next t ∧ s.SameBytes t ∧ s.Took dt t ∧
           (t.flow tn d.flow).now = max (s.flow tn d.flow).now (((chunksOf 32 (d.elems / 32 + 1) vs).map (fun g =>
             (codeGroup (s.flow tn d.flow).e (s.flow tn d.flow).steps g).top)).foldl max 0)))) ∧
    (s.Executes core r m 0x24 i → waitOk i = true →
      (reached (s.mailbox r.rcd.tenancy core i.a) i.b = true →
        ∃ t x, exec (.waitMbx core i) s = .next t ∧ s.Passed t core 0 r x ∧ x.waits = r.waits ∧ s.SameBytes t ∧
          s.SameBut t [.regs, .msix, .stores, .mem, .runs, .pwr]) ∧
      (reached (s.mailbox r.rcd.tenancy core i.a) i.b = false →
        ∃ t x, exec (.waitMbx core i) s = .next t ∧ s.Passed t core 0 r x ∧
          Map.find x.waits core = some { mailbox := i.a, target := i.b, limit := i.c, since := s.cnt } ∧ s.SameBytes t ∧
          s.SameBut t [.regs, .msix, .stores, .mem, .runs, .pwr])) ∧
    (∀ k : Packet,
      (let b := k.payload
       let c := byteAt b 3 % 64
       let w := if byteAt b 1 = 1 then 2 else 4
       let vs := (List.range (k.arg % 8192)).map (tensorElem b)
       s.standby = false → s.scratchHolds k.tenancy c (le b 4 4) (k.arg % 8192 * w) = true →
       ∃ t, exec (.tensorData dt k) s = .next t ∧
         s.Stored t .sram (sramAt c (le b 4 4))
           (if byteAt b 1 = 1 then vs.flatMap (fun v => toLe 2 (fp32.convert bf16 v)) else vs.flatMap (fun v => toLe 4 v)) ∧
         t.mailbox k.tenancy c (byteAt b 2 % 64) =
           (if bit k.arg 31 then (s.mailbox k.tenancy c (byteAt b 2 % 64) + 1) % two 32 else s.mailbox k.tenancy c (byteAt b 2 % 64)) ∧
         s.Took dt t)) ∧
    (∀ w, s.runs.find? (fun y => (Map.find y.waits core).isSome) = some r → s.runBy r.id = some r → Map.find r.waits core = some w →
      r.rcd.tenancy < 64 →
      ∃ t x, exec (.waitLimitExpiry core) s = .next t ∧ t.runBy r.id = some x ∧ x.waits = Map.del core r.waits ∧
        w.since + coreNs w.limit ≤ t.cnt ∧ t.get CAL_WAIT_EXPIRED r.rcd.tenancy = (s.get CAL_WAIT_EXPIRED r.rcd.tenancy + 1) % two 32 ∧
        t.get CAL_INT_STAT_WAIT_EXPIRED r.rcd.tenancy = 1 ∧ s.SameBytes t ∧
        s.SameBut t [.cnt, .frac, .regs, .stores, .msix, .runs, .pwr])

/-- A state transfer: XFER_START of aligned values to a reachable chip fetches, XFER_SEND_COMPLETE of a function that may send requests (R153) sends and then awaits the
acknowledgement, XFER_ACK ends it counted good or failed, XFER_ACK_TIMEOUT ends it DARK (R485, R486). XFER_DATA with room in the window are queued for host memory
in pieces of the function's payload size (R126), and the last piece that is refused is answered with its code (R485, R486). -/
def Obligations.StateTransfersComplete : Prop :=
  ∀ (s : State) (dt : Nat) (p : Party) (t0 : Fin 64), s.Inv →
    (let a := s.get BL_XFER_SRC_LO t0 + two 32 * s.get BL_XFER_SRC_HI t0
     let n := s.get BL_XFER_LEN t0
     let o := s.get BL_XFER_OFF t0
     s.MayWrite p .blt t0 →
     (Map.find s.bl.xfers t0 = none → a % 64 = 0 → o % 64 = 0 → n % 64 = 0 → n ≤ 16777216 → s.reachable (s.get BL_XFER_NODE t0) = true →
       ∃ t, exec (.xferStart dt p t0) s = .next t ∧ Map.find t.bl.xfers t0 = some { src := a, node := s.get BL_XFER_NODE t0, off := o, len := n } ∧
         t.get BL_XFER_STAT_STATE t0 = 1 ∧ s.SameRegsBut t [BL_XFER_STAT_STATE.key t0 0] ∧ s.SameBytes t ∧ s.Took dt t ∧
         s.SameBut t [.cnt, .frac, .regs, .bl]) ∧
     (Map.find s.bl.xfers t0 ≠ none →
       ∃ t, exec (.xferStart dt p t0) s = .next t ∧ t.get BL_XFER_STAT_CODE t0 = xfBUSY ∧ t.bl = s.bl ∧
         t.get BL_XFER_FAILS t0 = (s.get BL_XFER_FAILS t0 + 1) % two 32 ∧ s.SameBytes t ∧ s.Took dt t)) ∧
    (∀ x, Map.find s.bl.xfers t0 = some x →
      (x.state = 1 → s.mayRequest t0 = false → ∀ d, exec (.xferSendComplete dt t0 d) s = .next (s.elapse dt)) ∧
      (x.state = 1 → s.mayRequest t0 = true →
        (∀ d, ∃ t, exec (.xferSendComplete dt t0 (some d)) s = .next t ∧
          Map.find t.bl.xfers t0 = some { x with state := 2, since := t.cnt } ∧ t.get BL_XFER_STAT_STATE t0 = 2 ∧ s.SameBytes t ∧ s.Took dt t) ∧
        (∃ t, exec (.xferSendComplete dt t0 none) s = .next t ∧ t.get BL_XFER_STAT_CODE t0 = xfFETCH ∧ t.get BL_XFER_STAT_STATE t0 = 0 ∧
          t.get BL_XFER_FAILS t0 = (s.get BL_XFER_FAILS t0 + 1) % two 32 ∧ s.SameBytes t ∧ s.Took dt t ∧
          s.SameBut t [.cnt, .frac, .regs, .bl, .stores, .msix])) ∧
      (∀ (src : Fin 32) (code : Nat), x.node = src.val →
        (code = 0 → ∃ t, exec (.xferAck dt src t0 0) s = .next t ∧ t.bl.xfers = Map.del t0 s.bl.xfers ∧ t.get BL_XFER_STAT_CODE t0 = 0 ∧
          t.get BL_XFERS t0 = (s.get BL_XFERS t0 + 1) % two 32 ∧ t.get BLT_INT_STAT_XFER_DONE t0 = 1 ∧ s.SameBytes t ∧ s.Took dt t ∧
          s.SameBut t [.cnt, .frac, .regs, .bl, .stores, .msix]) ∧
        (code ≠ 0 → ∃ t, exec (.xferAck dt src t0 code) s = .next t ∧ t.bl.xfers = Map.del t0 s.bl.xfers ∧
          t.get BL_XFER_STAT_CODE t0 = code % 256 ∧ t.get BL_XFER_FAILS t0 = (s.get BL_XFER_FAILS t0 + 1) % two 32 ∧ s.SameBytes t ∧
          s.Took dt t ∧ s.SameBut t [.cnt, .frac, .regs, .bl, .stores, .msix])) ∧
      (x.state = 2 → ∃ t, exec (.xferAckTimeout t0) s = .next t ∧ t.bl.xfers = Map.del t0 s.bl.xfers ∧ t.get BL_XFER_STAT_CODE t0 = xfDARK ∧
        x.since + 1000000000 ≤ t.cnt ∧ t.get BL_XFER_FAILS t0 = (s.get BL_XFER_FAILS t0 + 1) % two 32 ∧ s.SameBytes t ∧
        s.SameBut t [.cnt, .frac, .regs, .bl, .stores, .msix])) ∧
    (∀ (k : Packet) (err : Bool),
      (let tn := k.tenancy.val
       let off := k.arg - b2n (bit k.arg 0)
       let code := if Map.get s.bl.rx (64 * k.src.val + tn) 0 ≠ 0 then Map.get s.bl.rx (64 * k.src.val + tn) 0
         else s.xferCode tn off k.payload.length err
       let w := payloadBytes (s.fnState tn).cfg
       let ps := pieces w (k.payload.length / w + 1) (s.get BL_RXWIN_LO tn + two 32 * s.get BL_RXWIN_HI tn + off) k.payload
       (code = 0 → k.payload ≠ [] → (s.fnState tn).flr = false →
         ∃ t, exec (.xferData dt k err) s = .next t ∧
           t.stores = s.stores ++ (List.range ps.length).map (fun j =>
             { fn := tn, kind := .transfer, addr := (ps.getD j (0, [])).1, data := (ps.getD j (0, [])).2, ro := (s.fnState tn).cfg.ro,
               note := if j + 1 = ps.length ∧ bit k.arg 0 = true then .transfer k.src tn else .none }) ∧
           s.SameBytes t ∧ s.Took dt t ∧ s.SameBut t [.cnt, .frac, .bl, .stores]) ∧
       (code ≠ 0 → bit k.arg 0 = false → ∃ t, exec (.xferData dt k err) s = .next t ∧ Map.get t.bl.rx (64 * k.src.val + tn) 0 = code ∧
         s.SameBytes t ∧ s.Took dt t ∧ s.SameBut t [.cnt, .frac, .bl]) ∧
       (code ≠ 0 → bit k.arg 0 = true → ∃ t, exec (.xferData dt k err) s = .next t ∧
         t.bl.rx = Map.del (64 * k.src.val + tn) s.bl.rx ∧ t.stores = s.stores ∧ s.SameBytes t ∧ s.Took dt t)))

/-! ## Power, the governor, memory integrity and the ledger (12 to 14) -/

/-- MODE_REQUEST by a party that may ask for another mode leaves it pending with its tick and its source; one for the mode in force cancels
what was pending, with no other mark; a host's request for OFF, one under HOST_LOCK, and a code above 4 are refused and counted (R504, R511).
STANDBY_READY comes once every run has ended, every image is written and every store has been issued (R124, R509). -/
def Obligations.PowerModesAreRequested : Prop :=
  ∀ (s : State) (dt : Nat) (p : Party) (value : Nat), s.Inv →
    (let v := value % 8
     let may := v ≤ 4 ∧ (p = .sb ∨ (v ≠ pmOFF ∧ s.flag PWRG_CTL_HOST_LOCK = false))
     s.MayWrite p .pwrg 0 →
     (may → v ≠ s.get PWRG_STAT_MODE →
       ∃ t, exec (.modeRequest dt p value) s = .next t ∧
         t.pwr.req = some { mode := v, at_ := s.get2 PWR_MODE_AT_LO PWR_MODE_AT_HI, sb := decide (p = .sb), seen := t.cnt } ∧
         t.get PWRG_STAT_PENDING = 1 ∧ t.get PWRG_STAT_PENDING_MODE = v ∧ t.get PWRG_STAT_REQ_SOURCE = b2n (decide (p = .sb)) ∧
         (s.pwr.req ≠ none → t.get PWRG_INT_STAT_MODE_OVERRIDDEN = 1) ∧ t.get PWRG_STAT_MODE = s.get PWRG_STAT_MODE ∧ s.SameBytes t ∧
         s.Took dt t ∧ s.SameBut t [.cnt, .frac, .regs, .genAt, .pwr, .stores, .msix]) ∧
     (may → v = s.get PWRG_STAT_MODE →
       ∃ t, exec (.modeRequest dt p value) s = .next t ∧ t.pwr.req = none ∧ t.pwr.widen = none ∧ t.get PWRG_STAT_PENDING = 0 ∧
         t.get PWRG_INT_STAT_MODE_OVERRIDDEN = s.get PWRG_INT_STAT_MODE_OVERRIDDEN ∧ s.SameBytes t ∧ s.Took dt t ∧
         s.SameBut t [.cnt, .frac, .regs, .genAt, .pwr, .stores, .msix]) ∧
     (¬may → ∃ t, exec (.modeRequest dt p value) s = .next t ∧ t.get PWR_MODE_REFUSED = (s.get PWR_MODE_REFUSED + 1) % two 32 ∧
         t.get PWRG_INT_STAT_MODE_REFUSED = 1 ∧ s.SameRegsBut t [PWR_MODE_REFUSED.key 0 0, PWRG_INT_STAT_MODE_REFUSED.key 0 0] ∧
         s.SameBytes t ∧ s.Took dt t ∧ s.SameBut t [.cnt, .frac, .regs, .stores, .msix])) ∧
    (s.standby = true → s.flag PWRG_STAT_ENTERING = true →
      (s.runs = [] → s.stores = [] → (∀ e ∈ s.slots, e.2.exp = none) → ∃ t, exec (.standbyReady dt) s = .next t ∧ t.get PWRG_STAT_ENTERING = 0 ∧
        t.get PWRG_INT_STAT_STANDBY_READY = 1 ∧ (s.pwr.off = true → t.pkg.offReq = true) ∧ s.SameBytes t ∧ s.Took dt t ∧
        s.SameBut t [.cnt, .frac, .regs, .genAt, .pwr, .pkg, .stores, .msix]) ∧
      (s.runs ≠ [] ∨ s.stores ≠ [] ∨ (∃ e ∈ s.slots, e.2.exp ≠ none) → exec (.standbyReady dt) s = .next (s.elapse dt)))

/-- GOVERNOR_SOLVE_END, once a tick: a floor that breaks the cap or a temperature limit gives every main-lane core no cycles; an optimal solve
gives the plan's first tick and a failed one the fallback of R520, each counted (R513, R517, R518, R520). A core that has used its allowance and,
at the limiter, every main-lane core, stops with its run suspended (R519, R521). VOLTAGE_STEP_RETURN ends LOW (R519). -/
def Obligations.GovernorAllowancesAndTheLimiter : Prop :=
  ∀ (s : State) (dt : Nat), s.Inv →
    (s.governs = true → s.pwr.solved = false →
      (s.floorCap = true ∨ s.floorHot = true →
        ∃ t, exec (.governorSolveEnd dt) s = .next t ∧ t.pwr.next = List.replicate 60 (some 0) ∧ t.pwr.solved = true ∧
          t.get PWRG_STAT_CAP_UNREACHABLE = b2n s.floorCap ∧ t.get PWRG_STAT_THERMAL = b2n s.floorHot ∧ s.SameBytes t ∧ s.Took dt t ∧
          s.SameBut t [.cnt, .frac, .regs, .pwr, .stores, .msix]) ∧
      (s.floorCap = false → s.floorHot = false →
        (let ds := s.demands s.tt.tick
         let plan := withY ds (s.solvePlan ds s.draws)
         ∃ t, exec (.governorSolveEnd dt) s = .next t ∧ t.pwr.solved = true ∧
           (Config.governorOptimal s.draws = true → t.pwr.plan = some (s.tt.tick, plan) ∧ t.pwr.next = plan.headD [] ∧
             t.get PWR_GOV_SOLVES = (s.get PWR_GOV_SOLVES + 1) % two 32) ∧
           (Config.governorOptimal s.draws = false → t.pwr.plan = s.pwr.plan ∧ t.pwr.next = s.fallbackFor (s.tt.tick + 1) ∧
             t.get PWR_GOV_FALLBACK = (s.get PWR_GOV_FALLBACK + 1) % two 32 ∧ t.get PWRG_INT_STAT_FALLBACK = 1) ∧
           s.SameBytes t ∧ s.Took dt t ∧ s.SameBut t [.cnt, .frac, .regs, .pwr, .stores, .msix, .draws]))) ∧
    (s.governs = true → s.pwr.solved = true → exec (.governorSolveEnd dt) s = .next (s.elapse dt)) ∧
    (∀ core : Fin 64, 4 ≤ core.val → s.standby = false → bit s.pwr.stopped core = false →
      s.cyclesOf (s.pwr.allow.getD (core.val - 4) none) ≤ Map.get s.pwr.used core 0 →
      ∃ t, exec (.allowanceExhausted dt core) s = .next t ∧ t.pwr.stopped = s.pwr.stopped ||| two core.val ∧ s.Took dt t ∧
        ∀ r, s.holderOf core = some r → r.stops = none → s.runBy r.id = some r → ∃ x, t.runBy r.id = some x ∧ x.suspended = true) ∧
    (s.pkg.sdUp = true → s.standby = false → (∀ r ∈ s.runs, r.rcd.tenancy < 64) →
      ∃ t, exec (.limiter dt) s = .next t ∧ t.pwr.stopped = two 64 - 16 ∧ t.pwr.cut = true ∧
        t.get PWR_LIMITER = (s.get PWR_LIMITER + 1) % two 32 ∧ t.get PWRG_INT_STAT_LIMITER = 1 ∧ s.Took dt t ∧
        ∀ r ∈ s.runs, r.rcd.lane = 0 → r.stops = none → (∀ x ∈ s.runs, x.id = r.id → x = r) → r.cores.head?.any (fun c => (s.holderOf c).any (fun x => x.id == r.id)) = true →
          ∃ x, t.runBy r.id = some x ∧ x.suspended = true) ∧
    (∀ core : Fin 64, bit s.pwr.low core = true → bit s.pwr.lowNext core = true →
      ∃ t, exec (.voltageStepReturn core) s = .next t ∧ t.pwr = { s.pwr with low := s.pwr.low - two core.val, lowNext := s.pwr.lowNext - two core.val } ∧
        s.tickAt (s.tt.tick + 1) - 100000 ≤ t.cnt ∧ s.SameBytes t ∧ s.SameBut t [.cnt, .frac, .pwr])

/-- CE_WRITEBACK removes a correctable word that waits for it and nothing else (R540). PATROL_READ of a word not known to be damaged leaves the
list of damaged words where its check bits are good, marks and counts an uncorrectable one, and enters FATAL where that one is control state
(R553, R557, R571); a read that link ECC corrects is counted, and one that fails twice on the link finds an uncorrectable block (R539). The log's
read index never passes its write index (R559); a read of the view returns and latches the record it selects; an
injection is armed (R572). -/
def Obligations.MemoryErrorsAreFoundAndLogged : Prop :=
  ∀ (s : State) (dt : Nat), s.Inv →
    (∀ (store : Fin 16) (unit : Fin 64) (addr : Nat),
      (let w := wordAt store unit addr
       (s.mem.back.contains (w.store, w.unit, w.addr) = true →
         ∃ t, exec (.ceWriteback dt store unit addr) s = .next t ∧
           t.mem.damage = s.mem.damage.filter (fun d => !(d.kind == 1 && d.same w)) ∧ s.SameBytes t ∧ s.Took dt t ∧
           s.SameBut t [.cnt, .frac, .mem]) ∧
       (s.mem.back.contains (w.store, w.unit, w.addr) = false → exec (.ceWriteback dt store unit addr) s = .next (s.elapse dt)))) ∧
    (∀ r : PatrolWord, s.pkg.sdUp = true → s.flag MEMG_CTL_PATROL_EN = true → patrolPlace r = true →
      (∀ d ∈ s.mem.damage, d.same (wordAt r.store r.unit r.addr) = false) →
      (r.check.val = 0 → r.link = .good → ∃ t, exec (.patrolRead dt r) s = .next t ∧ t.mem.damage = s.mem.damage ∧ s.SameBytes t ∧ s.Took dt t ∧
        s.SameBut t [.cnt, .frac, .regs, .mem]) ∧
      (r.check.val = 0 → r.link = .corrected → r.store.val = 10 → ∃ t, exec (.patrolRead dt r) s = .next t ∧ t.mem.damage = s.mem.damage ∧
        t.get MEM_LINK_CE = min (s.get MEM_LINK_CE + 1) (two 32 - 1) % two 32 ∧ s.SameBytes t ∧ s.Took dt t ∧ s.SameBut t [.cnt, .frac, .regs, .mem]) ∧
      (r.link = .failed → r.store.val = 10 → ∃ t, exec (.patrolRead dt r) s = .next t ∧
        t.mem.damage = s.mem.damage ++ [{ wordAt r.store r.unit r.addr with kind := 3 }] ∧
        t.get MEM_UE = min (s.get MEM_UE + 1) (two 32 - 1) % two 32 ∧ t.get MEMG_INT_STAT_PATROL_UE = 1 ∧ s.SameBytes t ∧ s.Took dt t ∧
        s.SameBut t [.cnt, .frac, .regs, .mem, .stores, .msix, .sb]) ∧
      (r.check.val = 2 → r.link = .good → r.store.val ≠ 9 → ∃ t, exec (.patrolRead dt r) s = .next t ∧
        t.mem.damage = s.mem.damage ++ [{ wordAt r.store r.unit r.addr with kind := 3, bit := r.bit }] ∧
        t.get MEM_UE = min (s.get MEM_UE + 1) (two 32 - 1) % two 32 ∧ t.get MEMG_INT_STAT_PATROL_UE = 1 ∧ s.SameBytes t ∧ s.Took dt t ∧
        s.SameBut t [.cnt, .frac, .regs, .mem, .stores, .msix, .sb]) ∧
      (r.check.val = 2 → r.store.val = 9 → ∃ t, exec (.patrolRead dt r) s = .next t ∧ t.flag MEMG_STAT_FATAL = true ∧ s.SameBytes t ∧
        s.Took dt t)) ∧
    (∀ (p : Party) (value : Nat), s.MayWrite p .memg 0 →
      (idxSub value (s.get MEM_LOG_RD) ≤ idxSub (s.get MEM_LOG_WR) (s.get MEM_LOG_RD) →
        ∃ t, exec (.memLogRdWrite dt p value) s = .next t ∧ t.get MEM_LOG_RD = value % two 32 ∧ s.SameRegsBut t [MEM_LOG_RD.key 0 0] ∧
          s.SameBytes t ∧ s.Took dt t ∧ s.SameBut t [.cnt, .frac, .regs]) ∧
      (idxSub (s.get MEM_LOG_WR) (s.get MEM_LOG_RD) < idxSub value (s.get MEM_LOG_RD) →
        exec (.memLogRdWrite dt p value) s = .next (s.elapse dt)) ∧
      (∃ t, exec (.memInjectArm dt p) s = .next t ∧ t.get MEM_INJECT_ARM = 1 ∧ s.SameRegsBut t [MEM_INJECT_ARM.key 0 0] ∧ s.SameBytes t ∧
        s.Took dt t ∧ s.SameBut t [.cnt, .frac, .regs])) ∧
    (∀ p : Party, s.MayRead p .memg 0 →
      (let b := Map.get s.mem.log (s.get MEM_LOG_SEL) []
       ∃ t, exec (.memLogViewRead dt p) s = .next t ∧ t.readData = le b 0 4 ∧
         (∀ j, j < 7 → t.latched p MEM_LOG_VIEW_REST 0 j = le b (4 * j + 4) 4) ∧ s.SameBytes t ∧ s.Took dt t ∧
         s.SameBut t [.cnt, .frac, .latches, .readData]))

/-- LEDGER_AUDIT_DONE of an audit in balance sets LAST_OK; one part of a tenancy out of balance is recorded and counted, and stops that tenancy
alone (R580 to R582, R589). LED_LAST_BOOK_READ latches one failure (R597). -/
def Obligations.AuditsStopTheTenancyThatFails : Prop :=
  ∀ (s : State) (dt : Nat), s.Inv →
    (∀ m, s.led.audit = some (m, []) → ∃ t, exec (.ledgerAuditDone dt) s = .next t ∧ t.led = { s.led with audit := none } ∧
      t.get LEDG_STAT_LAST_OK = 1 ∧ s.SameRegsBut t [LEDG_STAT_LAST_OK.key 0 0] ∧ s.SameBytes t ∧ s.Took dt t ∧
      s.SameBut t [.cnt, .frac, .regs, .led]) ∧
    (∀ m x, s.led.audit = some (m, [x]) → x.tenancy < 64 → x.book ≠ bkLINK → x.book < 16 → s.stoppedT x.tenancy = false →
      ∃ t, exec (.ledgerAuditDone dt) s = .next t ∧ t.led.audit = none ∧ t.get LEDG_STAT_LAST_OK = 0 ∧ t.stoppedT x.tenancy = true ∧
        (∀ u, u < 64 → u ≠ x.tenancy → t.stoppedT u = s.stoppedT u) ∧ t.get LED_LAST_BOOK_BOOK = x.book ∧
        t.get LED_LAST_BOOK_TENANCY = x.tenancy ∧ t.get LED_IMBALANCES = (s.get LED_IMBALANCES + 1) % two 32 ∧
        t.get LED_T_IMBALANCES x.tenancy = (s.get LED_T_IMBALANCES x.tenancy + 1) % two 32 ∧
        (∀ r ∈ t.runs, r.rcd.tenancy ≠ x.tenancy) ∧ x.tenancy ∈ t.led.faultDue ∧ s.SameBytes t ∧ s.Took dt t) ∧
    (s.led.audit = none → exec (.ledgerAuditDone dt) s = .next (s.elapse dt)) ∧
    (∀ p : Party, s.MayRead p .ledg 0 →
      ∃ t, exec (.ledLastBookRead dt p) s = .next t ∧
        t.readData = s.get LED_LAST_BOOK_BOOK + 256 * s.get LED_LAST_BOOK_INSTANCE + two 24 * s.get LED_LAST_BOOK_TENANCY ∧
        t.latched p LED_LAST_TICK_LO = s.get LED_LAST_TICK_LO % two 32 ∧ t.latched p LED_LAST_TICK_HI = s.get LED_LAST_TICK_HI % two 32 ∧
        t.latched p LED_LAST_EXPECT = s.get LED_LAST_EXPECT % two 32 ∧ t.latched p LED_LAST_FOUND = s.get LED_LAST_FOUND % two 32 ∧
        s.SameBytes t ∧ s.Took dt t ∧ s.SameBut t [.cnt, .frac, .latches, .readData])

/-! ## The debug gate (15_isolation_and_access.md) -/

/-- DBG_CHALLENGE forms a record with a fresh nonce, and is refused in lockout; DBG_RESPOND that passes waits for the boundary, one that fails is
counted and the eighth locks out; either consumes the nonce (R613 to R615). DBG_CLOSE closes every group at once and NONCE_EXPIRY ends a nonce
after 60 s (R614, R616). The window reads and stores its 64 bytes only where their groups are open, HALT and the trace likewise (R612, R617, R624).
ISO_RES_RESERVE_WRITE is pending while the reservations sum to at most 256 (R605). -/
def Obligations.TheDebugGateIsOpenedByKeyAlone : Prop :=
  ∀ (s : State) (dt : Nat) (p : Party), s.Inv →
    (s.MayWrite p .dbgg 0 →
      (s.flag DBGG_STAT_LOCKOUT = false →
        (let b := challengeRecord (s.get DBG_REQ_SCOPE % 256) Config.device s.pkg.boots (s.get DBG_REQ_KEY_SLOT) (Config.random s.draws)
         ∃ t, exec (.dbgChallenge dt p) s = .next t ∧ t.iso.nonce = some (t.cnt, b) ∧ t.get DBGG_STAT_NONCE = 1 ∧ t.draws = s.draws + 1 ∧
           (∀ j, j < 16 → t.get DBG_CHAL 0 j = le b (4 * j) 4) ∧ t.get DBGG_STAT_OPEN = s.get DBGG_STAT_OPEN ∧ s.SameBytes t ∧ s.Took dt t ∧
           s.SameBut t [.cnt, .frac, .regs, .iso, .draws])) ∧
      (s.flag DBGG_STAT_LOCKOUT = true → ∃ t, exec (.dbgChallenge dt p) s = .next t ∧ t.get DBGG_STAT_CODE = 6 ∧
        t.get DBGG_INT_STAT_REFUSED = 1 ∧ t.iso = s.iso ∧ s.SameBytes t ∧ s.Took dt t ∧ s.SameBut t [.cnt, .frac, .regs, .stores, .msix]) ∧
      (∃ t, exec (.dbgRespond dt p) s = .next t ∧ t.iso.nonce = none ∧ t.get DBGG_STAT_OPEN = s.get DBGG_STAT_OPEN ∧
        ((s.elapse dt).respondCode = 0 → ∃ n, s.iso.nonce = some n ∧ t.iso.opening = some (le n.2 6 2, byteAt n.2 0x10, n.2) ∧
          t.iso.fails = 0 ∧ t.get DBGG_STAT_PENDING = 1 ∧ t.get DBGG_STAT_NONCE = 0 ∧
          s.SameBut t [.cnt, .frac, .regs, .iso]) ∧
        ((s.elapse dt).respondCode ≠ 0 → t.get DBGG_STAT_CODE = (s.elapse dt).respondCode ∧
          t.iso.opening = s.iso.opening ∧ t.get DBG_FAILS = (s.get DBG_FAILS + 1) % two 32 ∧
          (8 ≤ t.iso.fails → t.get DBGG_STAT_LOCKOUT = 1)) ∧ s.SameBytes t ∧ s.Took dt t ∧
        s.SameBut t [.cnt, .frac, .regs, .iso, .stores, .msix]) ∧
      (s.get DBGG_STAT_OPEN ≠ 0 → ∃ t, exec (.dbgClose dt p) s = .next t ∧ t.get DBGG_STAT_OPEN = 0 ∧ t.get DBGG_INT_STAT_CLOSED = 1 ∧
        t.iso.opening = none ∧ s.SameBytes t ∧ s.Took dt t ∧ s.SameBut t [.cnt, .frac, .regs, .genAt, .iso, .sb, .stores, .msix])) ∧
    (∀ n, s.iso.nonce = some n → s.flag DBGG_STAT_NONCE = true → ∃ t, exec .nonceExpiry s = .next t ∧ t.get DBGG_STAT_NONCE = 0 ∧
      n.1 + nonceLife ≤ t.cnt ∧ s.SameBytes t ∧ s.SameBut t [.cnt, .frac, .regs]) ∧
    (s.MayWrite p .dbgw 0 →
      (∀ w, s.window = some w →
        (∃ t, exec (.dbgWinRead dt p) s = .next t ∧ (∀ j, j < 16 → t.get DBG_WIN_DATA 0 j = le (s.rdClean w.1 w.2 64) (4 * j) 4) ∧
          t.get DBG_WIN_STAT_POISON = b2n (s.poisoned w.1 w.2 64) ∧ t.get DBG_WIN_ACCESSES = (s.get DBG_WIN_ACCESSES + 1) % two 32 ∧
          s.SameBytes t ∧ s.Took dt t) ∧
        (s.groupOpen 4 = true → ∃ t, exec (.dbgWinWrite dt p) s = .next t ∧
          s.Stored t w.1 w.2 ((List.range 16).flatMap (fun j => toLe 4 (s.get DBG_WIN_DATA 0 j))) ∧ s.Took dt t) ∧
        (s.groupOpen 4 = false → exec (.dbgWinWrite dt p) s = .next (s.elapse dt))) ∧
      (s.window = none → exec (.dbgWinRead dt p) s = .next (s.elapse dt) ∧ exec (.dbgWinWrite dt p) s = .next (s.elapse dt)) ∧
      (∀ v, (s.groupOpen 5 = true → ∃ t, exec (.dbgHaltWrite dt p false v) s = .next t ∧ t.get DBG_HALT_LO = v % two 32 ∧ s.Took dt t) ∧
            (s.groupOpen 5 = true → ∃ t, exec (.dbgHaltWrite dt p true v) s = .next t ∧ t.get DBG_HALT_HI = v % two 32 ∧ s.Took dt t) ∧
            (s.groupOpen 5 = false → ∀ hi, exec (.dbgHaltWrite dt p hi v) s = .next (s.elapse dt)))) ∧
    (s.MayRead p .dbgw 0 →
      (let b := Map.get s.iso.trace (s.get DBG_TRACE_SEL) []
       ∃ t, exec (.dbgTraceViewRead dt p) s = .next t ∧ t.readData = (if s.groupOpen 0 = true then le b 0 4 else 0) ∧
         (s.groupOpen 0 = true → ∀ j, j < 3 → t.latched p DBG_TRACE_VIEW_REST 0 j = le b (4 * j + 4) 4) ∧ s.SameBytes t ∧ s.Took dt t ∧
         s.SameBut t [.cnt, .frac, .latches, .readData])) ∧
    (∀ (t0 : Fin 64) (value : Nat), s.pkg.sdUp = true →
      (let sum := (((List.range 64).filter (fun u => u ≠ t0.val)).map (fun u => s.shown ISO_RES_RESERVE u)).foldl (· + ·) 0 + value % 512
       (sum ≤ 256 → ∃ t, exec (.isoResReserveWrite dt (.fn 0) t0 value) s = .next t ∧
          t.pendOf ISO_RES_RESERVE t0 = some ⟨ISO_RES_RESERVE, t0, 0, value % two ISO_RES_RESERVE.w, 0, (s.elapse dt).cnt⟩ ∧ s.SameBytes t ∧ s.Took dt t ∧
          s.SameBut t [.cnt, .frac, .pend]) ∧
       (256 < sum → ∃ t, exec (.isoResReserveWrite dt (.fn 0) t0 value) s = .next t ∧ t.get ISOG_INT_STAT_RES_REFUSED = 1 ∧
          s.SameRegsBut t [ISOG_INT_STAT_RES_REFUSED.key 0 0] ∧ s.SameBytes t ∧ s.Took dt t ∧ s.SameBut t [.cnt, .frac, .regs, .stores, .msix])))

/-! ## The management plane (16_management_plane.md) -/

/-- A state-changing command is judged at receipt: one that passes waits for its epoch and is answered QUEUED, one that does not is answered
with its RESULT, counted and recorded, and neither changes anything else (R632, R637, R640). A body with a reserved bit set is BAD_ARG; in FATAL
all but SET_MODE to OFF is FATAL (R656); SIDE of a listen core without FLAGS.FAULT is LISTEN_CORE (R645); a 33rd command of one epoch is BUSY
(R633). -/
def Obligations.ManagementCommandsAreJudgedAtReceipt : Prop :=
  ∀ (s : State) (dt : Nat) (body key : List Byte), s.Inv →
    (let Judged := fun (out : Out) (op : Nat) (key : List Byte) =>
         let q := parseMgmt op body (if bit (le body 6 2) 0 = true then le body 0x10 8 else (s.elapse dt).carrier) key
         let code := (s.elapse dt).mgmtCheck q body
         (s.sbUp = false → out = .next (s.elapse dt)) ∧
         (s.sbUp = true → code = 0 →
           ∃ t, out = .next t ∧
             t.sb = { s.sb with queue := s.sb.queue ++ [q], sent := s.answer q mrQUEUED (s.unitGen q.kind q.unit) :: s.sb.sent } ∧
             s.SameBytes t ∧ s.Took dt t ∧ s.SameBut t [.cnt, .frac, .sb]) ∧
         (s.sbUp = true → code ≠ 0 →
           ∃ t, out = .next t ∧ t.sb = { s.sb with sent := s.answer q code (s.unitGen q.kind q.unit) :: s.sb.sent } ∧
             t.get SB_MGMT_REFUSED = (s.get SB_MGMT_REFUSED + 1) % two 32 ∧ t.get SB_INT_STAT_MGMT_REFUSED = 1 ∧
             t.get SB_LAST_CMD_OPCODE = op ∧ t.get SB_LAST_CMD_RESULT = code ∧
             s.SameRegsBut t [SB_MGMT_REFUSED.key 0 0, SB_INT_STAT_MGMT_REFUSED.key 0 0, SB_LAST_CMD_OPCODE.key 0 0, SB_LAST_CMD_RESULT.key 0 0,
               SB_LAST_CMD_KIND.key 0 0, SB_LAST_UNIT.key 0 0, SB_LAST_GEN_SENT.key 0 0, SB_LAST_GEN_FOUND.key 0 0] ∧
             s.SameBytes t ∧ s.Took dt t ∧ s.SameBut t [.cnt, .frac, .regs, .sb, .stores, .msix]) ∧
         (bodyOk body = false → code = mrBAD_ARG) ∧
         (bodyOk body = true → s.flag MEMG_STAT_FATAL = true → ¬(op = mgSET_MODE ∧ q.arg = pmOFF) → code = mrFATAL) ∧
         (code = 0 → kindOk op q.kind = true ∧ q.unit < unitCount op q.kind ∧
           (op = mgSIDE → q.kind = 1 → q.unit < 4 → bit q.flags 1 = true) ∧
           (s.sb.queue.filter (fun d => d.epoch == q.epoch)).length < 32)
     Judged (exec (.side dt body) s) mgSIDE [] ∧ Judged (exec (.returnUnit dt body) s) mgRETURN [] ∧
     Judged (exec (.teardown dt body) s) mgTEARDOWN [] ∧ Judged (exec (.setCap dt body) s) mgSET_CAP [] ∧
     Judged (exec (.setMode dt body) s) mgSET_MODE [] ∧ Judged (exec (.setLock dt body) s) mgSET_LOCK [] ∧
     Judged (exec (.setPowerParam dt body) s) mgSET_POWER_PARAM [] ∧ Judged (exec (.keyRevoke dt body) s) mgKEY_REVOKE [] ∧
     Judged (exec (.keyProgram dt body key) s) mgKEY_PROGRAM key)

/-- At A_e, the start of tick index 1, a queued command whose GEN is the unit's generation has its effect, and one whose GEN is not changes
nothing but the counts and the record (R632, R636, R639, R640, R643, R644, R646). A KEY_PROGRAM that finds its slot no
longer EMPTY ends BAD_ARG (R639, R640). Of two for one unit in one epoch the last is applied and the first ends SUPERSEDED (R633). -/
def Obligations.ManagementCommandsApplyAtTheirEpoch : Prop :=
  (∀ (s : State) (m : Nat) (c : Mgmt), s.tickIndex m = 1 → s.sb.queue = [c] → c.epoch ≤ s.tickAt m / 1000000000 →
    (let u := s.mgmtBoundary s m
     u.sb.queue = [] ∧
     (s.unitGen c.kind c.unit ≠ c.gen →
       (∃ r ∈ u.sb.results, r.cmd = c ∧ r.result = mrSTALE_GEN ∧ r.genFound = s.unitGen c.kind c.unit ∧ r.time = s.cnt) ∧
       u.get SB_STALE = (s.get SB_STALE + 1) % two 32 ∧ u.get SB_MGMT_REFUSED = (s.get SB_MGMT_REFUSED + 1) % two 32 ∧
       u.get SB_INT_STAT_MGMT_REFUSED = 1 ∧ s.SameBut u [.regs, .sb, .stores, .msix] ∧
       s.SameRegsBut u [SB_STALE.key 0 0, SB_MGMT_REFUSED.key 0 0, SB_INT_STAT_MGMT_REFUSED.key 0 0, SB_LAST_CMD_OPCODE.key 0 0,
         SB_LAST_CMD_RESULT.key 0 0, SB_LAST_CMD_KIND.key 0 0, SB_LAST_UNIT.key 0 0, SB_LAST_GEN_SENT.key 0 0, SB_LAST_GEN_FOUND.key 0 0]) ∧
     (s.unitGen c.kind c.unit = c.gen → c.opcode = mgKEY_PROGRAM → s.keyState c.arg ≠ 0 →
       (∃ r ∈ u.sb.results, r.cmd = c ∧ r.result = mrBAD_ARG) ∧ u.iso.keys = s.iso.keys ∧
       u.get DBG_KEY_STAT_SLOTS = s.get DBG_KEY_STAT_SLOTS ∧ u.get SB_MGMT_REFUSED = (s.get SB_MGMT_REFUSED + 1) % two 32) ∧
     (s.unitGen c.kind c.unit = c.gen → s.notApplicable c = false → (c.opcode = mgKEY_PROGRAM → s.keyState c.arg = 0) →
       (∃ r ∈ u.sb.results, r.cmd = c ∧ r.result = mrAPPLIED ∧ r.time = s.cnt) ∧
       u.get SB_MGMT_ACCEPTED = (s.get SB_MGMT_ACCEPTED + 1) % two 32 ∧ u.get SB_INT_STAT_MGMT_APPLIED = 1 ∧
       (c.opcode = mgSIDE → c.kind = 1 → c.unit < 64 → u.get CORE_STAT_REQ_SB c.unit = 1) ∧
       (c.opcode = mgRETURN → c.kind = 1 → c.unit < 64 → u.get CORE_STAT_REQ_SB c.unit = 0) ∧
       (c.opcode = mgTEARDOWN → (u.slot c.unit).tearReq = true) ∧
       (c.opcode = mgSET_CAP → c.arg < two PWR_CAP_MW.w → u.get PWR_CAP_MW = c.arg) ∧
       (c.opcode = mgSET_MODE → u.pwr = (s.requestMode true c.arg 0).pwr) ∧
       (c.opcode = mgSET_LOCK → c.arg < 2 → u.get PWRG_CTL_HOST_LOCK = c.arg) ∧
       (c.opcode = mgSET_POWER_PARAM → c.unit = 0 → u.get PWR_MARGIN_MW = c.arg % two PWR_MARGIN_MW.w) ∧
       (c.opcode = mgKEY_REVOKE → c.arg < 4 → u.keyState c.arg = 2) ∧
       (c.opcode = mgKEY_PROGRAM → c.arg < 4 → u.keyState c.arg = 1 ∧ Map.find u.iso.keys c.arg = some c.key)))) ∧
  (∀ (s : State) (m : Nat) (c d : Mgmt), s.tickIndex m = 1 → s.sb.queue = [c, d] → c.epoch ≤ s.tickAt m / 1000000000 → c.samePlace d = true →
    d.opcode = mgSET_CAP → d.gen = s.unitGen d.kind d.unit → d.arg < two PWR_CAP_MW.w →
    (let u := s.mgmtBoundary s m
     u.get PWR_CAP_MW = d.arg ∧ u.get SB_MGMT_ACCEPTED = (s.get SB_MGMT_ACCEPTED + 1) % two 32 ∧
     u.get SB_MGMT_REFUSED = s.get SB_MGMT_REFUSED ∧ (∃ r ∈ u.sb.results, r.cmd = c ∧ r.result = mrSUPERSEDED)))

/-- GET_UNIT, GET_SNAPSHOT and GET_RESULT are answered at once, the last two with what R638 lays after the body, and change nothing else (R639,
R641). PLDM reads and the event receiver's registration answer in the layouts the model takes from DSP0248 (its choice, assumption 17; R642).
SB_EPOCH_LO_READ and SB_LAST_CMD_READ latch what goes with them (R660). -/
def Obligations.ManagementQueriesAreAnswered : Prop :=
  ∀ (s : State) (dt : Nat), s.Inv →
    (s.sbUp = true →
      (∀ body : List Byte,
        (let q := parseMgmt mgGET_UNIT body (le body 0x10 8) []
         let code := if bodyOk body = false then mrBAD_ARG
           else if kindOk mgGET_UNIT q.kind = false ∨ unitCount mgGET_UNIT q.kind ≤ q.unit then mrBAD_UNIT
           else if q.arg ≠ 0 then mrBAD_ARG else mrAPPLIED
         ∃ t, exec (.getUnit dt body) s = .next t ∧ t.sb = { s.sb with sent := s.answer q code (s.unitGen q.kind q.unit) :: s.sb.sent } ∧
           s.SameBytes t ∧ s.Took dt t ∧ s.SameBut t [.cnt, .frac, .sb]) ∧
        (∀ e, s.sb.snaps.find? (fun x => x.1 == le body 0x10 8 && x.2.1 + 200000000 ≤ (s.elapse dt).cnt) = some e → bodyOk body = true →
          le body 0xC 4 = 0 →
          ∃ t h, exec (.getSnapshot dt body) s = .next t ∧ h.length = 32 ∧ le h 3 1 = mrAPPLIED ∧
            t.sb = { s.sb with sent := (h ++ e.2.2) :: s.sb.sent } ∧ s.SameBytes t ∧ s.Took dt t ∧ s.SameBut t [.cnt, .frac, .sb]) ∧
        (s.sb.snaps = [] → ∃ t h, exec (.getSnapshot dt body) s = .next t ∧ h.length = 32 ∧ le h 3 1 = mrBAD_ARG ∧
          t.sb = { s.sb with sent := h :: s.sb.sent } ∧ s.SameBytes t ∧ s.Took dt t ∧ s.SameBut t [.cnt, .frac, .sb]) ∧
        (bodyOk body = true → le body 0xC 4 = 0 →
          (∀ c, s.sb.queue = [c] → c.cmdId = le body 0x18 4 →
            ∃ t h, exec (.getResult dt body) s = .next t ∧ h.length = 32 ∧ le h 3 1 = mrQUEUED ∧
              t.sb = { s.sb with sent := (h ++ zeros 8) :: s.sb.sent } ∧ s.SameBytes t ∧ s.Took dt t ∧ s.SameBut t [.cnt, .frac, .sb]) ∧
          (∀ r, s.sb.queue = [] → s.sb.results = [r] → r.cmd.cmdId = le body 0x18 4 → r.result < 256 →
            ∃ t h, exec (.getResult dt body) s = .next t ∧ h.length = 32 ∧ le h 3 1 = r.result ∧
              t.sb = { s.sb with sent := (h ++ toLe 8 r.time) :: s.sb.sent } ∧ s.SameBytes t ∧ s.Took dt t ∧
              s.SameBut t [.cnt, .frac, .sb]))) ∧
      (∀ handle : Nat, ∃ t b, exec (.getPdr dt handle) s = .next t ∧ t.sb = { s.sb with sent := b :: s.sb.sent } ∧
        b = (match Config.pdr handle with | some d => 0 :: d | none => [0x82]) ∧ s.SameBytes t ∧ s.Took dt t ∧ s.SameBut t [.cnt, .frac, .sb]) ∧
      (∀ sensor : Nat, ∃ t b, exec (.getSensorReading dt sensor) s = .next t ∧ t.sb = { s.sb with sent := b :: s.sb.sent } ∧
        b = (if sensor < 15 then 0 :: toLe 4 (ofS 32 (s.sb.sensors.getD sensor 0)) else [0x80]) ∧ s.SameBytes t ∧ s.Took dt t ∧
        s.SameBut t [.cnt, .frac, .sb]) ∧
      (∀ sensor : Nat, ∃ t b, exec (.getStateSensorReadings dt sensor) s = .next t ∧ t.sb = { s.sb with sent := b :: s.sb.sent } ∧
        (sensor = 0 → b = [0, BitVec.ofNat 8 (s.get PWRG_STAT_MODE)]) ∧ (sensor = 1 → b = [0, BitVec.ofNat 8 (s.get HT_STAT_STATE)]) ∧
        (sensor = 2 → b = [0, BitVec.ofNat 8 (s.get MEMG_STAT_FATAL)]) ∧ (2 < sensor → b = [0x80]) ∧ s.SameBytes t ∧ s.Took dt t ∧
        s.SameBut t [.cnt, .frac, .sb]) ∧
      (∀ eid : Byte, ∃ t, exec (.eventReceiverRegistration dt eid) s = .next t ∧
        t.sb = { s.sb with receiver := some eid.toNat, sent := [0] :: s.sb.sent } ∧ s.SameBytes t ∧ s.Took dt t ∧
        s.SameBut t [.cnt, .frac, .sb])) ∧
    (∀ p : Party, s.MayRead p .sb 0 →
      (∃ t, exec (.sbEpochLoRead dt p) s = .next t ∧ t.readData = s.get SB_EPOCH_LO ∧ t.latched p SB_EPOCH_HI = s.get SB_EPOCH_HI % two 32 ∧
        s.SameBytes t ∧ s.Took dt t ∧ s.SameBut t [.cnt, .frac, .latches, .readData]) ∧
      (∃ t, exec (.sbLastCmdRead dt p) s = .next t ∧ t.readData = s.regWord .sb 0 0x124 ∧
        t.latched p SB_LAST_UNIT = s.get SB_LAST_UNIT % two SB_LAST_UNIT.w ∧ t.latched p SB_LAST_GEN_SENT = s.get SB_LAST_GEN_SENT % two 32 ∧
        t.latched p SB_LAST_GEN_FOUND = s.get SB_LAST_GEN_FOUND % two 32 ∧ s.SameBytes t ∧ s.Took dt t ∧
        s.SameBut t [.cnt, .frac, .latches, .readData]))

/-- The endpoint's addresses, and SPDM: a message that comes before those it needs is answered UnexpectedRequest and changes nothing, each other
one is answered and moves the exchange on; CHALLENGE and GET_MEASUREMENTS end in a fresh nonce and a signature (R630, R631, R611, R676). The
bytes are DSP0236's and DSP0274's (the model's choice, assumption 17). -/
def Obligations.AddressesAndMeasurementsAreAnswered : Prop :=
  ∀ (s : State) (dt : Nat), s.Inv →
    (s.endpointUp = true →
      (∀ eid : Byte, eid ≠ 0 → eid ≠ 255 → ∃ t, exec (.setEndpointId dt eid) s = .next t ∧ t.get SB_EID_EID = eid.toNat ∧
        t.get SB_STAT_EID_ASSIGNED = 1 ∧ t.sb = { s.sb with sent := [0, 0, eid] :: s.sb.sent } ∧
        s.SameRegsBut t [SB_EID_EID.key 0 0, SB_STAT_EID_ASSIGNED.key 0 0] ∧ s.SameBytes t ∧ s.Took dt t ∧
        s.SameBut t [.cnt, .frac, .regs, .sb]) ∧
      (∀ addr : Fin 128, s.get SB_STAT_TRANSPORT = 1 → ∃ t, exec (.dynamicAddressAssignment dt addr) s = .next t ∧
        t.get SB_EID_I3C_ADDR = addr.val ∧ s.SameRegsBut t [SB_EID_I3C_ADDR.key 0 0] ∧ s.SameBytes t ∧ s.Took dt t ∧
        s.SameBut t [.cnt, .frac, .regs]) ∧
      (∀ addr : Fin 128, s.get SB_STAT_TRANSPORT ≠ 1 → exec (.dynamicAddressAssignment dt addr) s = .next (s.elapse dt)) ∧
      (∀ (a h k o n i : Nat) (nonce : List Byte),
        ∀ x ∈ [(Instr.getCapabilities dt, 1), (.negotiateAlgorithms dt a h, 2), (.getDigests dt, 3), (.getCertificate dt k o n, 3),
               (.challenge dt nonce, 3), (.getMeasurements dt i nonce, 3)], s.sb.spdm < x.2 →
          ∃ t, exec x.1 s = .next t ∧ t.sb = { s.sb with sent := spdmErr 4 :: s.sb.sent } ∧ s.SameBytes t ∧ s.Took dt t ∧
            s.SameBut t [.cnt, .frac, .sb]) ∧
      (∃ t b, exec (.getVersion dt) s = .next t ∧ t.sb = { s.sb with spdm := 1, sent := b :: s.sb.sent } ∧ le b 6 2 = 0x1200 ∧
        s.SameBytes t ∧ s.Took dt t ∧ s.SameBut t [.cnt, .frac, .sb]) ∧
      (1 ≤ s.sb.spdm → ∃ t b, exec (.getCapabilities dt) s = .next t ∧ t.sb = { s.sb with spdm := max 2 s.sb.spdm, sent := b :: s.sb.sent } ∧
        le b 8 4 = 22 ∧ s.SameBytes t ∧ s.Took dt t ∧ s.SameBut t [.cnt, .frac, .sb]) ∧
      (∀ a h : Nat, 2 ≤ s.sb.spdm → ∃ t b, exec (.negotiateAlgorithms dt a h) s = .next t ∧
        t.sb = { s.sb with spdm := if bit a 7 = true ∧ bit h 1 = true then 3 else s.sb.spdm, sent := b :: s.sb.sent } ∧ le b 1 1 = 0x63 ∧
        s.SameBytes t ∧ s.Took dt t ∧ s.SameBut t [.cnt, .frac, .sb]) ∧
      (3 ≤ s.sb.spdm →
        (∃ t, exec (.getDigests dt) s = .next t ∧ t.sb = { s.sb with sent := spdmMsg 1 0 1 (sha Config.certChain) :: s.sb.sent } ∧
          s.SameBytes t ∧ s.Took dt t ∧ s.SameBut t [.cnt, .frac, .sb]) ∧
        (∀ slot off len : Nat,
          (let b := (Config.certChain.drop off).take len
           ∃ t, exec (.getCertificate dt slot off len) s = .next t ∧
             t.sb = { s.sb with
               sent := (if slot = 0 ∧ off < Config.certChain.length then
                   spdmMsg 2 0 0 (record [(2, b.length), (2, Config.certChain.length - off - b.length)] ++ b)
                 else spdmErr 1) :: s.sb.sent } ∧
             s.SameBytes t ∧ s.Took dt t ∧ s.SameBut t [.cnt, .frac, .sb])) ∧
        (∀ nonce : List Byte, ∃ t, exec (.challenge dt nonce) s = .next t ∧ t.draws = s.draws + 1 ∧
          t.sb = { s.sb with
            sent := (spdmMsg 3 0 1 (sha Config.certChain) ++ toLe 32 (Config.random s.draws) ++ zeros 2 ++ fit 96 (Config.signature s.draws)) ::
              s.sb.sent } ∧
          s.SameBytes t ∧ s.Took dt t ∧ s.SameBut t [.cnt, .frac, .sb, .draws]) ∧
        (∀ (i : Nat) (nonce : List Byte), 1 ≤ i → i ≤ 6 → ∃ t b, exec (.getMeasurements dt i nonce) s = .next t ∧ t.draws = s.draws + 1 ∧
          t.sb = { s.sb with sent := (b ++ toLe 32 (Config.random s.draws) ++ zeros 2 ++ fit 96 (Config.signature s.draws)) :: s.sb.sent } ∧
          b = spdmMsg 0x60 0 0 (record [(1, 1), (3, (s.measBlock i).length)] ++ s.measBlock i) ∧ s.SameBytes t ∧ s.Took dt t ∧
          s.SameBut t [.cnt, .frac, .sb, .draws])))

/-- A firmware update moves through its states: REQUEST_UPDATE opens it, PASS_COMPONENT_TABLE lists the components, UPDATE_COMPONENT opens one of
them, its data is staged until it is whole, and a whole image that verifies, with a version of at least the anti-rollback count, reads in
SB_FW_STAGED (R610, R647). ACTIVATE_FIRMWARE stops the signal box firmware where its own image waits, and leaves the others to the next T0; the
restart runs the new image or the bank before it (R648, R649). -/
def Obligations.FirmwareUpdateMovesThroughItsStates : Prop :=
  ∀ (s : State) (dt : Nat), s.Inv →
    (s.endpointUp = true →
      (∀ a b : Nat,
        (s.sb.update = 0 → ∃ t, exec (.requestUpdate dt a b) s = .next t ∧
          t.sb = { s.sb with update := 1, table := [], sent := [0x10, 0] :: s.sb.sent } ∧ t.get SB_STAT_UPDATE_ACTIVE = 1 ∧ s.SameBytes t ∧
          s.Took dt t ∧ s.SameBut t [.cnt, .frac, .regs, .sb]) ∧
        (s.sb.update ≠ 0 → ∃ t, exec (.requestUpdate dt a b) s = .next t ∧ t.sb = { s.sb with sent := [0x10, 0x81] :: s.sb.sent } ∧
          s.SameBytes t ∧ s.Took dt t ∧ s.SameBut t [.cnt, .frac, .sb])) ∧
      (∀ id version : Nat, 1 ≤ s.sb.update → s.sb.update ≤ 2 → fwComponent id = true →
        ∃ t, exec (.passComponentTable dt id version) s = .next t ∧
          t.sb = { s.sb with update := 2, table := s.sb.table ++ [(id, version)], sent := [0x13, 0] :: s.sb.sent } ∧ s.SameBytes t ∧
          s.Took dt t ∧ s.SameBut t [.cnt, .frac, .sb]) ∧
      (∀ id version size : Nat, s.sb.update = 2 → s.sb.table.any (fun e => e.1 == id) = true →
        ∃ t, exec (.updateComponent dt id version size) s = .next t ∧ t.sb.update = 3 ∧ t.sb.comp = id ∧
          Map.find t.sb.staged id = some { version := version, size := size } ∧ t.get SB_FW_STAGED 0 (id - 1) = 0 ∧ s.SameBytes t ∧
          s.Took dt t ∧ s.SameBut t [.cnt, .frac, .regs, .sb]) ∧
      (∀ (off : Nat) (data : List Byte) (x : Staged), s.sb.update = 3 → fwComponent s.sb.comp = true →
        Map.find s.sb.staged s.sb.comp = some x →
        (let y := { x with data := putBytes x.data off data }
         (x.size < off + data.length → ∃ t, exec (.requestFirmwareData dt off data) s = .next t ∧
           t.sb = { s.sb with sent := [0x15, 0x83] :: s.sb.sent } ∧ s.SameBytes t ∧ s.Took dt t ∧ s.SameBut t [.cnt, .frac, .sb]) ∧
         (off + data.length ≤ x.size → y.data.length ≠ x.size → ∃ t, exec (.requestFirmwareData dt off data) s = .next t ∧
           t.sb = { s.sb with staged := Map.put s.sb.comp y s.sb.staged } ∧ s.SameBytes t ∧ s.Took dt t ∧ s.SameBut t [.cnt, .frac, .sb]) ∧
         (off + data.length ≤ x.size → y.data.length = x.size →
           (let good := Config.imageOk s.sb.comp y.bytes = true ∧ s.antiRollback s.sb.comp ≤ x.version
            ∃ t, exec (.requestFirmwareData dt off data) s = .next t ∧ t.sb.update = 2 ∧
             (good → (∃ z, Map.find t.sb.staged s.sb.comp = some z ∧ z.verified = true ∧ z.data = y.data) ∧
               t.get SB_FW_STAGED 0 (s.sb.comp - 1) = x.version % two 32 ∧ t.get SB_INT_STAT_FW_STAGED = 1) ∧
             (¬good → t.sb.staged = Map.del s.sb.comp (Map.put s.sb.comp y s.sb.staged) ∧ t.regs = s.regs) ∧
             s.SameBytes t ∧ s.Took dt t ∧ s.SameBut t [.cnt, .frac, .regs, .sb, .stores, .msix])))) ∧
      (s.sb.update = 2 →
        (let ids := (s.sb.staged.filter (fun e => e.2.verified && !e.2.active)).map (fun e => e.1)
         (ids = [] → ∃ t, exec (.activateFirmware dt) s = .next t ∧ t.sb = { s.sb with sent := [0x1A, 0x84] :: s.sb.sent } ∧ s.SameBytes t ∧
           s.Took dt t ∧ s.SameBut t [.cnt, .frac, .sb]) ∧
         (ids ≠ [] → ∃ t, exec (.activateFirmware dt) s = .next t ∧ t.sb.update = 0 ∧ t.get SB_STAT_UPDATE_ACTIVE = 0 ∧
           t.get SB_FW_ACTIVATIONS = (s.get SB_FW_ACTIVATIONS + 1) % two 32 ∧ t.get DBGG_STAT_OPEN = 0 ∧
           (s.sbUp = true → ids.contains 1 = true → t.get SB_STAT_RESTARTING = 1 ∧ t.sb.queue = [] ∧ t.sb.spdm = 0) ∧
           (ids.any (fun i => i != 1) = true → t.get SB_STAT_ACTIVATION_PENDING = 1) ∧
           (ids.contains 1 = false → t.get SB_STAT_RESTARTING = s.get SB_STAT_RESTARTING ∧ t.sb.queue = s.sb.queue) ∧ s.SameBytes t ∧
           s.Took dt t ∧ s.SameBut t [.cnt, .frac, .regs, .genAt, .iso, .sb, .stores, .msix])))) ∧
    (s.flag SB_STAT_RESTARTING = true →
      ∃ t, exec (.sbRestart dt) s = .next t ∧ t.get SB_STAT_RESTARTING = 0 ∧ t.get SB_RESTARTS = (s.get SB_RESTARTS + 1) % two 32 ∧
        t.get SB_INT_STAT_SB_RESTART = 1 ∧ t.sb.restarted = true ∧
        (∀ x, Map.find s.sb.staged 1 = some x →
          (Config.bootOk s.draws = true → t.get SB_FW_RUN = x.version % two 32) ∧
          (Config.bootOk s.draws = false → t.get SB_STAT_ROLLED_BACK = 1 ∧ t.get SB_FW_RUN = s.get SB_FW_RUN)) ∧
        s.SameBytes t ∧ s.Took dt t ∧ s.SameBut t [.cnt, .frac, .regs, .sb, .pkg, .draws, .stores, .msix]) ∧
    (s.flag SB_STAT_RESTARTING = false → exec (.sbRestart dt) s = .next (s.elapse dt))

/-! ## Resets and bring-up (17_reset_and_bring_up.md) -/

/-- POWER_ON of an unpowered part and a SYS_RESET_N pulse of 1,000 ns or more make T0: everything but fuses and flash is at reset, the boot count
advances and the straps are sampled (R665 to R667, R679, R682, R690). A pulse below 500 ns does nothing; between the limits either (R665).
PWR_GOOD low, and an undervoltage of 1,000 ns or more, lose the state (R664, R680, R733). A thermal trip ends every run and is FATAL (R749). PERST_N
low takes the link down, and high brings it up once the endpoint is released (R158, R666, R670). -/
def Obligations.PowerAndResetsBeginAgain : Prop :=
  ∀ (s : State) (dt : Nat), s.Inv → (∀ e ∈ s.sb.staged, fwComponent e.1 = true) →
    (∀ (st : Straps) (fw : FwImages),
      (s.pkg.powered = false → ∃ t, exec (.powerOn st fw) s = .next t ∧ s.Cold t ∧ t.pkg.powered = true ∧ t.pkg.boots = s.pkg.boots + 1 ∧
        t.pkg.thermTrip = false ∧ t.get PKG_BOOT_COUNT = (s.pkg.boots + 1) % two 32 ∧ t.get PKG_RESET_CAUSE = 1 ∧ t.get PKG_STRAPS_SB_BUS = b2n st.sbBus ∧
        t.get PKG_STRAPS_SMB_ADDR = st.smbAddr.val ∧ t.get PKG_STRAPS_RECOVERY = b2n st.recovery ∧ t.get PKG_STRAPS_TEST = st.test.val) ∧
      (s.pkg.powered = true → exec (.powerOn st fw) s = .next s)) ∧
    (∀ (width : Nat) (st : Straps), s.pkg.powered = true →
      (1000 ≤ width →
        ∃ t, exec (.sysReset dt width st) s = .next t ∧ s.Cold t ∧ t.pkg.powered = true ∧ t.pkg.boots = s.pkg.boots + 1 ∧
          t.get PKG_BOOT_COUNT = (s.pkg.boots + 1) % two 32 ∧ t.get PKG_RESET_CAUSE = 2 ∧ t.get PKG_STRAPS_SB_BUS = b2n st.sbBus ∧
          t.get PKG_STRAPS_SMB_ADDR = st.smbAddr.val ∧ t.get PKG_STRAPS_RECOVERY = b2n st.recovery ∧
          t.get PKG_STRAPS_TEST = st.test.val ∧ t.pkg.offReq = false ∧ t.pkg.thermTrip = false ∧ t.get PWRG_STAT_MODE = 0) ∧
      (width < 500 → exec (.sysReset dt width st) s = .next (s.elapse dt)) ∧
      (500 ≤ width → width < 1000 → ∃ t, exec (.sysReset dt width st) s = .next t ∧ t.draws = s.draws + 1 ∧
        (Config.pulseResets s.draws = true → s.Cold t ∧ t.get PKG_RESET_CAUSE = 2) ∧
        (Config.pulseResets s.draws = false → s.SameBytes t ∧ s.Took dt t ∧ s.SameBut t [.cnt, .frac, .draws]))) ∧
    (s.pkg.powered = true → ∃ t, exec (.pwrGoodFall dt) s = .next t ∧ s.Cold t ∧ t.pkg.powered = false ∧ t.pkg.boots = s.pkg.boots ∧
      t.pkg.thermTrip = s.pkg.thermTrip) ∧
    (∀ ns : Nat, s.pkg.powered = true →
      (1000 ≤ ns → ∃ t, exec (.railUndervoltage dt ns) s = .next t ∧ exec (.pwrGoodFall dt) s = .next t ∧ s.Cold t ∧ t.pkg.powered = false) ∧
      (ns < 1000 → exec (.railUndervoltage dt ns) s = .next (s.elapse dt))) ∧
    (s.pkg.powered = true → ∃ t, exec (.thermalTrip dt) s = .next t ∧ t.pkg.thermTrip = true ∧ t.runs = [] ∧ t.sol.run = none ∧
      t.flag MEMG_STAT_FATAL = true ∧ s.SameBytes t ∧ s.Took dt t) ∧
    (s.pkg.perst = false → ∃ t, exec (.perstAssert dt) s = .next t ∧ t.pkg.perst = true ∧ t.linkUp = false ∧ t.ht = s.ht ∧ s.Took dt t ∧
      (s.pkg.powered = true → t.get DBGG_STAT_OPEN = 0) ∧ (s.pkg.powered = true → s.pkg.sdUp = true → t.vfEnable = false ∧ t.numVfs = 0)) ∧
    (s.pkg.perst = true → exec (.perstAssert dt) s = .next (s.elapse dt)) ∧
    (∃ t, exec (.perstDeassert dt) s = .next t ∧ t.pkg = { s.pkg with perst := false } ∧ t.linkUp = s.pkg.released ∧ s.SameBytes t ∧
      s.Took dt t ∧ s.SameBut t [.cnt, .frac, .linkUp, .pkg])

/-- The boot goes through its stages in order, each taking the one before it as given, and SB_ STAT.STAGE shows the stage (R669): the ROM starts the
endpoint and verifies the signal box's image, or ends in recovery; the verified die images release the PCIe endpoint (R670), or end in recovery
(R672); pages answer from SD_READY; the scrub leaves LPDDR5X zero, and CD_READY core SRAM and the felt; a failure after release is BOOT_FAILED and
FATAL (R672). -/
def Obligations.BootStagesFollowInOrder : Prop :=
  ∀ (s : State) (dt : Nat) (f : FwImages), s.Inv → s.pkg.fw = some f →
    (∀ ok : Bool, s.pkg.powered = true → s.get SB_STAT_STAGE = 0 →
      ∃ t, exec (.bootRomDone dt ok) s = .next t ∧
        (let good := ok = true ∧ s.get SB_ANTIROLLBACK_SB ≤ f.sb.version ∧ s.get PKG_STRAPS_RECOVERY = 0 ∧ s.get PKG_STRAPS_TEST = 0
         (good → t.get SB_STAT_STAGE = 1 ∧ t.get SB_FW_RUN = f.sb.version % two 32) ∧ (¬good → t.get SB_STAT_STAGE = 5)) ∧
        (s.get PKG_STRAPS_SB_BUS = 0 → t.get SB_STAT_TRANSPORT = 1) ∧
        (s.get PKG_STRAPS_SB_BUS ≠ 0 → t.get SB_STAT_TRANSPORT = 2 ∧
          t.get SB_EID_SMB_ADDR = (0x60 + s.get PKG_STRAPS_SMB_ADDR) % two 7) ∧
        s.SameBytes t ∧ s.Took dt t ∧ s.SameBut t [.cnt, .frac, .regs, .sb]) ∧
    (∀ ok : Bool, s.get SB_STAT_STAGE = 1 → s.pkg.released = false →
      (let good := ok = true ∧ s.get SB_ANTIROLLBACK_SD ≤ f.sd.version ∧ s.get SB_ANTIROLLBACK_CD ≤ f.cd.version
       (good → ∃ t, exec (.sbFirmwareDone dt ok) s = .next t ∧ t.pkg.released = true ∧ t.linkUp = !s.pkg.perst ∧
         t.get PKG_T_RELEASE = (((s.elapse dt).cnt : Int) - s.pkg.t0).toNat % two 32 ∧ s.SameBytes t ∧ s.Took dt t ∧
         s.SameBut t [.cnt, .frac, .regs, .pkg, .linkUp]) ∧
       (¬good → ∃ t, exec (.sbFirmwareDone dt ok) s = .next t ∧ t.get SB_STAT_STAGE = 5 ∧ s.SameRegsBut t [SB_STAT_STAGE.key 0 0] ∧
         s.SameBytes t ∧ s.Took dt t ∧ s.SameBut t [.cnt, .frac, .regs, .sb]))) ∧
    (s.pkg.powered = true → s.get PKG_BOOT_ERR_CODE = 0 →
      (s.get SB_STAT_STAGE = 1 → s.pkg.released = true → ∃ t, exec (.sdReady dt) s = .next t ∧ t.pkg = { s.pkg with sdUp := true } ∧
        t.get SB_STAT_STAGE = 2 ∧ t.get SB_FW_RUN 0 1 = f.sd.version % two 32 ∧
        t.get PKG_T_SD_READY = (((s.elapse dt).cnt : Int) - s.pkg.t0).toNat % two 32 ∧ s.SameBytes t ∧ s.Took dt t ∧
        s.SameBut t [.cnt, .frac, .regs, .sb, .pkg]) ∧
      (s.get SB_STAT_STAGE = 2 →
        (s.pkg.trained = false →
          (∃ t, exec (.dramTrainingDone dt 0) s = .next t ∧ t.pkg = { s.pkg with trained := true } ∧ s.SameBytes t ∧ s.Took dt t ∧
            s.SameBut t [.cnt, .frac, .pkg]) ∧
          (∀ failed : Fin 65536, failed ≠ 0 → ∃ t, exec (.dramTrainingDone dt failed) s = .next t ∧ t.get PKG_BOOT_ERR_CODE = 1 ∧
            t.get PKG_BOOT_ERR_CHANNELS = failed.val ∧ t.get PKGB_STAT_BOOT_FAILED = 1 ∧ t.get PKGB_INT_STAT_BOOT_FAILED = 1 ∧
            t.flag MEMG_STAT_FATAL = true ∧ t.pkg = s.pkg ∧ s.SameBytes t ∧ s.Took dt t)) ∧
        (s.pkg.trained = true → ∃ t, exec (.scrubDone dt) s = .next t ∧ (∀ a, t.rd .dram a = 0 ∧ t.rd .sram a = s.rd .sram a ∧
          t.rd .felt a = s.rd .felt a) ∧ t.get MEMG_STAT_SCRUB_DONE = 1 ∧ t.get PKGB_STAT_DRAM_READY = 1 ∧ t.get SB_STAT_STAGE = 3 ∧
          t.get PKG_T_SCRUB_DONE = (((s.elapse dt).cnt : Int) - s.pkg.t0).toNat % two 32 ∧ s.Took dt t ∧
          s.SameBut t [.cnt, .frac, .regs, .dram])) ∧
      (s.get SB_STAT_STAGE = 3 →
        (∃ t, exec (.cdReady dt) s = .next t ∧ t.couchUp = true ∧ (∀ a, t.rd .sram a = 0 ∧ t.rd .felt a = 0 ∧ t.rd .dram a = s.rd .dram a) ∧
          t.get PKGB_STAT_CD_READY = 1 ∧ t.get PKGB_INT_STAT_CD_READY = 1 ∧ t.get SB_STAT_STAGE = 4 ∧
          t.get SB_FW_RUN 0 2 = f.cd.version % two 32 ∧ s.Took dt t ∧
          s.SameBut t [.cnt, .frac, .regs, .couchUp, .sb, .sram, .feltMem, .stores, .msix]) ∧
        (∀ couch : Bool, ∃ t, exec (.cdBringUpFailed dt couch) s = .next t ∧ t.get PKG_BOOT_ERR_CODE = (if couch then 2 else 3) ∧
          t.get PKGB_STAT_BOOT_FAILED = 1 ∧ t.flag MEMG_STAT_FATAL = true ∧ t.couchUp = s.couchUp ∧ s.SameBytes t ∧ s.Took dt t)))

/-! ## Register pages (18_register_map.md) and isolation (15_isolation_and_access.md) -/

/-- REGISTER_WRITE: an 8-byte write is its two words in order; a write of a word without all its bytes, out of alignment, outside every page or
before SD_READY does nothing (R693, R719); an RW field takes its value at once (R698), an RW-T field waits for the boundary (R699), a qualifier that
forbids the change turns the word away (R697, R284); no word of the boot page but INT_STAT can be written (R689). INT_STAT_CLEAR clears the bits
written as 1 and INT_FORCE sets them (R22, R723). A word of a function's MSI-X table is written and read back (R708). Its reads: the whole counter in
one read of 8 bytes (R64, R693), a register's value in one of 4. -/
def Obligations.RegisterWritesFollowTheirAccess : Prop :=
  ∀ (s : State) (dt : Nat), s.Inv →
    (∀ (p : Party) (a v : Nat), a % 8 = 0 →
      exec (.registerWrite dt p ⟨false, a, 8, 255, v, false⟩) s =
        .next (s.commit (((s.elapse dt).dwordWrite p a (v % two 32)).dwordWrite p (a + 4) (v / two 32 % two 32)))) ∧
    (∀ (p : Party) (w : BusWrite), w.read = false → (w.len = 4 ∧ (w.addr % 4 ≠ 0 ∨ w.be % 16 ≠ 15)) ∨ (w.len = 8 ∧ w.addr % 8 ≠ 0) ∨ (w.len ≠ 4 ∧ w.len ≠ 8) →
      exec (.registerWrite dt p w) s = .next (s.elapse dt)) ∧
    (∀ (p : Party) (a v : Nat), a % 4 = 0 → s.pkg.sdUp = false ∨ pageAt (a / 0x1000) = none →
      exec (.registerWrite dt p ⟨false, a, 4, 15, v, false⟩) s = .next (s.elapse dt)) ∧
    (∀ (p : Party) (t0 : Fin 64) (v : Nat), s.MayWrite p .str t0 → v < two 32 →
      ∃ t, exec (.registerWrite dt p ⟨false, STR_SEL.addr t0 0, 4, 15, v, false⟩) s = .next t ∧ t.get STR_SEL t0 = v % two 13 ∧
        s.SameRegsBut t [STR_SEL.key t0 0] ∧ s.SameBytes t ∧ s.Took dt t ∧ s.SameBut t [.cnt, .frac, .regs]) ∧
    (∀ (core : Fin 64) (v : Nat), s.pkg.sdUp = true → v < two 32 →
      (4 ≤ core.val → ∃ t, exec (.registerWrite dt (.fn 0) ⟨false, CORE_CTL_SIDE.addr core 0, 4, 15, v, false⟩) s = .next t ∧
        t.pendOf CORE_CTL_SIDE core = some ⟨CORE_CTL_SIDE, core, 0, v % 2, 0, (s.elapse dt).cnt⟩ ∧ s.SameBytes t ∧ s.Took dt t ∧
        s.SameBut t [.cnt, .frac, .pend]) ∧
      (core.val < 4 → v % 2 ≠ s.shown CORE_CTL_SIDE core → v % 2 ≠ s.get CORE_CTL_SIDE core →
        ∃ t, exec (.registerWrite dt (.fn 0) ⟨false, CORE_CTL_SIDE.addr core 0, 4, 15, v, false⟩) s = .next t ∧
          t.get CORE_INT_STAT_SIDE_REFUSED core = 1 ∧ s.SameRegsBut t [CORE_INT_STAT_SIDE_REFUSED.key core 0] ∧ s.SameBytes t ∧ s.Took dt t ∧
          s.SameBut t [.cnt, .frac, .regs, .stores, .msix])) ∧
    (∀ off v : Nat, off < 0x1000 → off % 4 = 0 → off ≠ 0x10 → ∀ p ∈ [Party.fn 0, .sb],
      exec (.registerWrite dt p ⟨false, 0x3000 + off, 4, 15, v, false⟩) s = .next (s.elapse dt)) ∧
    (∀ (p : Party) (pg : Page) (i off v : Nat), i < pg.count → off < 0x1000 → pg ≠ .dbgw → s.MayWrite p pg i →
      (∃ t, exec (.intStatClear dt p (pg.base + 0x1000 * i + off) v) s = .next t ∧
        (∀ f ∈ pg.intBits, bit v f.lo = true → t.get f i = 0) ∧
        s.SameRegsBut t ((pg.intBits.filter (fun f => bit v f.lo)).map (fun f => f.key i 0)) ∧ s.SameBytes t ∧ s.Took dt t ∧
        s.SameBut t [.cnt, .frac, .regs]) ∧
      (pg ≠ .pkgb → (pg = .sb → p = .sb) → ∃ t, exec (.intForce dt p (pg.base + 0x1000 * i + off) v) s = .next t ∧
        (∀ f ∈ pg.intBits, bit v f.lo = true → t.get f i = 1) ∧
        s.SameRegsBut t ((pg.intBits.filter (fun f => bit v f.lo)).map (fun f => f.key i 0)) ∧ s.SameBytes t ∧ s.Took dt t ∧
        s.SameBut t [.cnt, .frac, .regs, .stores, .msix])) ∧
    (∀ (f : Fin 64) (d v : Nat), s.pkg.sdUp = true → s.fnEnabled f = true → d < 260 → d % 4 ≠ 3 → v < two 32 →
      ∃ t, exec (.registerWrite dt (.fn f) ⟨true, 4 * d, 4, 15, v, false⟩) s = .next t ∧ t.msixWord f d = v ∧
        (∀ k, k ≠ 1024 * f.val + d → Map.find t.msix k = Map.find s.msix k) ∧ s.SameBytes t ∧ s.Took dt t ∧
        s.SameBut t [.cnt, .frac, .msix]) ∧
    (∀ (f : Fin 64) (d : Nat), s.pkg.sdUp = true → s.fnEnabled f = true → d < 260 →
      ∃ t, exec (.registerWrite dt (.fn f) ⟨true, 4 * d, 4, 0, 0, true⟩) s = .next t ∧ t.readData = s.msixWord f d % two 32 ∧
        s.SameBytes t ∧ s.Took dt t ∧ s.SameBut t [.cnt, .frac, .readData]) ∧
    (∀ p : Party, s.MayRead p .ht 0 →
      ∃ t, exec (.registerWrite dt p ⟨false, HT_CNT_LO.addr 0 0, 8, 0, 0, true⟩) s = .next t ∧
        t.readData = (s.elapse dt).cnt % two 64 ∧ s.SameBytes t ∧ s.Took dt t ∧ s.SameBut t [.cnt, .frac, .latches, .readData]) ∧
    (∀ (p : Party) (t0 : Fin 64), s.MayRead p .str t0 →
      ∃ t, exec (.registerWrite dt p ⟨false, STR_SEL.addr t0 0, 4, 0, 0, true⟩) s = .next t ∧ t.readData = s.shown STR_SEL t0 % two 32 ∧
        s.SameBytes t ∧ s.Took dt t ∧ s.SameBut t [.cnt, .frac, .readData])

/-- SHADOW_HOLD, SHADOW_APPLY and SHADOW_ABANDON act where the writer owns the page and the page has a ticked field of its own, and nowhere else
(R701): HOLD takes its value, APPLY is set, ABANDON discards what the owner has written and clears APPLY (R702 to R704). At the boundary of the
tick that begins, a held value waits, as does one written at the boundary's instant or later; any other takes effect (R62, R76, R699, R702). -/
def Obligations.ShadowControlGathersPendingValues : Prop :=
  (∀ (s : State) (dt : Nat) (f : Fin 64) (pg : Page) (i off : Nat), s.Inv → i < pg.count → off < 0x1000 → s.MayWrite (.fn f) pg i →
    (s.owner pg i = f.val → s.hasShadow pg i = true →
      (∀ hold : Bool, ∃ t, exec (.shadowHold dt (.fn f) (pg.base + 0x1000 * i + off) hold) s = .next t ∧ t.get (hdrHold pg) i = b2n hold ∧
        s.SameRegsBut t [(hdrHold pg).key i 0] ∧ s.SameBytes t ∧ s.Took dt t ∧ s.SameBut t [.cnt, .frac, .regs]) ∧
      (∃ t, exec (.shadowApply dt (.fn f) (pg.base + 0x1000 * i + off)) s = .next t ∧ t.get (hdrApply pg) i = 1 ∧
        s.SameRegsBut t [(hdrApply pg).key i 0] ∧ (∀ k, k ≠ (hdrApply pg).addr i 0 → Map.find t.genAt k = Map.find s.genAt k) ∧ s.SameBytes t ∧
        s.Took dt t ∧ s.SameBut t [.cnt, .frac, .regs, .genAt]) ∧
      (∃ t, exec (.shadowAbandon dt (.fn f) (pg.base + 0x1000 * i + off)) s = .next t ∧ t.get (hdrApply pg) i = 0 ∧
        t.pend = s.pend.filter (fun q => !(decide (q.fld.page = pg) && q.inst == i && q.writer == f.val)) ∧
        s.SameRegsBut t [(hdrApply pg).key i 0] ∧ s.SameBytes t ∧ s.Took dt t ∧ s.SameBut t [.cnt, .frac, .regs, .pend, .bl])) ∧
    (s.owner pg i ≠ f.val ∨ s.hasShadow pg i = false → ∀ hold : Bool,
      exec (.shadowHold dt (.fn f) (pg.base + 0x1000 * i + off) hold) s = .next (s.elapse dt) ∧
      exec (.shadowApply dt (.fn f) (pg.base + 0x1000 * i + off)) s = .next (s.elapse dt) ∧
      exec (.shadowAbandon dt (.fn f) (pg.base + 0x1000 * i + off)) s = .next (s.elapse dt))) ∧
  (∀ (s : State) (q : Pend), s.pend = [q] → q.fld ≠ TT_CTL_ENABLE → q.value < two q.fld.w → q.fld.lo < 32 → q.fld.off + 4 * q.idx < 0x1000 →
    q.fld.off + 4 * q.idx ≠ 0x1C → q.fld.off + 4 * q.idx ≠ 0x20 →
    (let held := q.writer = s.owner q.fld.page q.inst ∧ s.flag (hdrHold q.fld.page) q.inst = true ∧ s.applies q.fld.page q.inst = false
     (held ∨ s.tickAt s.tt.tick ≤ q.at_ →
       s.applyTicked.pend = [q] ∧ s.applyTicked.get q.fld q.inst q.idx = s.get q.fld q.inst q.idx) ∧
     (¬held → q.at_ < s.tickAt s.tt.tick →
       s.applyTicked.pend = [] ∧ s.applyTicked.get q.fld q.inst q.idx = q.value)))

/-- A function that a page is out of reach of changes nothing there or anywhere: its write, whatever the word and the register, is discarded and
counted on its own ISO_ page and in ISO_DENIED, with its interrupt bit; a read of it, or of a trigger register, returns zero and is counted (R600,
R709). -/
def Obligations.RefusedAccessesChangeOnlyTheirCount : Prop :=
  ∀ (s : State) (dt : Nat) (f : Fin 64) (pg : Page) (i off v : Nat) (hold : Bool), s.Inv → s.pkg.sdUp = true → i < pg.count → off < 0x1000 →
    off % 4 = 0 → s.reachOf (.fn f) pg i = .none →
    (let a := pg.base + 0x1000 * i + off
     let Denied := fun (out : Out) (parts : List Part) (read : Nat → Prop) =>
       ∃ t, out = .next t ∧ read t.readData ∧ t.get ISO_T_PAGE_DENIED f = (s.get ISO_T_PAGE_DENIED f + 1) % two 32 ∧
         t.get ISO_DENIED = (s.get ISO_DENIED + 1) % two 32 ∧ t.get ISOT_INT_STAT_DENIED f = 1 ∧
         s.SameRegsBut t [ISO_T_PAGE_DENIED.key f 0, ISO_DENIED.key 0 0, ISOT_INT_STAT_DENIED.key f 0] ∧ s.SameBytes t ∧ s.Took dt t ∧
         s.SameBut t ([.cnt, .frac, .regs, .stores, .msix] ++ parts)
     let Write := fun (out : Out) => Denied out [] (fun _ => True)
     let Read := fun (out : Out) => Denied out [.readData] (fun x => x = 0)
     Write (exec (.registerWrite dt (.fn f) ⟨false, a, 4, 15, v, false⟩) s) ∧ Write (exec (.intStatClear dt (.fn f) a v) s) ∧
     Write (exec (.intForce dt (.fn f) a v) s) ∧ Write (exec (.shadowHold dt (.fn f) a hold) s) ∧
     Write (exec (.shadowApply dt (.fn f) a) s) ∧ Write (exec (.shadowAbandon dt (.fn f) a) s) ∧
     Read (exec (.registerWrite dt (.fn f) ⟨false, a, 4, 0, 0, true⟩) s) ∧
     (pg = .sb → Read (exec (.sbEpochLoRead dt (.fn f)) s) ∧ Read (exec (.sbLastCmdRead dt (.fn f)) s)) ∧
     (pg = .ledg → Read (exec (.ledLastBookRead dt (.fn f)) s)) ∧ (pg = .memg → Read (exec (.memLogViewRead dt (.fn f)) s)))
end

