-- ==== Sys2Proof/Laws/Maps.lean ====
section
/-! SUPPORT. Laws/Maps.lean: laws of sparse tables and byte memories: read after write, and the canonical form kept. -/
namespace Sys2Proof.Machine

variable {α : Type}

@[simp] theorem Map.find_nil (k : Nat) : Map.find ([] : Map α) k = none := rfl

@[simp] theorem Map.find_put_same (m : Map α) (k : Nat) (v : α) : Map.find (Map.put k v m) k = some v := by
  induction m with
  | nil => simp [Map.put, Map.find]
  | cons e m ih =>
    obtain ⟨a, b⟩ := e
    simp only [Map.put]
    split
    · simp [Map.find]
    · split
      · simp [Map.find]
      · rename_i h1 h2
        have : a ≠ k := fun h => h2 h.symm
        simp [Map.find, this, ih]

theorem Map.find_put_other (m : Map α) (k j : Nat) (v : α) (h : j ≠ k) :
    Map.find (Map.put k v m) j = Map.find m j := by
  have h' : k ≠ j := fun e => h e.symm
  induction m with
  | nil => simp [Map.put, Map.find, h']
  | cons e m ih =>
    obtain ⟨a, b⟩ := e
    simp only [Map.put]
    split
    · simp [Map.find, h']
    · split
      · rename_i h1 h2
        subst h2
        simp [Map.find, h']
      · simp [Map.find, ih]

theorem Map.find_put (m : Map α) (k j : Nat) (v : α) :
    Map.find (Map.put k v m) j = if j = k then some v else Map.find m j := by
  split
  · subst_vars; simp
  · rename_i h; exact Map.find_put_other m k j v h

/-- Every key of the table is above `k`. -/
def Map.Above (k : Nat) (m : Map α) : Prop := ∀ e ∈ m, k < e.1

theorem Map.sorted_cons (e : Nat × α) (m : Map α) : Map.sorted (e :: m) = true ↔ Map.Above e.1 m ∧ Map.sorted m = true := by
  induction m generalizing e with
  | nil => simp [Map.sorted, Map.Above]
  | cons f m ih =>
    obtain ⟨a, v⟩ := e
    obtain ⟨b, w⟩ := f
    simp only [Map.sorted, Bool.and_eq_true, decide_eq_true_eq]
    constructor
    · intro ⟨h1, h2⟩
      refine ⟨?_, h2⟩
      intro x hx
      rcases List.mem_cons.mp hx with rfl | hx
      · exact h1
      · have := (ih (b, w)).mp h2
        exact Nat.lt_trans h1 (this.1 x hx)
    · intro ⟨h1, h2⟩
      exact ⟨h1 (b, w) (by simp), h2⟩

theorem Map.above_put (m : Map α) (a k : Nat) (v : α) (h : Map.Above a m) (hk : a < k) : Map.Above a (Map.put k v m) := by
  induction m with
  | nil => intro e he; simp [Map.put] at he; subst he; exact hk
  | cons e m ih =>
    obtain ⟨x, y⟩ := e
    have hx := h (x, y) (by simp)
    have ht : Map.Above a m := fun e he => h e (by simp [he])
    simp only [Map.put]
    split
    · intro e he
      rcases List.mem_cons.mp he with rfl | he
      · exact hk
      · exact h e he
    · split
      · intro e he
        rcases List.mem_cons.mp he with rfl | he
        · exact hk
        · exact ht e he
      · intro e he
        rcases List.mem_cons.mp he with rfl | he
        · exact hx
        · exact ih ht e he

theorem Map.sorted_put (m : Map α) (k : Nat) (v : α) (h : Map.sorted m = true) : Map.sorted (Map.put k v m) = true := by
  induction m with
  | nil => rfl
  | cons e m ih =>
    obtain ⟨x, y⟩ := e
    obtain ⟨hx, hm⟩ := (Map.sorted_cons _ _).mp h
    simp only [Map.put]
    split
    · rename_i hk
      refine (Map.sorted_cons _ _).mpr ⟨?_, h⟩
      intro e he
      rcases List.mem_cons.mp he with rfl | he
      · exact hk
      · exact Nat.lt_trans hk (hx e he)
    · split
      · rename_i hk
        subst hk
        exact (Map.sorted_cons _ _).mpr ⟨hx, hm⟩
      · exact (Map.sorted_cons _ _).mpr ⟨Map.above_put m x k v hx (by simp at *; omega), ih hm⟩

theorem Map.mem_del (m : Map α) (k : Nat) (e : Nat × α) (h : e ∈ Map.del k m) : e ∈ m := by
  induction m with
  | nil => simp [Map.del] at h
  | cons f m ih =>
    obtain ⟨x, y⟩ := f
    simp only [Map.del] at h
    split at h
    · simp [h]
    · rcases List.mem_cons.mp h with rfl | h
      · simp
      · simp [ih h]

theorem Map.sorted_del (m : Map α) (k : Nat) (h : Map.sorted m = true) : Map.sorted (Map.del k m) = true := by
  induction m with
  | nil => rfl
  | cons e m ih =>
    obtain ⟨x, y⟩ := e
    obtain ⟨hx, hm⟩ := (Map.sorted_cons _ _).mp h
    simp only [Map.del]
    split
    · exact hm
    · exact (Map.sorted_cons _ _).mpr ⟨fun e he => hx e (Map.mem_del m k e he), ih hm⟩

theorem Map.find_above (m : Map α) (k : Nat) (h : Map.Above k m) : Map.find m k = none := by
  induction m with
  | nil => rfl
  | cons e m ih =>
    obtain ⟨x, y⟩ := e
    have hx := h (x, y) (by simp)
    have : x ≠ k := by simp at hx; omega
    simp only [Map.find, this, if_false]
    exact ih (fun e he => h e (by simp [he]))

theorem Map.find_del (m : Map α) (k j : Nat) (h : Map.sorted m = true) :
    Map.find (Map.del k m) j = if j = k then none else Map.find m j := by
  induction m with
  | nil => simp [Map.del, Map.find]
  | cons e m ih =>
    obtain ⟨x, y⟩ := e
    obtain ⟨hx, hm⟩ := (Map.sorted_cons _ _).mp h
    simp only [Map.del]
    split
    · rename_i hk
      subst hk
      split
      · rename_i hj; subst hj; exact Map.find_above m _ hx
      · rename_i hj
        have : x ≠ j := fun h => hj h.symm
        simp [Map.find, this]
    · rename_i hk
      simp only [Map.find, ih hm]
      by_cases h1 : x = j
      · subst h1; simp [hk]
      · simp [h1]

theorem Map.sorted_filter (m : Map α) (p : Nat × α → Bool) (h : Map.sorted m = true) : Map.sorted (m.filter p) = true := by
  induction m with
  | nil => rfl
  | cons e m ih =>
    obtain ⟨hx, hm⟩ := (Map.sorted_cons _ _).mp h
    simp only [List.filter_cons]
    split
    · exact (Map.sorted_cons _ _).mpr ⟨fun f hf => hx f (List.mem_filter.mp hf).1, ih hm⟩
    · exact ih hm

theorem Map.mem_put (m : Map α) (k : Nat) (v : α) (e : Nat × α) (h : e ∈ Map.put k v m) : e = (k, v) ∨ e ∈ m := by
  induction m with
  | nil => simpa [Map.put] using h
  | cons f m ih =>
    obtain ⟨x, y⟩ := f
    simp only [Map.put] at h
    split at h
    · rcases List.mem_cons.mp h with h | h
      · exact .inl h
      · exact .inr h
    · split at h
      · rcases List.mem_cons.mp h with h | h
        · exact .inl h
        · exact .inr (by simp [h])
      · rcases List.mem_cons.mp h with h | h
        · exact .inr (by simp [h])
        · rcases ih h with h | h
          · exact .inl h
          · exact .inr (by simp [h])

/-! ## Byte memories -/

theorem Memory.wf_iff (m : Memory) : m.wf = true ↔ Map.sorted m = true ∧ ∀ c ∈ m, c.2 ≠ 0 := by
  simp [Memory.wf, List.all_eq_true]

/-- A byte store keeps the canonical form. -/
theorem Memory.wf_wr (m : Memory) (a : Nat) (b : Byte) (h : m.wf = true) : (Memory.wr a b m).wf = true := by
  obtain ⟨hs, hz⟩ := (Memory.wf_iff m).mp h
  unfold Memory.wr
  split
  · exact (Memory.wf_iff _).mpr ⟨Map.sorted_del m a hs, fun c hc => hz c (Map.mem_del m a c hc)⟩
  · rename_i hb
    refine (Memory.wf_iff _).mpr ⟨Map.sorted_put m a b hs, fun c hc => ?_⟩
    rcases Map.mem_put m a b c hc with rfl | hc
    · exact hb
    · exact hz c hc

theorem Memory.wf_wrBytes (l : List Byte) (m : Memory) (a : Nat) (h : m.wf = true) : (m.wrBytes a l).wf = true := by
  induction l generalizing m a with
  | nil => exact h
  | cons b l ih => exact ih _ _ (Memory.wf_wr m a b h)

theorem Memory.wf_zero (m : Memory) (a n : Nat) (h : m.wf = true) : (m.zero a n).wf = true := by
  obtain ⟨hs, hz⟩ := (Memory.wf_iff m).mp h
  exact (Memory.wf_iff _).mpr ⟨Map.sorted_filter m _ hs, fun c hc => hz c (List.mem_filter.mp hc).1⟩

theorem Memory.wf_copy (m : Memory) (a d n : Nat) (h : m.wf = true) : (m.copy a d n).wf = true :=
  Memory.wf_wrBytes _ _ _ (Memory.wf_zero m d n h)

/-- A store list keeps the canonical form. -/
theorem applyPost_wf (sp : Space) (m : Memory) (l : List MemOp) (h : m.wf = true) : (applyPost sp m l).wf = true := by
  induction l with
  | nil => exact h
  | cons o l ih =>
    change (o.apply sp (applyPost sp m l)).wf = true
    cases o with
    | wr q a d =>
      simp only [MemOp.apply]
      split
      · exact Memory.wf_wrBytes _ _ _ ih
      · exact ih
    | zero q a n =>
      simp only [MemOp.apply]
      split
      · exact Memory.wf_zero _ _ _ ih
      · exact ih
    | clear q =>
      simp only [MemOp.apply]
      split
      · rfl
      · exact ih

/-- Read after write: the stored byte at its address, every other byte as before. -/
theorem Memory.rd_wr (m : Memory) (a k : Nat) (b : Byte) (h : m.wf = true) :
    (Memory.wr a b m).rd k = if k = a then b else m.rd k := by
  obtain ⟨hs, _⟩ := (Memory.wf_iff m).mp h
  unfold Memory.wr Memory.rd Map.get
  split
  · rw [Map.find_del m a k hs]; split <;> simp_all
  · rw [Map.find_put]; split <;> simp_all

theorem Memory.rd_wrBytes (l : List Byte) (m : Memory) (a k : Nat) (h : m.wf = true) :
    (m.wrBytes a l).rd k = if a ≤ k ∧ k < a + l.length then l.getD (k - a) 0 else m.rd k := by
  induction l generalizing m a with
  | nil =>
    have h0 : ¬ (a ≤ k ∧ k < a + ([] : List Byte).length) := by rw [List.length_nil]; omega
    rw [if_neg h0, Memory.wrBytes]
  | cons b l ih =>
    simp only [Memory.wrBytes]
    rw [ih _ _ (Memory.wf_wr m a b h), Memory.rd_wr m a k b h]
    by_cases hk : k = a
    · subst hk
      have h1 : ¬ (k + 1 ≤ k ∧ k < k + 1 + l.length) := by omega
      simp [h1]
    · by_cases h1 : a ≤ k ∧ k < a + (b :: l).length
      · have h2 : a + 1 ≤ k ∧ k < a + 1 + l.length := by simp at h1; omega
        have h3 : k - a = (k - (a + 1)) + 1 := by omega
        rw [if_pos h2, if_pos h1, h3, List.getD_cons_succ]
      · have h2 : ¬ (a + 1 ≤ k ∧ k < a + 1 + l.length) := by simp at h1 ⊢; omega
        simp only [hk, h1, h2, if_false]

/-- The byte memories after a command are canonical where they were before it. -/
theorem State.commit_wf (s t : State) (h1 : s.sram.wf = true) (h2 : s.feltMem.wf = true) (h3 : s.dram.wf = true) :
    (s.commit t).sram.wf = true ∧ (s.commit t).feltMem.wf = true ∧ (s.commit t).dram.wf = true :=
  ⟨applyPost_wf _ _ _ h1, applyPost_wf _ _ _ h2, applyPost_wf _ _ _ h3⟩

end Sys2Proof.Machine
end

