-- ==== Sys2Proof/Laws/State.lean ====
section
/-! SUPPORT. Laws/State.lean: what each shared operation leaves unchanged, field by field, and reads of a register after a write. -/
namespace Sys2Proof.Machine

/-! ## State.set -/

@[simp] theorem State.set_cnt (s : State) (f : Fld) (v i j : Nat) : (s.set f v i j).cnt = s.cnt := rfl
@[simp] theorem State.set_frac (s : State) (f : Fld) (v i j : Nat) : (s.set f v i j).frac = s.frac := rfl
@[simp] theorem State.set_pend (s : State) (f : Fld) (v i j : Nat) : (s.set f v i j).pend = s.pend := rfl
@[simp] theorem State.set_latches (s : State) (f : Fld) (v i j : Nat) : (s.set f v i j).latches = s.latches := rfl
@[simp] theorem State.set_genAt (s : State) (f : Fld) (v i j : Nat) : (s.set f v i j).genAt = s.genAt := rfl
@[simp] theorem State.set_readData (s : State) (f : Fld) (v i j : Nat) : (s.set f v i j).readData = s.readData := rfl
@[simp] theorem State.set_msix (s : State) (f : Fld) (v i j : Nat) : (s.set f v i j).msix = s.msix := rfl
@[simp] theorem State.set_ht (s : State) (f : Fld) (v i j : Nat) : (s.set f v i j).ht = s.ht := rfl
@[simp] theorem State.set_tt (s : State) (f : Fld) (v i j : Nat) : (s.set f v i j).tt = s.tt := rfl
@[simp] theorem State.set_fns (s : State) (f : Fld) (v i j : Nat) : (s.set f v i j).fns = s.fns := rfl
@[simp] theorem State.set_vfEnable (s : State) (f : Fld) (v i j : Nat) : (s.set f v i j).vfEnable = s.vfEnable := rfl
@[simp] theorem State.set_numVfs (s : State) (f : Fld) (v i j : Nat) : (s.set f v i j).numVfs = s.numVfs := rfl
@[simp] theorem State.set_linkUp (s : State) (f : Fld) (v i j : Nat) : (s.set f v i j).linkUp = s.linkUp := rfl
@[simp] theorem State.set_rings (s : State) (f : Fld) (v i j : Nat) : (s.set f v i j).rings = s.rings := rfl
@[simp] theorem State.set_stores (s : State) (f : Fld) (v i j : Nat) : (s.set f v i j).stores = s.stores := rfl
@[simp] theorem State.set_lastGrant (s : State) (f : Fld) (v i j : Nat) : (s.set f v i j).lastGrant = s.lastGrant := rfl
@[simp] theorem State.set_txq (s : State) (f : Fld) (v i j : Nat) : (s.set f v i j).txq = s.txq := rfl
@[simp] theorem State.set_slots (s : State) (f : Fld) (v i j : Nat) : (s.set f v i j).slots = s.slots := rfl
@[simp] theorem State.set_cmds (s : State) (f : Fld) (v i j : Nat) : (s.set f v i j).cmds = s.cmds := rfl
@[simp] theorem State.set_binds (s : State) (f : Fld) (v i j : Nat) : (s.set f v i j).binds = s.binds := rfl
@[simp] theorem State.set_ports (s : State) (f : Fld) (v i j : Nat) : (s.set f v i j).ports = s.ports := rfl
@[simp] theorem State.set_images (s : State) (f : Fld) (v i j : Nat) : (s.set f v i j).images = s.images := rfl
@[simp] theorem State.set_progCmds (s : State) (f : Fld) (v i j : Nat) : (s.set f v i j).progCmds = s.progCmds := rfl
@[simp] theorem State.set_runs (s : State) (f : Fld) (v i j : Nat) : (s.set f v i j).runs = s.runs := rfl
@[simp] theorem State.set_commits (s : State) (f : Fld) (v i j : Nat) : (s.set f v i j).commits = s.commits := rfl
@[simp] theorem State.set_nextRun (s : State) (f : Fld) (v i j : Nat) : (s.set f v i j).nextRun = s.nextRun := rfl
@[simp] theorem State.set_cellTabs (s : State) (f : Fld) (v i j : Nat) : (s.set f v i j).cellTabs = s.cellTabs := rfl
@[simp] theorem State.set_felt (s : State) (f : Fld) (v i j : Nat) : (s.set f v i j).felt = s.felt := rfl
@[simp] theorem State.set_handles (s : State) (f : Fld) (v i j : Nat) : (s.set f v i j).handles = s.handles := rfl
@[simp] theorem State.set_pfx (s : State) (f : Fld) (v i j : Nat) : (s.set f v i j).pfx = s.pfx := rfl
@[simp] theorem State.set_couchTries (s : State) (f : Fld) (v i j : Nat) : (s.set f v i j).couchTries = s.couchTries := rfl
@[simp] theorem State.set_couchUp (s : State) (f : Fld) (v i j : Nat) : (s.set f v i j).couchUp = s.couchUp := rfl
@[simp] theorem State.set_gx (s : State) (f : Fld) (v i j : Nat) : (s.set f v i j).gx = s.gx := rfl
@[simp] theorem State.set_sol (s : State) (f : Fld) (v i j : Nat) : (s.set f v i j).sol = s.sol := rfl
@[simp] theorem State.set_bl (s : State) (f : Fld) (v i j : Nat) : (s.set f v i j).bl = s.bl := rfl
@[simp] theorem State.set_pwr (s : State) (f : Fld) (v i j : Nat) : (s.set f v i j).pwr = s.pwr := rfl
@[simp] theorem State.set_mem (s : State) (f : Fld) (v i j : Nat) : (s.set f v i j).mem = s.mem := rfl
@[simp] theorem State.set_led (s : State) (f : Fld) (v i j : Nat) : (s.set f v i j).led = s.led := rfl
@[simp] theorem State.set_iso (s : State) (f : Fld) (v i j : Nat) : (s.set f v i j).iso = s.iso := rfl
@[simp] theorem State.set_sb (s : State) (f : Fld) (v i j : Nat) : (s.set f v i j).sb = s.sb := rfl
@[simp] theorem State.set_pkg (s : State) (f : Fld) (v i j : Nat) : (s.set f v i j).pkg = s.pkg := rfl
@[simp] theorem State.set_sram (s : State) (f : Fld) (v i j : Nat) : (s.set f v i j).sram = s.sram := rfl
@[simp] theorem State.set_feltMem (s : State) (f : Fld) (v i j : Nat) : (s.set f v i j).feltMem = s.feltMem := rfl
@[simp] theorem State.set_dram (s : State) (f : Fld) (v i j : Nat) : (s.set f v i j).dram = s.dram := rfl
@[simp] theorem State.set_post (s : State) (f : Fld) (v i j : Nat) : (s.set f v i j).post = s.post := rfl
@[simp] theorem State.set_actor (s : State) (f : Fld) (v i j : Nat) : (s.set f v i j).actor = s.actor := rfl
@[simp] theorem State.set_draws (s : State) (f : Fld) (v i j : Nat) : (s.set f v i j).draws = s.draws := rfl
@[simp] theorem State.set_pending (s : State) (f : Fld) (v i j : Nat) : (s.set f v i j).pending = s.pending := rfl

/-! ## State.setS -/

@[simp] theorem State.setS_cnt (s : State) (f : Fld) (v : Int) (i j : Nat) : (s.setS f v i j).cnt = s.cnt := rfl
@[simp] theorem State.setS_frac (s : State) (f : Fld) (v : Int) (i j : Nat) : (s.setS f v i j).frac = s.frac := rfl
@[simp] theorem State.setS_pend (s : State) (f : Fld) (v : Int) (i j : Nat) : (s.setS f v i j).pend = s.pend := rfl
@[simp] theorem State.setS_latches (s : State) (f : Fld) (v : Int) (i j : Nat) : (s.setS f v i j).latches = s.latches := rfl
@[simp] theorem State.setS_genAt (s : State) (f : Fld) (v : Int) (i j : Nat) : (s.setS f v i j).genAt = s.genAt := rfl
@[simp] theorem State.setS_readData (s : State) (f : Fld) (v : Int) (i j : Nat) : (s.setS f v i j).readData = s.readData := rfl
@[simp] theorem State.setS_msix (s : State) (f : Fld) (v : Int) (i j : Nat) : (s.setS f v i j).msix = s.msix := rfl
@[simp] theorem State.setS_ht (s : State) (f : Fld) (v : Int) (i j : Nat) : (s.setS f v i j).ht = s.ht := rfl
@[simp] theorem State.setS_tt (s : State) (f : Fld) (v : Int) (i j : Nat) : (s.setS f v i j).tt = s.tt := rfl
@[simp] theorem State.setS_fns (s : State) (f : Fld) (v : Int) (i j : Nat) : (s.setS f v i j).fns = s.fns := rfl
@[simp] theorem State.setS_vfEnable (s : State) (f : Fld) (v : Int) (i j : Nat) : (s.setS f v i j).vfEnable = s.vfEnable := rfl
@[simp] theorem State.setS_numVfs (s : State) (f : Fld) (v : Int) (i j : Nat) : (s.setS f v i j).numVfs = s.numVfs := rfl
@[simp] theorem State.setS_linkUp (s : State) (f : Fld) (v : Int) (i j : Nat) : (s.setS f v i j).linkUp = s.linkUp := rfl
@[simp] theorem State.setS_rings (s : State) (f : Fld) (v : Int) (i j : Nat) : (s.setS f v i j).rings = s.rings := rfl
@[simp] theorem State.setS_stores (s : State) (f : Fld) (v : Int) (i j : Nat) : (s.setS f v i j).stores = s.stores := rfl
@[simp] theorem State.setS_lastGrant (s : State) (f : Fld) (v : Int) (i j : Nat) : (s.setS f v i j).lastGrant = s.lastGrant := rfl
@[simp] theorem State.setS_txq (s : State) (f : Fld) (v : Int) (i j : Nat) : (s.setS f v i j).txq = s.txq := rfl
@[simp] theorem State.setS_slots (s : State) (f : Fld) (v : Int) (i j : Nat) : (s.setS f v i j).slots = s.slots := rfl
@[simp] theorem State.setS_cmds (s : State) (f : Fld) (v : Int) (i j : Nat) : (s.setS f v i j).cmds = s.cmds := rfl
@[simp] theorem State.setS_binds (s : State) (f : Fld) (v : Int) (i j : Nat) : (s.setS f v i j).binds = s.binds := rfl
@[simp] theorem State.setS_ports (s : State) (f : Fld) (v : Int) (i j : Nat) : (s.setS f v i j).ports = s.ports := rfl
@[simp] theorem State.setS_images (s : State) (f : Fld) (v : Int) (i j : Nat) : (s.setS f v i j).images = s.images := rfl
@[simp] theorem State.setS_progCmds (s : State) (f : Fld) (v : Int) (i j : Nat) : (s.setS f v i j).progCmds = s.progCmds := rfl
@[simp] theorem State.setS_runs (s : State) (f : Fld) (v : Int) (i j : Nat) : (s.setS f v i j).runs = s.runs := rfl
@[simp] theorem State.setS_commits (s : State) (f : Fld) (v : Int) (i j : Nat) : (s.setS f v i j).commits = s.commits := rfl
@[simp] theorem State.setS_nextRun (s : State) (f : Fld) (v : Int) (i j : Nat) : (s.setS f v i j).nextRun = s.nextRun := rfl
@[simp] theorem State.setS_cellTabs (s : State) (f : Fld) (v : Int) (i j : Nat) : (s.setS f v i j).cellTabs = s.cellTabs := rfl
@[simp] theorem State.setS_felt (s : State) (f : Fld) (v : Int) (i j : Nat) : (s.setS f v i j).felt = s.felt := rfl
@[simp] theorem State.setS_handles (s : State) (f : Fld) (v : Int) (i j : Nat) : (s.setS f v i j).handles = s.handles := rfl
@[simp] theorem State.setS_pfx (s : State) (f : Fld) (v : Int) (i j : Nat) : (s.setS f v i j).pfx = s.pfx := rfl
@[simp] theorem State.setS_couchTries (s : State) (f : Fld) (v : Int) (i j : Nat) : (s.setS f v i j).couchTries = s.couchTries := rfl
@[simp] theorem State.setS_couchUp (s : State) (f : Fld) (v : Int) (i j : Nat) : (s.setS f v i j).couchUp = s.couchUp := rfl
@[simp] theorem State.setS_gx (s : State) (f : Fld) (v : Int) (i j : Nat) : (s.setS f v i j).gx = s.gx := rfl
@[simp] theorem State.setS_sol (s : State) (f : Fld) (v : Int) (i j : Nat) : (s.setS f v i j).sol = s.sol := rfl
@[simp] theorem State.setS_bl (s : State) (f : Fld) (v : Int) (i j : Nat) : (s.setS f v i j).bl = s.bl := rfl
@[simp] theorem State.setS_pwr (s : State) (f : Fld) (v : Int) (i j : Nat) : (s.setS f v i j).pwr = s.pwr := rfl
@[simp] theorem State.setS_mem (s : State) (f : Fld) (v : Int) (i j : Nat) : (s.setS f v i j).mem = s.mem := rfl
@[simp] theorem State.setS_led (s : State) (f : Fld) (v : Int) (i j : Nat) : (s.setS f v i j).led = s.led := rfl
@[simp] theorem State.setS_iso (s : State) (f : Fld) (v : Int) (i j : Nat) : (s.setS f v i j).iso = s.iso := rfl
@[simp] theorem State.setS_sb (s : State) (f : Fld) (v : Int) (i j : Nat) : (s.setS f v i j).sb = s.sb := rfl
@[simp] theorem State.setS_pkg (s : State) (f : Fld) (v : Int) (i j : Nat) : (s.setS f v i j).pkg = s.pkg := rfl
@[simp] theorem State.setS_sram (s : State) (f : Fld) (v : Int) (i j : Nat) : (s.setS f v i j).sram = s.sram := rfl
@[simp] theorem State.setS_feltMem (s : State) (f : Fld) (v : Int) (i j : Nat) : (s.setS f v i j).feltMem = s.feltMem := rfl
@[simp] theorem State.setS_dram (s : State) (f : Fld) (v : Int) (i j : Nat) : (s.setS f v i j).dram = s.dram := rfl
@[simp] theorem State.setS_post (s : State) (f : Fld) (v : Int) (i j : Nat) : (s.setS f v i j).post = s.post := rfl
@[simp] theorem State.setS_actor (s : State) (f : Fld) (v : Int) (i j : Nat) : (s.setS f v i j).actor = s.actor := rfl
@[simp] theorem State.setS_draws (s : State) (f : Fld) (v : Int) (i j : Nat) : (s.setS f v i j).draws = s.draws := rfl
@[simp] theorem State.setS_pending (s : State) (f : Fld) (v : Int) (i j : Nat) : (s.setS f v i j).pending = s.pending := rfl

/-! ## State.bump -/

@[simp] theorem State.bump_cnt (s : State) (f : Fld) (i j n : Nat) : (s.bump f i j n).cnt = s.cnt := rfl
@[simp] theorem State.bump_frac (s : State) (f : Fld) (i j n : Nat) : (s.bump f i j n).frac = s.frac := rfl
@[simp] theorem State.bump_pend (s : State) (f : Fld) (i j n : Nat) : (s.bump f i j n).pend = s.pend := rfl
@[simp] theorem State.bump_latches (s : State) (f : Fld) (i j n : Nat) : (s.bump f i j n).latches = s.latches := rfl
@[simp] theorem State.bump_genAt (s : State) (f : Fld) (i j n : Nat) : (s.bump f i j n).genAt = s.genAt := rfl
@[simp] theorem State.bump_readData (s : State) (f : Fld) (i j n : Nat) : (s.bump f i j n).readData = s.readData := rfl
@[simp] theorem State.bump_msix (s : State) (f : Fld) (i j n : Nat) : (s.bump f i j n).msix = s.msix := rfl
@[simp] theorem State.bump_ht (s : State) (f : Fld) (i j n : Nat) : (s.bump f i j n).ht = s.ht := rfl
@[simp] theorem State.bump_tt (s : State) (f : Fld) (i j n : Nat) : (s.bump f i j n).tt = s.tt := rfl
@[simp] theorem State.bump_fns (s : State) (f : Fld) (i j n : Nat) : (s.bump f i j n).fns = s.fns := rfl
@[simp] theorem State.bump_vfEnable (s : State) (f : Fld) (i j n : Nat) : (s.bump f i j n).vfEnable = s.vfEnable := rfl
@[simp] theorem State.bump_numVfs (s : State) (f : Fld) (i j n : Nat) : (s.bump f i j n).numVfs = s.numVfs := rfl
@[simp] theorem State.bump_linkUp (s : State) (f : Fld) (i j n : Nat) : (s.bump f i j n).linkUp = s.linkUp := rfl
@[simp] theorem State.bump_rings (s : State) (f : Fld) (i j n : Nat) : (s.bump f i j n).rings = s.rings := rfl
@[simp] theorem State.bump_stores (s : State) (f : Fld) (i j n : Nat) : (s.bump f i j n).stores = s.stores := rfl
@[simp] theorem State.bump_lastGrant (s : State) (f : Fld) (i j n : Nat) : (s.bump f i j n).lastGrant = s.lastGrant := rfl
@[simp] theorem State.bump_txq (s : State) (f : Fld) (i j n : Nat) : (s.bump f i j n).txq = s.txq := rfl
@[simp] theorem State.bump_slots (s : State) (f : Fld) (i j n : Nat) : (s.bump f i j n).slots = s.slots := rfl
@[simp] theorem State.bump_cmds (s : State) (f : Fld) (i j n : Nat) : (s.bump f i j n).cmds = s.cmds := rfl
@[simp] theorem State.bump_binds (s : State) (f : Fld) (i j n : Nat) : (s.bump f i j n).binds = s.binds := rfl
@[simp] theorem State.bump_ports (s : State) (f : Fld) (i j n : Nat) : (s.bump f i j n).ports = s.ports := rfl
@[simp] theorem State.bump_images (s : State) (f : Fld) (i j n : Nat) : (s.bump f i j n).images = s.images := rfl
@[simp] theorem State.bump_progCmds (s : State) (f : Fld) (i j n : Nat) : (s.bump f i j n).progCmds = s.progCmds := rfl
@[simp] theorem State.bump_runs (s : State) (f : Fld) (i j n : Nat) : (s.bump f i j n).runs = s.runs := rfl
@[simp] theorem State.bump_commits (s : State) (f : Fld) (i j n : Nat) : (s.bump f i j n).commits = s.commits := rfl
@[simp] theorem State.bump_nextRun (s : State) (f : Fld) (i j n : Nat) : (s.bump f i j n).nextRun = s.nextRun := rfl
@[simp] theorem State.bump_cellTabs (s : State) (f : Fld) (i j n : Nat) : (s.bump f i j n).cellTabs = s.cellTabs := rfl
@[simp] theorem State.bump_felt (s : State) (f : Fld) (i j n : Nat) : (s.bump f i j n).felt = s.felt := rfl
@[simp] theorem State.bump_handles (s : State) (f : Fld) (i j n : Nat) : (s.bump f i j n).handles = s.handles := rfl
@[simp] theorem State.bump_pfx (s : State) (f : Fld) (i j n : Nat) : (s.bump f i j n).pfx = s.pfx := rfl
@[simp] theorem State.bump_couchTries (s : State) (f : Fld) (i j n : Nat) : (s.bump f i j n).couchTries = s.couchTries := rfl
@[simp] theorem State.bump_couchUp (s : State) (f : Fld) (i j n : Nat) : (s.bump f i j n).couchUp = s.couchUp := rfl
@[simp] theorem State.bump_gx (s : State) (f : Fld) (i j n : Nat) : (s.bump f i j n).gx = s.gx := rfl
@[simp] theorem State.bump_sol (s : State) (f : Fld) (i j n : Nat) : (s.bump f i j n).sol = s.sol := rfl
@[simp] theorem State.bump_bl (s : State) (f : Fld) (i j n : Nat) : (s.bump f i j n).bl = s.bl := rfl
@[simp] theorem State.bump_pwr (s : State) (f : Fld) (i j n : Nat) : (s.bump f i j n).pwr = s.pwr := rfl
@[simp] theorem State.bump_mem (s : State) (f : Fld) (i j n : Nat) : (s.bump f i j n).mem = s.mem := rfl
@[simp] theorem State.bump_led (s : State) (f : Fld) (i j n : Nat) : (s.bump f i j n).led = s.led := rfl
@[simp] theorem State.bump_iso (s : State) (f : Fld) (i j n : Nat) : (s.bump f i j n).iso = s.iso := rfl
@[simp] theorem State.bump_sb (s : State) (f : Fld) (i j n : Nat) : (s.bump f i j n).sb = s.sb := rfl
@[simp] theorem State.bump_pkg (s : State) (f : Fld) (i j n : Nat) : (s.bump f i j n).pkg = s.pkg := rfl
@[simp] theorem State.bump_sram (s : State) (f : Fld) (i j n : Nat) : (s.bump f i j n).sram = s.sram := rfl
@[simp] theorem State.bump_feltMem (s : State) (f : Fld) (i j n : Nat) : (s.bump f i j n).feltMem = s.feltMem := rfl
@[simp] theorem State.bump_dram (s : State) (f : Fld) (i j n : Nat) : (s.bump f i j n).dram = s.dram := rfl
@[simp] theorem State.bump_post (s : State) (f : Fld) (i j n : Nat) : (s.bump f i j n).post = s.post := rfl
@[simp] theorem State.bump_actor (s : State) (f : Fld) (i j n : Nat) : (s.bump f i j n).actor = s.actor := rfl
@[simp] theorem State.bump_draws (s : State) (f : Fld) (i j n : Nat) : (s.bump f i j n).draws = s.draws := rfl
@[simp] theorem State.bump_pending (s : State) (f : Fld) (i j n : Nat) : (s.bump f i j n).pending = s.pending := rfl

/-! ## State.bumpSat -/

@[simp] theorem State.bumpSat_cnt (s : State) (f : Fld) (i j n : Nat) : (s.bumpSat f i j n).cnt = s.cnt := rfl
@[simp] theorem State.bumpSat_frac (s : State) (f : Fld) (i j n : Nat) : (s.bumpSat f i j n).frac = s.frac := rfl
@[simp] theorem State.bumpSat_pend (s : State) (f : Fld) (i j n : Nat) : (s.bumpSat f i j n).pend = s.pend := rfl
@[simp] theorem State.bumpSat_latches (s : State) (f : Fld) (i j n : Nat) : (s.bumpSat f i j n).latches = s.latches := rfl
@[simp] theorem State.bumpSat_genAt (s : State) (f : Fld) (i j n : Nat) : (s.bumpSat f i j n).genAt = s.genAt := rfl
@[simp] theorem State.bumpSat_readData (s : State) (f : Fld) (i j n : Nat) : (s.bumpSat f i j n).readData = s.readData := rfl
@[simp] theorem State.bumpSat_msix (s : State) (f : Fld) (i j n : Nat) : (s.bumpSat f i j n).msix = s.msix := rfl
@[simp] theorem State.bumpSat_ht (s : State) (f : Fld) (i j n : Nat) : (s.bumpSat f i j n).ht = s.ht := rfl
@[simp] theorem State.bumpSat_tt (s : State) (f : Fld) (i j n : Nat) : (s.bumpSat f i j n).tt = s.tt := rfl
@[simp] theorem State.bumpSat_fns (s : State) (f : Fld) (i j n : Nat) : (s.bumpSat f i j n).fns = s.fns := rfl
@[simp] theorem State.bumpSat_vfEnable (s : State) (f : Fld) (i j n : Nat) : (s.bumpSat f i j n).vfEnable = s.vfEnable := rfl
@[simp] theorem State.bumpSat_numVfs (s : State) (f : Fld) (i j n : Nat) : (s.bumpSat f i j n).numVfs = s.numVfs := rfl
@[simp] theorem State.bumpSat_linkUp (s : State) (f : Fld) (i j n : Nat) : (s.bumpSat f i j n).linkUp = s.linkUp := rfl
@[simp] theorem State.bumpSat_rings (s : State) (f : Fld) (i j n : Nat) : (s.bumpSat f i j n).rings = s.rings := rfl
@[simp] theorem State.bumpSat_stores (s : State) (f : Fld) (i j n : Nat) : (s.bumpSat f i j n).stores = s.stores := rfl
@[simp] theorem State.bumpSat_lastGrant (s : State) (f : Fld) (i j n : Nat) : (s.bumpSat f i j n).lastGrant = s.lastGrant := rfl
@[simp] theorem State.bumpSat_txq (s : State) (f : Fld) (i j n : Nat) : (s.bumpSat f i j n).txq = s.txq := rfl
@[simp] theorem State.bumpSat_slots (s : State) (f : Fld) (i j n : Nat) : (s.bumpSat f i j n).slots = s.slots := rfl
@[simp] theorem State.bumpSat_cmds (s : State) (f : Fld) (i j n : Nat) : (s.bumpSat f i j n).cmds = s.cmds := rfl
@[simp] theorem State.bumpSat_binds (s : State) (f : Fld) (i j n : Nat) : (s.bumpSat f i j n).binds = s.binds := rfl
@[simp] theorem State.bumpSat_ports (s : State) (f : Fld) (i j n : Nat) : (s.bumpSat f i j n).ports = s.ports := rfl
@[simp] theorem State.bumpSat_images (s : State) (f : Fld) (i j n : Nat) : (s.bumpSat f i j n).images = s.images := rfl
@[simp] theorem State.bumpSat_progCmds (s : State) (f : Fld) (i j n : Nat) : (s.bumpSat f i j n).progCmds = s.progCmds := rfl
@[simp] theorem State.bumpSat_runs (s : State) (f : Fld) (i j n : Nat) : (s.bumpSat f i j n).runs = s.runs := rfl
@[simp] theorem State.bumpSat_commits (s : State) (f : Fld) (i j n : Nat) : (s.bumpSat f i j n).commits = s.commits := rfl
@[simp] theorem State.bumpSat_nextRun (s : State) (f : Fld) (i j n : Nat) : (s.bumpSat f i j n).nextRun = s.nextRun := rfl
@[simp] theorem State.bumpSat_cellTabs (s : State) (f : Fld) (i j n : Nat) : (s.bumpSat f i j n).cellTabs = s.cellTabs := rfl
@[simp] theorem State.bumpSat_felt (s : State) (f : Fld) (i j n : Nat) : (s.bumpSat f i j n).felt = s.felt := rfl
@[simp] theorem State.bumpSat_handles (s : State) (f : Fld) (i j n : Nat) : (s.bumpSat f i j n).handles = s.handles := rfl
@[simp] theorem State.bumpSat_pfx (s : State) (f : Fld) (i j n : Nat) : (s.bumpSat f i j n).pfx = s.pfx := rfl
@[simp] theorem State.bumpSat_couchTries (s : State) (f : Fld) (i j n : Nat) : (s.bumpSat f i j n).couchTries = s.couchTries := rfl
@[simp] theorem State.bumpSat_couchUp (s : State) (f : Fld) (i j n : Nat) : (s.bumpSat f i j n).couchUp = s.couchUp := rfl
@[simp] theorem State.bumpSat_gx (s : State) (f : Fld) (i j n : Nat) : (s.bumpSat f i j n).gx = s.gx := rfl
@[simp] theorem State.bumpSat_sol (s : State) (f : Fld) (i j n : Nat) : (s.bumpSat f i j n).sol = s.sol := rfl
@[simp] theorem State.bumpSat_bl (s : State) (f : Fld) (i j n : Nat) : (s.bumpSat f i j n).bl = s.bl := rfl
@[simp] theorem State.bumpSat_pwr (s : State) (f : Fld) (i j n : Nat) : (s.bumpSat f i j n).pwr = s.pwr := rfl
@[simp] theorem State.bumpSat_mem (s : State) (f : Fld) (i j n : Nat) : (s.bumpSat f i j n).mem = s.mem := rfl
@[simp] theorem State.bumpSat_led (s : State) (f : Fld) (i j n : Nat) : (s.bumpSat f i j n).led = s.led := rfl
@[simp] theorem State.bumpSat_iso (s : State) (f : Fld) (i j n : Nat) : (s.bumpSat f i j n).iso = s.iso := rfl
@[simp] theorem State.bumpSat_sb (s : State) (f : Fld) (i j n : Nat) : (s.bumpSat f i j n).sb = s.sb := rfl
@[simp] theorem State.bumpSat_pkg (s : State) (f : Fld) (i j n : Nat) : (s.bumpSat f i j n).pkg = s.pkg := rfl
@[simp] theorem State.bumpSat_sram (s : State) (f : Fld) (i j n : Nat) : (s.bumpSat f i j n).sram = s.sram := rfl
@[simp] theorem State.bumpSat_feltMem (s : State) (f : Fld) (i j n : Nat) : (s.bumpSat f i j n).feltMem = s.feltMem := rfl
@[simp] theorem State.bumpSat_dram (s : State) (f : Fld) (i j n : Nat) : (s.bumpSat f i j n).dram = s.dram := rfl
@[simp] theorem State.bumpSat_post (s : State) (f : Fld) (i j n : Nat) : (s.bumpSat f i j n).post = s.post := rfl
@[simp] theorem State.bumpSat_actor (s : State) (f : Fld) (i j n : Nat) : (s.bumpSat f i j n).actor = s.actor := rfl
@[simp] theorem State.bumpSat_draws (s : State) (f : Fld) (i j n : Nat) : (s.bumpSat f i j n).draws = s.draws := rfl
@[simp] theorem State.bumpSat_pending (s : State) (f : Fld) (i j n : Nat) : (s.bumpSat f i j n).pending = s.pending := rfl

/-! ## State.set2 -/

@[simp] theorem State.set2_cnt (s : State) (lo hi : Fld) (v i j : Nat) : (s.set2 lo hi v i j).cnt = s.cnt := rfl
@[simp] theorem State.set2_frac (s : State) (lo hi : Fld) (v i j : Nat) : (s.set2 lo hi v i j).frac = s.frac := rfl
@[simp] theorem State.set2_pend (s : State) (lo hi : Fld) (v i j : Nat) : (s.set2 lo hi v i j).pend = s.pend := rfl
@[simp] theorem State.set2_latches (s : State) (lo hi : Fld) (v i j : Nat) : (s.set2 lo hi v i j).latches = s.latches := rfl
@[simp] theorem State.set2_genAt (s : State) (lo hi : Fld) (v i j : Nat) : (s.set2 lo hi v i j).genAt = s.genAt := rfl
@[simp] theorem State.set2_readData (s : State) (lo hi : Fld) (v i j : Nat) : (s.set2 lo hi v i j).readData = s.readData := rfl
@[simp] theorem State.set2_msix (s : State) (lo hi : Fld) (v i j : Nat) : (s.set2 lo hi v i j).msix = s.msix := rfl
@[simp] theorem State.set2_ht (s : State) (lo hi : Fld) (v i j : Nat) : (s.set2 lo hi v i j).ht = s.ht := rfl
@[simp] theorem State.set2_tt (s : State) (lo hi : Fld) (v i j : Nat) : (s.set2 lo hi v i j).tt = s.tt := rfl
@[simp] theorem State.set2_fns (s : State) (lo hi : Fld) (v i j : Nat) : (s.set2 lo hi v i j).fns = s.fns := rfl
@[simp] theorem State.set2_vfEnable (s : State) (lo hi : Fld) (v i j : Nat) : (s.set2 lo hi v i j).vfEnable = s.vfEnable := rfl
@[simp] theorem State.set2_numVfs (s : State) (lo hi : Fld) (v i j : Nat) : (s.set2 lo hi v i j).numVfs = s.numVfs := rfl
@[simp] theorem State.set2_linkUp (s : State) (lo hi : Fld) (v i j : Nat) : (s.set2 lo hi v i j).linkUp = s.linkUp := rfl
@[simp] theorem State.set2_rings (s : State) (lo hi : Fld) (v i j : Nat) : (s.set2 lo hi v i j).rings = s.rings := rfl
@[simp] theorem State.set2_stores (s : State) (lo hi : Fld) (v i j : Nat) : (s.set2 lo hi v i j).stores = s.stores := rfl
@[simp] theorem State.set2_lastGrant (s : State) (lo hi : Fld) (v i j : Nat) : (s.set2 lo hi v i j).lastGrant = s.lastGrant := rfl
@[simp] theorem State.set2_txq (s : State) (lo hi : Fld) (v i j : Nat) : (s.set2 lo hi v i j).txq = s.txq := rfl
@[simp] theorem State.set2_slots (s : State) (lo hi : Fld) (v i j : Nat) : (s.set2 lo hi v i j).slots = s.slots := rfl
@[simp] theorem State.set2_cmds (s : State) (lo hi : Fld) (v i j : Nat) : (s.set2 lo hi v i j).cmds = s.cmds := rfl
@[simp] theorem State.set2_binds (s : State) (lo hi : Fld) (v i j : Nat) : (s.set2 lo hi v i j).binds = s.binds := rfl
@[simp] theorem State.set2_ports (s : State) (lo hi : Fld) (v i j : Nat) : (s.set2 lo hi v i j).ports = s.ports := rfl
@[simp] theorem State.set2_images (s : State) (lo hi : Fld) (v i j : Nat) : (s.set2 lo hi v i j).images = s.images := rfl
@[simp] theorem State.set2_progCmds (s : State) (lo hi : Fld) (v i j : Nat) : (s.set2 lo hi v i j).progCmds = s.progCmds := rfl
@[simp] theorem State.set2_runs (s : State) (lo hi : Fld) (v i j : Nat) : (s.set2 lo hi v i j).runs = s.runs := rfl
@[simp] theorem State.set2_commits (s : State) (lo hi : Fld) (v i j : Nat) : (s.set2 lo hi v i j).commits = s.commits := rfl
@[simp] theorem State.set2_nextRun (s : State) (lo hi : Fld) (v i j : Nat) : (s.set2 lo hi v i j).nextRun = s.nextRun := rfl
@[simp] theorem State.set2_cellTabs (s : State) (lo hi : Fld) (v i j : Nat) : (s.set2 lo hi v i j).cellTabs = s.cellTabs := rfl
@[simp] theorem State.set2_felt (s : State) (lo hi : Fld) (v i j : Nat) : (s.set2 lo hi v i j).felt = s.felt := rfl
@[simp] theorem State.set2_handles (s : State) (lo hi : Fld) (v i j : Nat) : (s.set2 lo hi v i j).handles = s.handles := rfl
@[simp] theorem State.set2_pfx (s : State) (lo hi : Fld) (v i j : Nat) : (s.set2 lo hi v i j).pfx = s.pfx := rfl
@[simp] theorem State.set2_couchTries (s : State) (lo hi : Fld) (v i j : Nat) : (s.set2 lo hi v i j).couchTries = s.couchTries := rfl
@[simp] theorem State.set2_couchUp (s : State) (lo hi : Fld) (v i j : Nat) : (s.set2 lo hi v i j).couchUp = s.couchUp := rfl
@[simp] theorem State.set2_gx (s : State) (lo hi : Fld) (v i j : Nat) : (s.set2 lo hi v i j).gx = s.gx := rfl
@[simp] theorem State.set2_sol (s : State) (lo hi : Fld) (v i j : Nat) : (s.set2 lo hi v i j).sol = s.sol := rfl
@[simp] theorem State.set2_bl (s : State) (lo hi : Fld) (v i j : Nat) : (s.set2 lo hi v i j).bl = s.bl := rfl
@[simp] theorem State.set2_pwr (s : State) (lo hi : Fld) (v i j : Nat) : (s.set2 lo hi v i j).pwr = s.pwr := rfl
@[simp] theorem State.set2_mem (s : State) (lo hi : Fld) (v i j : Nat) : (s.set2 lo hi v i j).mem = s.mem := rfl
@[simp] theorem State.set2_led (s : State) (lo hi : Fld) (v i j : Nat) : (s.set2 lo hi v i j).led = s.led := rfl
@[simp] theorem State.set2_iso (s : State) (lo hi : Fld) (v i j : Nat) : (s.set2 lo hi v i j).iso = s.iso := rfl
@[simp] theorem State.set2_sb (s : State) (lo hi : Fld) (v i j : Nat) : (s.set2 lo hi v i j).sb = s.sb := rfl
@[simp] theorem State.set2_pkg (s : State) (lo hi : Fld) (v i j : Nat) : (s.set2 lo hi v i j).pkg = s.pkg := rfl
@[simp] theorem State.set2_sram (s : State) (lo hi : Fld) (v i j : Nat) : (s.set2 lo hi v i j).sram = s.sram := rfl
@[simp] theorem State.set2_feltMem (s : State) (lo hi : Fld) (v i j : Nat) : (s.set2 lo hi v i j).feltMem = s.feltMem := rfl
@[simp] theorem State.set2_dram (s : State) (lo hi : Fld) (v i j : Nat) : (s.set2 lo hi v i j).dram = s.dram := rfl
@[simp] theorem State.set2_post (s : State) (lo hi : Fld) (v i j : Nat) : (s.set2 lo hi v i j).post = s.post := rfl
@[simp] theorem State.set2_actor (s : State) (lo hi : Fld) (v i j : Nat) : (s.set2 lo hi v i j).actor = s.actor := rfl
@[simp] theorem State.set2_draws (s : State) (lo hi : Fld) (v i j : Nat) : (s.set2 lo hi v i j).draws = s.draws := rfl
@[simp] theorem State.set2_pending (s : State) (lo hi : Fld) (v i j : Nat) : (s.set2 lo hi v i j).pending = s.pending := rfl

/-! ## State.elapse -/

@[simp] theorem State.elapse_regs (s : State) (dt : Nat) : (s.elapse dt).regs = s.regs := rfl
@[simp] theorem State.elapse_pend (s : State) (dt : Nat) : (s.elapse dt).pend = s.pend := rfl
@[simp] theorem State.elapse_latches (s : State) (dt : Nat) : (s.elapse dt).latches = s.latches := rfl
@[simp] theorem State.elapse_genAt (s : State) (dt : Nat) : (s.elapse dt).genAt = s.genAt := rfl
@[simp] theorem State.elapse_readData (s : State) (dt : Nat) : (s.elapse dt).readData = s.readData := rfl
@[simp] theorem State.elapse_msix (s : State) (dt : Nat) : (s.elapse dt).msix = s.msix := rfl
@[simp] theorem State.elapse_ht (s : State) (dt : Nat) : (s.elapse dt).ht = s.ht := rfl
@[simp] theorem State.elapse_tt (s : State) (dt : Nat) : (s.elapse dt).tt = s.tt := rfl
@[simp] theorem State.elapse_fns (s : State) (dt : Nat) : (s.elapse dt).fns = s.fns := rfl
@[simp] theorem State.elapse_vfEnable (s : State) (dt : Nat) : (s.elapse dt).vfEnable = s.vfEnable := rfl
@[simp] theorem State.elapse_numVfs (s : State) (dt : Nat) : (s.elapse dt).numVfs = s.numVfs := rfl
@[simp] theorem State.elapse_linkUp (s : State) (dt : Nat) : (s.elapse dt).linkUp = s.linkUp := rfl
@[simp] theorem State.elapse_rings (s : State) (dt : Nat) : (s.elapse dt).rings = s.rings := rfl
@[simp] theorem State.elapse_stores (s : State) (dt : Nat) : (s.elapse dt).stores = s.stores := rfl
@[simp] theorem State.elapse_lastGrant (s : State) (dt : Nat) : (s.elapse dt).lastGrant = s.lastGrant := rfl
@[simp] theorem State.elapse_txq (s : State) (dt : Nat) : (s.elapse dt).txq = s.txq := rfl
@[simp] theorem State.elapse_slots (s : State) (dt : Nat) : (s.elapse dt).slots = s.slots := rfl
@[simp] theorem State.elapse_cmds (s : State) (dt : Nat) : (s.elapse dt).cmds = s.cmds := rfl
@[simp] theorem State.elapse_binds (s : State) (dt : Nat) : (s.elapse dt).binds = s.binds := rfl
@[simp] theorem State.elapse_ports (s : State) (dt : Nat) : (s.elapse dt).ports = s.ports := rfl
@[simp] theorem State.elapse_images (s : State) (dt : Nat) : (s.elapse dt).images = s.images := rfl
@[simp] theorem State.elapse_progCmds (s : State) (dt : Nat) : (s.elapse dt).progCmds = s.progCmds := rfl
@[simp] theorem State.elapse_runs (s : State) (dt : Nat) : (s.elapse dt).runs = s.runs := rfl
@[simp] theorem State.elapse_commits (s : State) (dt : Nat) : (s.elapse dt).commits = s.commits := rfl
@[simp] theorem State.elapse_nextRun (s : State) (dt : Nat) : (s.elapse dt).nextRun = s.nextRun := rfl
@[simp] theorem State.elapse_cellTabs (s : State) (dt : Nat) : (s.elapse dt).cellTabs = s.cellTabs := rfl
@[simp] theorem State.elapse_felt (s : State) (dt : Nat) : (s.elapse dt).felt = s.felt := rfl
@[simp] theorem State.elapse_handles (s : State) (dt : Nat) : (s.elapse dt).handles = s.handles := rfl
@[simp] theorem State.elapse_pfx (s : State) (dt : Nat) : (s.elapse dt).pfx = s.pfx := rfl
@[simp] theorem State.elapse_couchTries (s : State) (dt : Nat) : (s.elapse dt).couchTries = s.couchTries := rfl
@[simp] theorem State.elapse_couchUp (s : State) (dt : Nat) : (s.elapse dt).couchUp = s.couchUp := rfl
@[simp] theorem State.elapse_gx (s : State) (dt : Nat) : (s.elapse dt).gx = s.gx := rfl
@[simp] theorem State.elapse_sol (s : State) (dt : Nat) : (s.elapse dt).sol = s.sol := rfl
@[simp] theorem State.elapse_bl (s : State) (dt : Nat) : (s.elapse dt).bl = s.bl := rfl
@[simp] theorem State.elapse_pwr (s : State) (dt : Nat) : (s.elapse dt).pwr = s.pwr := rfl
@[simp] theorem State.elapse_mem (s : State) (dt : Nat) : (s.elapse dt).mem = s.mem := rfl
@[simp] theorem State.elapse_led (s : State) (dt : Nat) : (s.elapse dt).led = s.led := rfl
@[simp] theorem State.elapse_iso (s : State) (dt : Nat) : (s.elapse dt).iso = s.iso := rfl
@[simp] theorem State.elapse_sb (s : State) (dt : Nat) : (s.elapse dt).sb = s.sb := rfl
@[simp] theorem State.elapse_pkg (s : State) (dt : Nat) : (s.elapse dt).pkg = s.pkg := rfl
@[simp] theorem State.elapse_sram (s : State) (dt : Nat) : (s.elapse dt).sram = s.sram := rfl
@[simp] theorem State.elapse_feltMem (s : State) (dt : Nat) : (s.elapse dt).feltMem = s.feltMem := rfl
@[simp] theorem State.elapse_dram (s : State) (dt : Nat) : (s.elapse dt).dram = s.dram := rfl
@[simp] theorem State.elapse_post (s : State) (dt : Nat) : (s.elapse dt).post = s.post := rfl
@[simp] theorem State.elapse_actor (s : State) (dt : Nat) : (s.elapse dt).actor = s.actor := rfl
@[simp] theorem State.elapse_draws (s : State) (dt : Nat) : (s.elapse dt).draws = s.draws := rfl
@[simp] theorem State.elapse_pending (s : State) (dt : Nat) : (s.elapse dt).pending = s.pending := rfl

/-! ## State.reach -/

@[simp] theorem State.reach_regs (s : State) (n : Nat) : (s.reach n).regs = s.regs := by unfold State.reach; split <;> rfl
@[simp] theorem State.reach_pend (s : State) (n : Nat) : (s.reach n).pend = s.pend := by unfold State.reach; split <;> rfl
@[simp] theorem State.reach_latches (s : State) (n : Nat) : (s.reach n).latches = s.latches := by unfold State.reach; split <;> rfl
@[simp] theorem State.reach_genAt (s : State) (n : Nat) : (s.reach n).genAt = s.genAt := by unfold State.reach; split <;> rfl
@[simp] theorem State.reach_readData (s : State) (n : Nat) : (s.reach n).readData = s.readData := by unfold State.reach; split <;> rfl
@[simp] theorem State.reach_msix (s : State) (n : Nat) : (s.reach n).msix = s.msix := by unfold State.reach; split <;> rfl
@[simp] theorem State.reach_ht (s : State) (n : Nat) : (s.reach n).ht = s.ht := by unfold State.reach; split <;> rfl
@[simp] theorem State.reach_tt (s : State) (n : Nat) : (s.reach n).tt = s.tt := by unfold State.reach; split <;> rfl
@[simp] theorem State.reach_fns (s : State) (n : Nat) : (s.reach n).fns = s.fns := by unfold State.reach; split <;> rfl
@[simp] theorem State.reach_vfEnable (s : State) (n : Nat) : (s.reach n).vfEnable = s.vfEnable := by unfold State.reach; split <;> rfl
@[simp] theorem State.reach_numVfs (s : State) (n : Nat) : (s.reach n).numVfs = s.numVfs := by unfold State.reach; split <;> rfl
@[simp] theorem State.reach_linkUp (s : State) (n : Nat) : (s.reach n).linkUp = s.linkUp := by unfold State.reach; split <;> rfl
@[simp] theorem State.reach_rings (s : State) (n : Nat) : (s.reach n).rings = s.rings := by unfold State.reach; split <;> rfl
@[simp] theorem State.reach_stores (s : State) (n : Nat) : (s.reach n).stores = s.stores := by unfold State.reach; split <;> rfl
@[simp] theorem State.reach_lastGrant (s : State) (n : Nat) : (s.reach n).lastGrant = s.lastGrant := by unfold State.reach; split <;> rfl
@[simp] theorem State.reach_txq (s : State) (n : Nat) : (s.reach n).txq = s.txq := by unfold State.reach; split <;> rfl
@[simp] theorem State.reach_slots (s : State) (n : Nat) : (s.reach n).slots = s.slots := by unfold State.reach; split <;> rfl
@[simp] theorem State.reach_cmds (s : State) (n : Nat) : (s.reach n).cmds = s.cmds := by unfold State.reach; split <;> rfl
@[simp] theorem State.reach_binds (s : State) (n : Nat) : (s.reach n).binds = s.binds := by unfold State.reach; split <;> rfl
@[simp] theorem State.reach_ports (s : State) (n : Nat) : (s.reach n).ports = s.ports := by unfold State.reach; split <;> rfl
@[simp] theorem State.reach_images (s : State) (n : Nat) : (s.reach n).images = s.images := by unfold State.reach; split <;> rfl
@[simp] theorem State.reach_progCmds (s : State) (n : Nat) : (s.reach n).progCmds = s.progCmds := by unfold State.reach; split <;> rfl
@[simp] theorem State.reach_runs (s : State) (n : Nat) : (s.reach n).runs = s.runs := by unfold State.reach; split <;> rfl
@[simp] theorem State.reach_commits (s : State) (n : Nat) : (s.reach n).commits = s.commits := by unfold State.reach; split <;> rfl
@[simp] theorem State.reach_nextRun (s : State) (n : Nat) : (s.reach n).nextRun = s.nextRun := by unfold State.reach; split <;> rfl
@[simp] theorem State.reach_cellTabs (s : State) (n : Nat) : (s.reach n).cellTabs = s.cellTabs := by unfold State.reach; split <;> rfl
@[simp] theorem State.reach_felt (s : State) (n : Nat) : (s.reach n).felt = s.felt := by unfold State.reach; split <;> rfl
@[simp] theorem State.reach_handles (s : State) (n : Nat) : (s.reach n).handles = s.handles := by unfold State.reach; split <;> rfl
@[simp] theorem State.reach_pfx (s : State) (n : Nat) : (s.reach n).pfx = s.pfx := by unfold State.reach; split <;> rfl
@[simp] theorem State.reach_couchTries (s : State) (n : Nat) : (s.reach n).couchTries = s.couchTries := by unfold State.reach; split <;> rfl
@[simp] theorem State.reach_couchUp (s : State) (n : Nat) : (s.reach n).couchUp = s.couchUp := by unfold State.reach; split <;> rfl
@[simp] theorem State.reach_gx (s : State) (n : Nat) : (s.reach n).gx = s.gx := by unfold State.reach; split <;> rfl
@[simp] theorem State.reach_sol (s : State) (n : Nat) : (s.reach n).sol = s.sol := by unfold State.reach; split <;> rfl
@[simp] theorem State.reach_bl (s : State) (n : Nat) : (s.reach n).bl = s.bl := by unfold State.reach; split <;> rfl
@[simp] theorem State.reach_pwr (s : State) (n : Nat) : (s.reach n).pwr = s.pwr := by unfold State.reach; split <;> rfl
@[simp] theorem State.reach_mem (s : State) (n : Nat) : (s.reach n).mem = s.mem := by unfold State.reach; split <;> rfl
@[simp] theorem State.reach_led (s : State) (n : Nat) : (s.reach n).led = s.led := by unfold State.reach; split <;> rfl
@[simp] theorem State.reach_iso (s : State) (n : Nat) : (s.reach n).iso = s.iso := by unfold State.reach; split <;> rfl
@[simp] theorem State.reach_sb (s : State) (n : Nat) : (s.reach n).sb = s.sb := by unfold State.reach; split <;> rfl
@[simp] theorem State.reach_pkg (s : State) (n : Nat) : (s.reach n).pkg = s.pkg := by unfold State.reach; split <;> rfl
@[simp] theorem State.reach_sram (s : State) (n : Nat) : (s.reach n).sram = s.sram := by unfold State.reach; split <;> rfl
@[simp] theorem State.reach_feltMem (s : State) (n : Nat) : (s.reach n).feltMem = s.feltMem := by unfold State.reach; split <;> rfl
@[simp] theorem State.reach_dram (s : State) (n : Nat) : (s.reach n).dram = s.dram := by unfold State.reach; split <;> rfl
@[simp] theorem State.reach_post (s : State) (n : Nat) : (s.reach n).post = s.post := by unfold State.reach; split <;> rfl
@[simp] theorem State.reach_actor (s : State) (n : Nat) : (s.reach n).actor = s.actor := by unfold State.reach; split <;> rfl
@[simp] theorem State.reach_draws (s : State) (n : Nat) : (s.reach n).draws = s.draws := by unfold State.reach; split <;> rfl
@[simp] theorem State.reach_pending (s : State) (n : Nat) : (s.reach n).pending = s.pending := by unfold State.reach; split <;> rfl

/-! ## State.latch -/

@[simp] theorem State.latch_cnt (s : State) (p : Party) (f : Fld) (v i j : Nat) : (s.latch p f v i j).cnt = s.cnt := rfl
@[simp] theorem State.latch_frac (s : State) (p : Party) (f : Fld) (v i j : Nat) : (s.latch p f v i j).frac = s.frac := rfl
@[simp] theorem State.latch_regs (s : State) (p : Party) (f : Fld) (v i j : Nat) : (s.latch p f v i j).regs = s.regs := rfl
@[simp] theorem State.latch_pend (s : State) (p : Party) (f : Fld) (v i j : Nat) : (s.latch p f v i j).pend = s.pend := rfl
@[simp] theorem State.latch_genAt (s : State) (p : Party) (f : Fld) (v i j : Nat) : (s.latch p f v i j).genAt = s.genAt := rfl
@[simp] theorem State.latch_readData (s : State) (p : Party) (f : Fld) (v i j : Nat) : (s.latch p f v i j).readData = s.readData := rfl
@[simp] theorem State.latch_msix (s : State) (p : Party) (f : Fld) (v i j : Nat) : (s.latch p f v i j).msix = s.msix := rfl
@[simp] theorem State.latch_ht (s : State) (p : Party) (f : Fld) (v i j : Nat) : (s.latch p f v i j).ht = s.ht := rfl
@[simp] theorem State.latch_tt (s : State) (p : Party) (f : Fld) (v i j : Nat) : (s.latch p f v i j).tt = s.tt := rfl
@[simp] theorem State.latch_fns (s : State) (p : Party) (f : Fld) (v i j : Nat) : (s.latch p f v i j).fns = s.fns := rfl
@[simp] theorem State.latch_vfEnable (s : State) (p : Party) (f : Fld) (v i j : Nat) : (s.latch p f v i j).vfEnable = s.vfEnable := rfl
@[simp] theorem State.latch_numVfs (s : State) (p : Party) (f : Fld) (v i j : Nat) : (s.latch p f v i j).numVfs = s.numVfs := rfl
@[simp] theorem State.latch_linkUp (s : State) (p : Party) (f : Fld) (v i j : Nat) : (s.latch p f v i j).linkUp = s.linkUp := rfl
@[simp] theorem State.latch_rings (s : State) (p : Party) (f : Fld) (v i j : Nat) : (s.latch p f v i j).rings = s.rings := rfl
@[simp] theorem State.latch_stores (s : State) (p : Party) (f : Fld) (v i j : Nat) : (s.latch p f v i j).stores = s.stores := rfl
@[simp] theorem State.latch_lastGrant (s : State) (p : Party) (f : Fld) (v i j : Nat) : (s.latch p f v i j).lastGrant = s.lastGrant := rfl
@[simp] theorem State.latch_txq (s : State) (p : Party) (f : Fld) (v i j : Nat) : (s.latch p f v i j).txq = s.txq := rfl
@[simp] theorem State.latch_slots (s : State) (p : Party) (f : Fld) (v i j : Nat) : (s.latch p f v i j).slots = s.slots := rfl
@[simp] theorem State.latch_cmds (s : State) (p : Party) (f : Fld) (v i j : Nat) : (s.latch p f v i j).cmds = s.cmds := rfl
@[simp] theorem State.latch_binds (s : State) (p : Party) (f : Fld) (v i j : Nat) : (s.latch p f v i j).binds = s.binds := rfl
@[simp] theorem State.latch_ports (s : State) (p : Party) (f : Fld) (v i j : Nat) : (s.latch p f v i j).ports = s.ports := rfl
@[simp] theorem State.latch_images (s : State) (p : Party) (f : Fld) (v i j : Nat) : (s.latch p f v i j).images = s.images := rfl
@[simp] theorem State.latch_progCmds (s : State) (p : Party) (f : Fld) (v i j : Nat) : (s.latch p f v i j).progCmds = s.progCmds := rfl
@[simp] theorem State.latch_runs (s : State) (p : Party) (f : Fld) (v i j : Nat) : (s.latch p f v i j).runs = s.runs := rfl
@[simp] theorem State.latch_commits (s : State) (p : Party) (f : Fld) (v i j : Nat) : (s.latch p f v i j).commits = s.commits := rfl
@[simp] theorem State.latch_nextRun (s : State) (p : Party) (f : Fld) (v i j : Nat) : (s.latch p f v i j).nextRun = s.nextRun := rfl
@[simp] theorem State.latch_cellTabs (s : State) (p : Party) (f : Fld) (v i j : Nat) : (s.latch p f v i j).cellTabs = s.cellTabs := rfl
@[simp] theorem State.latch_felt (s : State) (p : Party) (f : Fld) (v i j : Nat) : (s.latch p f v i j).felt = s.felt := rfl
@[simp] theorem State.latch_handles (s : State) (p : Party) (f : Fld) (v i j : Nat) : (s.latch p f v i j).handles = s.handles := rfl
@[simp] theorem State.latch_pfx (s : State) (p : Party) (f : Fld) (v i j : Nat) : (s.latch p f v i j).pfx = s.pfx := rfl
@[simp] theorem State.latch_couchTries (s : State) (p : Party) (f : Fld) (v i j : Nat) : (s.latch p f v i j).couchTries = s.couchTries := rfl
@[simp] theorem State.latch_couchUp (s : State) (p : Party) (f : Fld) (v i j : Nat) : (s.latch p f v i j).couchUp = s.couchUp := rfl
@[simp] theorem State.latch_gx (s : State) (p : Party) (f : Fld) (v i j : Nat) : (s.latch p f v i j).gx = s.gx := rfl
@[simp] theorem State.latch_sol (s : State) (p : Party) (f : Fld) (v i j : Nat) : (s.latch p f v i j).sol = s.sol := rfl
@[simp] theorem State.latch_bl (s : State) (p : Party) (f : Fld) (v i j : Nat) : (s.latch p f v i j).bl = s.bl := rfl
@[simp] theorem State.latch_pwr (s : State) (p : Party) (f : Fld) (v i j : Nat) : (s.latch p f v i j).pwr = s.pwr := rfl
@[simp] theorem State.latch_mem (s : State) (p : Party) (f : Fld) (v i j : Nat) : (s.latch p f v i j).mem = s.mem := rfl
@[simp] theorem State.latch_led (s : State) (p : Party) (f : Fld) (v i j : Nat) : (s.latch p f v i j).led = s.led := rfl
@[simp] theorem State.latch_iso (s : State) (p : Party) (f : Fld) (v i j : Nat) : (s.latch p f v i j).iso = s.iso := rfl
@[simp] theorem State.latch_sb (s : State) (p : Party) (f : Fld) (v i j : Nat) : (s.latch p f v i j).sb = s.sb := rfl
@[simp] theorem State.latch_pkg (s : State) (p : Party) (f : Fld) (v i j : Nat) : (s.latch p f v i j).pkg = s.pkg := rfl
@[simp] theorem State.latch_sram (s : State) (p : Party) (f : Fld) (v i j : Nat) : (s.latch p f v i j).sram = s.sram := rfl
@[simp] theorem State.latch_feltMem (s : State) (p : Party) (f : Fld) (v i j : Nat) : (s.latch p f v i j).feltMem = s.feltMem := rfl
@[simp] theorem State.latch_dram (s : State) (p : Party) (f : Fld) (v i j : Nat) : (s.latch p f v i j).dram = s.dram := rfl
@[simp] theorem State.latch_post (s : State) (p : Party) (f : Fld) (v i j : Nat) : (s.latch p f v i j).post = s.post := rfl
@[simp] theorem State.latch_actor (s : State) (p : Party) (f : Fld) (v i j : Nat) : (s.latch p f v i j).actor = s.actor := rfl
@[simp] theorem State.latch_draws (s : State) (p : Party) (f : Fld) (v i j : Nat) : (s.latch p f v i j).draws = s.draws := rfl
@[simp] theorem State.latch_pending (s : State) (p : Party) (f : Fld) (v i j : Nat) : (s.latch p f v i j).pending = s.pending := rfl

/-! ## State.returns -/

@[simp] theorem State.returns_cnt (s : State) (v : Nat) : (s.returns v).cnt = s.cnt := rfl
@[simp] theorem State.returns_frac (s : State) (v : Nat) : (s.returns v).frac = s.frac := rfl
@[simp] theorem State.returns_regs (s : State) (v : Nat) : (s.returns v).regs = s.regs := rfl
@[simp] theorem State.returns_pend (s : State) (v : Nat) : (s.returns v).pend = s.pend := rfl
@[simp] theorem State.returns_latches (s : State) (v : Nat) : (s.returns v).latches = s.latches := rfl
@[simp] theorem State.returns_genAt (s : State) (v : Nat) : (s.returns v).genAt = s.genAt := rfl
@[simp] theorem State.returns_msix (s : State) (v : Nat) : (s.returns v).msix = s.msix := rfl
@[simp] theorem State.returns_ht (s : State) (v : Nat) : (s.returns v).ht = s.ht := rfl
@[simp] theorem State.returns_tt (s : State) (v : Nat) : (s.returns v).tt = s.tt := rfl
@[simp] theorem State.returns_fns (s : State) (v : Nat) : (s.returns v).fns = s.fns := rfl
@[simp] theorem State.returns_vfEnable (s : State) (v : Nat) : (s.returns v).vfEnable = s.vfEnable := rfl
@[simp] theorem State.returns_numVfs (s : State) (v : Nat) : (s.returns v).numVfs = s.numVfs := rfl
@[simp] theorem State.returns_linkUp (s : State) (v : Nat) : (s.returns v).linkUp = s.linkUp := rfl
@[simp] theorem State.returns_rings (s : State) (v : Nat) : (s.returns v).rings = s.rings := rfl
@[simp] theorem State.returns_stores (s : State) (v : Nat) : (s.returns v).stores = s.stores := rfl
@[simp] theorem State.returns_lastGrant (s : State) (v : Nat) : (s.returns v).lastGrant = s.lastGrant := rfl
@[simp] theorem State.returns_txq (s : State) (v : Nat) : (s.returns v).txq = s.txq := rfl
@[simp] theorem State.returns_slots (s : State) (v : Nat) : (s.returns v).slots = s.slots := rfl
@[simp] theorem State.returns_cmds (s : State) (v : Nat) : (s.returns v).cmds = s.cmds := rfl
@[simp] theorem State.returns_binds (s : State) (v : Nat) : (s.returns v).binds = s.binds := rfl
@[simp] theorem State.returns_ports (s : State) (v : Nat) : (s.returns v).ports = s.ports := rfl
@[simp] theorem State.returns_images (s : State) (v : Nat) : (s.returns v).images = s.images := rfl
@[simp] theorem State.returns_progCmds (s : State) (v : Nat) : (s.returns v).progCmds = s.progCmds := rfl
@[simp] theorem State.returns_runs (s : State) (v : Nat) : (s.returns v).runs = s.runs := rfl
@[simp] theorem State.returns_commits (s : State) (v : Nat) : (s.returns v).commits = s.commits := rfl
@[simp] theorem State.returns_nextRun (s : State) (v : Nat) : (s.returns v).nextRun = s.nextRun := rfl
@[simp] theorem State.returns_cellTabs (s : State) (v : Nat) : (s.returns v).cellTabs = s.cellTabs := rfl
@[simp] theorem State.returns_felt (s : State) (v : Nat) : (s.returns v).felt = s.felt := rfl
@[simp] theorem State.returns_handles (s : State) (v : Nat) : (s.returns v).handles = s.handles := rfl
@[simp] theorem State.returns_pfx (s : State) (v : Nat) : (s.returns v).pfx = s.pfx := rfl
@[simp] theorem State.returns_couchTries (s : State) (v : Nat) : (s.returns v).couchTries = s.couchTries := rfl
@[simp] theorem State.returns_couchUp (s : State) (v : Nat) : (s.returns v).couchUp = s.couchUp := rfl
@[simp] theorem State.returns_gx (s : State) (v : Nat) : (s.returns v).gx = s.gx := rfl
@[simp] theorem State.returns_sol (s : State) (v : Nat) : (s.returns v).sol = s.sol := rfl
@[simp] theorem State.returns_bl (s : State) (v : Nat) : (s.returns v).bl = s.bl := rfl
@[simp] theorem State.returns_pwr (s : State) (v : Nat) : (s.returns v).pwr = s.pwr := rfl
@[simp] theorem State.returns_mem (s : State) (v : Nat) : (s.returns v).mem = s.mem := rfl
@[simp] theorem State.returns_led (s : State) (v : Nat) : (s.returns v).led = s.led := rfl
@[simp] theorem State.returns_iso (s : State) (v : Nat) : (s.returns v).iso = s.iso := rfl
@[simp] theorem State.returns_sb (s : State) (v : Nat) : (s.returns v).sb = s.sb := rfl
@[simp] theorem State.returns_pkg (s : State) (v : Nat) : (s.returns v).pkg = s.pkg := rfl
@[simp] theorem State.returns_sram (s : State) (v : Nat) : (s.returns v).sram = s.sram := rfl
@[simp] theorem State.returns_feltMem (s : State) (v : Nat) : (s.returns v).feltMem = s.feltMem := rfl
@[simp] theorem State.returns_dram (s : State) (v : Nat) : (s.returns v).dram = s.dram := rfl
@[simp] theorem State.returns_post (s : State) (v : Nat) : (s.returns v).post = s.post := rfl
@[simp] theorem State.returns_actor (s : State) (v : Nat) : (s.returns v).actor = s.actor := rfl
@[simp] theorem State.returns_draws (s : State) (v : Nat) : (s.returns v).draws = s.draws := rfl
@[simp] theorem State.returns_pending (s : State) (v : Nat) : (s.returns v).pending = s.pending := rfl

/-! ## State.bumpGen -/

@[simp] theorem State.bumpGen_cnt (s : State) (p : Page) (i : Nat) : (s.bumpGen p i).cnt = s.cnt := by unfold State.bumpGen; dsimp only; split <;> rfl
@[simp] theorem State.bumpGen_frac (s : State) (p : Page) (i : Nat) : (s.bumpGen p i).frac = s.frac := by unfold State.bumpGen; dsimp only; split <;> rfl
@[simp] theorem State.bumpGen_pend (s : State) (p : Page) (i : Nat) : (s.bumpGen p i).pend = s.pend := by unfold State.bumpGen; dsimp only; split <;> rfl
@[simp] theorem State.bumpGen_latches (s : State) (p : Page) (i : Nat) : (s.bumpGen p i).latches = s.latches := by unfold State.bumpGen; dsimp only; split <;> rfl
@[simp] theorem State.bumpGen_readData (s : State) (p : Page) (i : Nat) : (s.bumpGen p i).readData = s.readData := by unfold State.bumpGen; dsimp only; split <;> rfl
@[simp] theorem State.bumpGen_msix (s : State) (p : Page) (i : Nat) : (s.bumpGen p i).msix = s.msix := by unfold State.bumpGen; dsimp only; split <;> rfl
@[simp] theorem State.bumpGen_ht (s : State) (p : Page) (i : Nat) : (s.bumpGen p i).ht = s.ht := by unfold State.bumpGen; dsimp only; split <;> rfl
@[simp] theorem State.bumpGen_tt (s : State) (p : Page) (i : Nat) : (s.bumpGen p i).tt = s.tt := by unfold State.bumpGen; dsimp only; split <;> rfl
@[simp] theorem State.bumpGen_fns (s : State) (p : Page) (i : Nat) : (s.bumpGen p i).fns = s.fns := by unfold State.bumpGen; dsimp only; split <;> rfl
@[simp] theorem State.bumpGen_vfEnable (s : State) (p : Page) (i : Nat) : (s.bumpGen p i).vfEnable = s.vfEnable := by unfold State.bumpGen; dsimp only; split <;> rfl
@[simp] theorem State.bumpGen_numVfs (s : State) (p : Page) (i : Nat) : (s.bumpGen p i).numVfs = s.numVfs := by unfold State.bumpGen; dsimp only; split <;> rfl
@[simp] theorem State.bumpGen_linkUp (s : State) (p : Page) (i : Nat) : (s.bumpGen p i).linkUp = s.linkUp := by unfold State.bumpGen; dsimp only; split <;> rfl
@[simp] theorem State.bumpGen_rings (s : State) (p : Page) (i : Nat) : (s.bumpGen p i).rings = s.rings := by unfold State.bumpGen; dsimp only; split <;> rfl
@[simp] theorem State.bumpGen_stores (s : State) (p : Page) (i : Nat) : (s.bumpGen p i).stores = s.stores := by unfold State.bumpGen; dsimp only; split <;> rfl
@[simp] theorem State.bumpGen_lastGrant (s : State) (p : Page) (i : Nat) : (s.bumpGen p i).lastGrant = s.lastGrant := by unfold State.bumpGen; dsimp only; split <;> rfl
@[simp] theorem State.bumpGen_txq (s : State) (p : Page) (i : Nat) : (s.bumpGen p i).txq = s.txq := by unfold State.bumpGen; dsimp only; split <;> rfl
@[simp] theorem State.bumpGen_slots (s : State) (p : Page) (i : Nat) : (s.bumpGen p i).slots = s.slots := by unfold State.bumpGen; dsimp only; split <;> rfl
@[simp] theorem State.bumpGen_cmds (s : State) (p : Page) (i : Nat) : (s.bumpGen p i).cmds = s.cmds := by unfold State.bumpGen; dsimp only; split <;> rfl
@[simp] theorem State.bumpGen_binds (s : State) (p : Page) (i : Nat) : (s.bumpGen p i).binds = s.binds := by unfold State.bumpGen; dsimp only; split <;> rfl
@[simp] theorem State.bumpGen_ports (s : State) (p : Page) (i : Nat) : (s.bumpGen p i).ports = s.ports := by unfold State.bumpGen; dsimp only; split <;> rfl
@[simp] theorem State.bumpGen_images (s : State) (p : Page) (i : Nat) : (s.bumpGen p i).images = s.images := by unfold State.bumpGen; dsimp only; split <;> rfl
@[simp] theorem State.bumpGen_progCmds (s : State) (p : Page) (i : Nat) : (s.bumpGen p i).progCmds = s.progCmds := by unfold State.bumpGen; dsimp only; split <;> rfl
@[simp] theorem State.bumpGen_runs (s : State) (p : Page) (i : Nat) : (s.bumpGen p i).runs = s.runs := by unfold State.bumpGen; dsimp only; split <;> rfl
@[simp] theorem State.bumpGen_commits (s : State) (p : Page) (i : Nat) : (s.bumpGen p i).commits = s.commits := by unfold State.bumpGen; dsimp only; split <;> rfl
@[simp] theorem State.bumpGen_nextRun (s : State) (p : Page) (i : Nat) : (s.bumpGen p i).nextRun = s.nextRun := by unfold State.bumpGen; dsimp only; split <;> rfl
@[simp] theorem State.bumpGen_cellTabs (s : State) (p : Page) (i : Nat) : (s.bumpGen p i).cellTabs = s.cellTabs := by unfold State.bumpGen; dsimp only; split <;> rfl
@[simp] theorem State.bumpGen_felt (s : State) (p : Page) (i : Nat) : (s.bumpGen p i).felt = s.felt := by unfold State.bumpGen; dsimp only; split <;> rfl
@[simp] theorem State.bumpGen_handles (s : State) (p : Page) (i : Nat) : (s.bumpGen p i).handles = s.handles := by unfold State.bumpGen; dsimp only; split <;> rfl
@[simp] theorem State.bumpGen_pfx (s : State) (p : Page) (i : Nat) : (s.bumpGen p i).pfx = s.pfx := by unfold State.bumpGen; dsimp only; split <;> rfl
@[simp] theorem State.bumpGen_couchTries (s : State) (p : Page) (i : Nat) : (s.bumpGen p i).couchTries = s.couchTries := by unfold State.bumpGen; dsimp only; split <;> rfl
@[simp] theorem State.bumpGen_couchUp (s : State) (p : Page) (i : Nat) : (s.bumpGen p i).couchUp = s.couchUp := by unfold State.bumpGen; dsimp only; split <;> rfl
@[simp] theorem State.bumpGen_gx (s : State) (p : Page) (i : Nat) : (s.bumpGen p i).gx = s.gx := by unfold State.bumpGen; dsimp only; split <;> rfl
@[simp] theorem State.bumpGen_sol (s : State) (p : Page) (i : Nat) : (s.bumpGen p i).sol = s.sol := by unfold State.bumpGen; dsimp only; split <;> rfl
@[simp] theorem State.bumpGen_bl (s : State) (p : Page) (i : Nat) : (s.bumpGen p i).bl = s.bl := by unfold State.bumpGen; dsimp only; split <;> rfl
@[simp] theorem State.bumpGen_pwr (s : State) (p : Page) (i : Nat) : (s.bumpGen p i).pwr = s.pwr := by unfold State.bumpGen; dsimp only; split <;> rfl
@[simp] theorem State.bumpGen_mem (s : State) (p : Page) (i : Nat) : (s.bumpGen p i).mem = s.mem := by unfold State.bumpGen; dsimp only; split <;> rfl
@[simp] theorem State.bumpGen_led (s : State) (p : Page) (i : Nat) : (s.bumpGen p i).led = s.led := by unfold State.bumpGen; dsimp only; split <;> rfl
@[simp] theorem State.bumpGen_iso (s : State) (p : Page) (i : Nat) : (s.bumpGen p i).iso = s.iso := by unfold State.bumpGen; dsimp only; split <;> rfl
@[simp] theorem State.bumpGen_sb (s : State) (p : Page) (i : Nat) : (s.bumpGen p i).sb = s.sb := by unfold State.bumpGen; dsimp only; split <;> rfl
@[simp] theorem State.bumpGen_pkg (s : State) (p : Page) (i : Nat) : (s.bumpGen p i).pkg = s.pkg := by unfold State.bumpGen; dsimp only; split <;> rfl
@[simp] theorem State.bumpGen_sram (s : State) (p : Page) (i : Nat) : (s.bumpGen p i).sram = s.sram := by unfold State.bumpGen; dsimp only; split <;> rfl
@[simp] theorem State.bumpGen_feltMem (s : State) (p : Page) (i : Nat) : (s.bumpGen p i).feltMem = s.feltMem := by unfold State.bumpGen; dsimp only; split <;> rfl
@[simp] theorem State.bumpGen_dram (s : State) (p : Page) (i : Nat) : (s.bumpGen p i).dram = s.dram := by unfold State.bumpGen; dsimp only; split <;> rfl
@[simp] theorem State.bumpGen_post (s : State) (p : Page) (i : Nat) : (s.bumpGen p i).post = s.post := by unfold State.bumpGen; dsimp only; split <;> rfl
@[simp] theorem State.bumpGen_actor (s : State) (p : Page) (i : Nat) : (s.bumpGen p i).actor = s.actor := by unfold State.bumpGen; dsimp only; split <;> rfl
@[simp] theorem State.bumpGen_draws (s : State) (p : Page) (i : Nat) : (s.bumpGen p i).draws = s.draws := by unfold State.bumpGen; dsimp only; split <;> rfl
@[simp] theorem State.bumpGen_pending (s : State) (p : Page) (i : Nat) : (s.bumpGen p i).pending = s.pending := by unfold State.bumpGen; dsimp only; split <;> rfl

/-! ## State.setGen -/

@[simp] theorem State.setGen_cnt (s : State) (f : Fld) (v i : Nat) : (s.setGen f v i).cnt = s.cnt := by unfold State.setGen; split <;> simp
@[simp] theorem State.setGen_frac (s : State) (f : Fld) (v i : Nat) : (s.setGen f v i).frac = s.frac := by unfold State.setGen; split <;> simp
@[simp] theorem State.setGen_pend (s : State) (f : Fld) (v i : Nat) : (s.setGen f v i).pend = s.pend := by unfold State.setGen; split <;> simp
@[simp] theorem State.setGen_latches (s : State) (f : Fld) (v i : Nat) : (s.setGen f v i).latches = s.latches := by unfold State.setGen; split <;> simp
@[simp] theorem State.setGen_readData (s : State) (f : Fld) (v i : Nat) : (s.setGen f v i).readData = s.readData := by unfold State.setGen; split <;> simp
@[simp] theorem State.setGen_msix (s : State) (f : Fld) (v i : Nat) : (s.setGen f v i).msix = s.msix := by unfold State.setGen; split <;> simp
@[simp] theorem State.setGen_ht (s : State) (f : Fld) (v i : Nat) : (s.setGen f v i).ht = s.ht := by unfold State.setGen; split <;> simp
@[simp] theorem State.setGen_tt (s : State) (f : Fld) (v i : Nat) : (s.setGen f v i).tt = s.tt := by unfold State.setGen; split <;> simp
@[simp] theorem State.setGen_fns (s : State) (f : Fld) (v i : Nat) : (s.setGen f v i).fns = s.fns := by unfold State.setGen; split <;> simp
@[simp] theorem State.setGen_vfEnable (s : State) (f : Fld) (v i : Nat) : (s.setGen f v i).vfEnable = s.vfEnable := by unfold State.setGen; split <;> simp
@[simp] theorem State.setGen_numVfs (s : State) (f : Fld) (v i : Nat) : (s.setGen f v i).numVfs = s.numVfs := by unfold State.setGen; split <;> simp
@[simp] theorem State.setGen_linkUp (s : State) (f : Fld) (v i : Nat) : (s.setGen f v i).linkUp = s.linkUp := by unfold State.setGen; split <;> simp
@[simp] theorem State.setGen_rings (s : State) (f : Fld) (v i : Nat) : (s.setGen f v i).rings = s.rings := by unfold State.setGen; split <;> simp
@[simp] theorem State.setGen_stores (s : State) (f : Fld) (v i : Nat) : (s.setGen f v i).stores = s.stores := by unfold State.setGen; split <;> simp
@[simp] theorem State.setGen_lastGrant (s : State) (f : Fld) (v i : Nat) : (s.setGen f v i).lastGrant = s.lastGrant := by unfold State.setGen; split <;> simp
@[simp] theorem State.setGen_txq (s : State) (f : Fld) (v i : Nat) : (s.setGen f v i).txq = s.txq := by unfold State.setGen; split <;> simp
@[simp] theorem State.setGen_slots (s : State) (f : Fld) (v i : Nat) : (s.setGen f v i).slots = s.slots := by unfold State.setGen; split <;> simp
@[simp] theorem State.setGen_cmds (s : State) (f : Fld) (v i : Nat) : (s.setGen f v i).cmds = s.cmds := by unfold State.setGen; split <;> simp
@[simp] theorem State.setGen_binds (s : State) (f : Fld) (v i : Nat) : (s.setGen f v i).binds = s.binds := by unfold State.setGen; split <;> simp
@[simp] theorem State.setGen_ports (s : State) (f : Fld) (v i : Nat) : (s.setGen f v i).ports = s.ports := by unfold State.setGen; split <;> simp
@[simp] theorem State.setGen_images (s : State) (f : Fld) (v i : Nat) : (s.setGen f v i).images = s.images := by unfold State.setGen; split <;> simp
@[simp] theorem State.setGen_progCmds (s : State) (f : Fld) (v i : Nat) : (s.setGen f v i).progCmds = s.progCmds := by unfold State.setGen; split <;> simp
@[simp] theorem State.setGen_runs (s : State) (f : Fld) (v i : Nat) : (s.setGen f v i).runs = s.runs := by unfold State.setGen; split <;> simp
@[simp] theorem State.setGen_commits (s : State) (f : Fld) (v i : Nat) : (s.setGen f v i).commits = s.commits := by unfold State.setGen; split <;> simp
@[simp] theorem State.setGen_nextRun (s : State) (f : Fld) (v i : Nat) : (s.setGen f v i).nextRun = s.nextRun := by unfold State.setGen; split <;> simp
@[simp] theorem State.setGen_cellTabs (s : State) (f : Fld) (v i : Nat) : (s.setGen f v i).cellTabs = s.cellTabs := by unfold State.setGen; split <;> simp
@[simp] theorem State.setGen_felt (s : State) (f : Fld) (v i : Nat) : (s.setGen f v i).felt = s.felt := by unfold State.setGen; split <;> simp
@[simp] theorem State.setGen_handles (s : State) (f : Fld) (v i : Nat) : (s.setGen f v i).handles = s.handles := by unfold State.setGen; split <;> simp
@[simp] theorem State.setGen_pfx (s : State) (f : Fld) (v i : Nat) : (s.setGen f v i).pfx = s.pfx := by unfold State.setGen; split <;> simp
@[simp] theorem State.setGen_couchTries (s : State) (f : Fld) (v i : Nat) : (s.setGen f v i).couchTries = s.couchTries := by unfold State.setGen; split <;> simp
@[simp] theorem State.setGen_couchUp (s : State) (f : Fld) (v i : Nat) : (s.setGen f v i).couchUp = s.couchUp := by unfold State.setGen; split <;> simp
@[simp] theorem State.setGen_gx (s : State) (f : Fld) (v i : Nat) : (s.setGen f v i).gx = s.gx := by unfold State.setGen; split <;> simp
@[simp] theorem State.setGen_sol (s : State) (f : Fld) (v i : Nat) : (s.setGen f v i).sol = s.sol := by unfold State.setGen; split <;> simp
@[simp] theorem State.setGen_bl (s : State) (f : Fld) (v i : Nat) : (s.setGen f v i).bl = s.bl := by unfold State.setGen; split <;> simp
@[simp] theorem State.setGen_pwr (s : State) (f : Fld) (v i : Nat) : (s.setGen f v i).pwr = s.pwr := by unfold State.setGen; split <;> simp
@[simp] theorem State.setGen_mem (s : State) (f : Fld) (v i : Nat) : (s.setGen f v i).mem = s.mem := by unfold State.setGen; split <;> simp
@[simp] theorem State.setGen_led (s : State) (f : Fld) (v i : Nat) : (s.setGen f v i).led = s.led := by unfold State.setGen; split <;> simp
@[simp] theorem State.setGen_iso (s : State) (f : Fld) (v i : Nat) : (s.setGen f v i).iso = s.iso := by unfold State.setGen; split <;> simp
@[simp] theorem State.setGen_sb (s : State) (f : Fld) (v i : Nat) : (s.setGen f v i).sb = s.sb := by unfold State.setGen; split <;> simp
@[simp] theorem State.setGen_pkg (s : State) (f : Fld) (v i : Nat) : (s.setGen f v i).pkg = s.pkg := by unfold State.setGen; split <;> simp
@[simp] theorem State.setGen_sram (s : State) (f : Fld) (v i : Nat) : (s.setGen f v i).sram = s.sram := by unfold State.setGen; split <;> simp
@[simp] theorem State.setGen_feltMem (s : State) (f : Fld) (v i : Nat) : (s.setGen f v i).feltMem = s.feltMem := by unfold State.setGen; split <;> simp
@[simp] theorem State.setGen_dram (s : State) (f : Fld) (v i : Nat) : (s.setGen f v i).dram = s.dram := by unfold State.setGen; split <;> simp
@[simp] theorem State.setGen_post (s : State) (f : Fld) (v i : Nat) : (s.setGen f v i).post = s.post := by unfold State.setGen; split <;> simp
@[simp] theorem State.setGen_actor (s : State) (f : Fld) (v i : Nat) : (s.setGen f v i).actor = s.actor := by unfold State.setGen; split <;> simp
@[simp] theorem State.setGen_draws (s : State) (f : Fld) (v i : Nat) : (s.setGen f v i).draws = s.draws := by unfold State.setGen; split <;> simp
@[simp] theorem State.setGen_pending (s : State) (f : Fld) (v i : Nat) : (s.setGen f v i).pending = s.pending := by unfold State.setGen; split <;> simp

/-! ## State.store -/

@[simp] theorem State.store_cnt (s : State) (st : Store) : (s.store st).cnt = s.cnt := by unfold State.store; split <;> rfl
@[simp] theorem State.store_frac (s : State) (st : Store) : (s.store st).frac = s.frac := by unfold State.store; split <;> rfl
@[simp] theorem State.store_regs (s : State) (st : Store) : (s.store st).regs = s.regs := by unfold State.store; split <;> rfl
@[simp] theorem State.store_pend (s : State) (st : Store) : (s.store st).pend = s.pend := by unfold State.store; split <;> rfl
@[simp] theorem State.store_latches (s : State) (st : Store) : (s.store st).latches = s.latches := by unfold State.store; split <;> rfl
@[simp] theorem State.store_genAt (s : State) (st : Store) : (s.store st).genAt = s.genAt := by unfold State.store; split <;> rfl
@[simp] theorem State.store_readData (s : State) (st : Store) : (s.store st).readData = s.readData := by unfold State.store; split <;> rfl
@[simp] theorem State.store_msix (s : State) (st : Store) : (s.store st).msix = s.msix := by unfold State.store; split <;> rfl
@[simp] theorem State.store_ht (s : State) (st : Store) : (s.store st).ht = s.ht := by unfold State.store; split <;> rfl
@[simp] theorem State.store_tt (s : State) (st : Store) : (s.store st).tt = s.tt := by unfold State.store; split <;> rfl
@[simp] theorem State.store_fns (s : State) (st : Store) : (s.store st).fns = s.fns := by unfold State.store; split <;> rfl
@[simp] theorem State.store_vfEnable (s : State) (st : Store) : (s.store st).vfEnable = s.vfEnable := by unfold State.store; split <;> rfl
@[simp] theorem State.store_numVfs (s : State) (st : Store) : (s.store st).numVfs = s.numVfs := by unfold State.store; split <;> rfl
@[simp] theorem State.store_linkUp (s : State) (st : Store) : (s.store st).linkUp = s.linkUp := by unfold State.store; split <;> rfl
@[simp] theorem State.store_rings (s : State) (st : Store) : (s.store st).rings = s.rings := by unfold State.store; split <;> rfl
@[simp] theorem State.store_lastGrant (s : State) (st : Store) : (s.store st).lastGrant = s.lastGrant := by unfold State.store; split <;> rfl
@[simp] theorem State.store_txq (s : State) (st : Store) : (s.store st).txq = s.txq := by unfold State.store; split <;> rfl
@[simp] theorem State.store_slots (s : State) (st : Store) : (s.store st).slots = s.slots := by unfold State.store; split <;> rfl
@[simp] theorem State.store_cmds (s : State) (st : Store) : (s.store st).cmds = s.cmds := by unfold State.store; split <;> rfl
@[simp] theorem State.store_binds (s : State) (st : Store) : (s.store st).binds = s.binds := by unfold State.store; split <;> rfl
@[simp] theorem State.store_ports (s : State) (st : Store) : (s.store st).ports = s.ports := by unfold State.store; split <;> rfl
@[simp] theorem State.store_images (s : State) (st : Store) : (s.store st).images = s.images := by unfold State.store; split <;> rfl
@[simp] theorem State.store_progCmds (s : State) (st : Store) : (s.store st).progCmds = s.progCmds := by unfold State.store; split <;> rfl
@[simp] theorem State.store_runs (s : State) (st : Store) : (s.store st).runs = s.runs := by unfold State.store; split <;> rfl
@[simp] theorem State.store_commits (s : State) (st : Store) : (s.store st).commits = s.commits := by unfold State.store; split <;> rfl
@[simp] theorem State.store_nextRun (s : State) (st : Store) : (s.store st).nextRun = s.nextRun := by unfold State.store; split <;> rfl
@[simp] theorem State.store_cellTabs (s : State) (st : Store) : (s.store st).cellTabs = s.cellTabs := by unfold State.store; split <;> rfl
@[simp] theorem State.store_felt (s : State) (st : Store) : (s.store st).felt = s.felt := by unfold State.store; split <;> rfl
@[simp] theorem State.store_handles (s : State) (st : Store) : (s.store st).handles = s.handles := by unfold State.store; split <;> rfl
@[simp] theorem State.store_pfx (s : State) (st : Store) : (s.store st).pfx = s.pfx := by unfold State.store; split <;> rfl
@[simp] theorem State.store_couchTries (s : State) (st : Store) : (s.store st).couchTries = s.couchTries := by unfold State.store; split <;> rfl
@[simp] theorem State.store_couchUp (s : State) (st : Store) : (s.store st).couchUp = s.couchUp := by unfold State.store; split <;> rfl
@[simp] theorem State.store_gx (s : State) (st : Store) : (s.store st).gx = s.gx := by unfold State.store; split <;> rfl
@[simp] theorem State.store_sol (s : State) (st : Store) : (s.store st).sol = s.sol := by unfold State.store; split <;> rfl
@[simp] theorem State.store_bl (s : State) (st : Store) : (s.store st).bl = s.bl := by unfold State.store; split <;> rfl
@[simp] theorem State.store_pwr (s : State) (st : Store) : (s.store st).pwr = s.pwr := by unfold State.store; split <;> rfl
@[simp] theorem State.store_mem (s : State) (st : Store) : (s.store st).mem = s.mem := by unfold State.store; split <;> rfl
@[simp] theorem State.store_led (s : State) (st : Store) : (s.store st).led = s.led := by unfold State.store; split <;> rfl
@[simp] theorem State.store_iso (s : State) (st : Store) : (s.store st).iso = s.iso := by unfold State.store; split <;> rfl
@[simp] theorem State.store_sb (s : State) (st : Store) : (s.store st).sb = s.sb := by unfold State.store; split <;> rfl
@[simp] theorem State.store_pkg (s : State) (st : Store) : (s.store st).pkg = s.pkg := by unfold State.store; split <;> rfl
@[simp] theorem State.store_sram (s : State) (st : Store) : (s.store st).sram = s.sram := by unfold State.store; split <;> rfl
@[simp] theorem State.store_feltMem (s : State) (st : Store) : (s.store st).feltMem = s.feltMem := by unfold State.store; split <;> rfl
@[simp] theorem State.store_dram (s : State) (st : Store) : (s.store st).dram = s.dram := by unfold State.store; split <;> rfl
@[simp] theorem State.store_post (s : State) (st : Store) : (s.store st).post = s.post := by unfold State.store; split <;> rfl
@[simp] theorem State.store_actor (s : State) (st : Store) : (s.store st).actor = s.actor := by unfold State.store; split <;> rfl
@[simp] theorem State.store_draws (s : State) (st : Store) : (s.store st).draws = s.draws := by unfold State.store; split <;> rfl
@[simp] theorem State.store_pending (s : State) (st : Store) : (s.store st).pending = s.pending := by unfold State.store; split <;> rfl

/-! ## State.msixSend -/

@[simp] theorem State.msixSend_cnt (s : State) (f v : Nat) : (s.msixSend f v).cnt = s.cnt := by unfold State.msixSend; (repeat' split) <;> first | rfl | simp
@[simp] theorem State.msixSend_frac (s : State) (f v : Nat) : (s.msixSend f v).frac = s.frac := by unfold State.msixSend; (repeat' split) <;> first | rfl | simp
@[simp] theorem State.msixSend_regs (s : State) (f v : Nat) : (s.msixSend f v).regs = s.regs := by unfold State.msixSend; (repeat' split) <;> first | rfl | simp
@[simp] theorem State.msixSend_pend (s : State) (f v : Nat) : (s.msixSend f v).pend = s.pend := by unfold State.msixSend; (repeat' split) <;> first | rfl | simp
@[simp] theorem State.msixSend_latches (s : State) (f v : Nat) : (s.msixSend f v).latches = s.latches := by unfold State.msixSend; (repeat' split) <;> first | rfl | simp
@[simp] theorem State.msixSend_genAt (s : State) (f v : Nat) : (s.msixSend f v).genAt = s.genAt := by unfold State.msixSend; (repeat' split) <;> first | rfl | simp
@[simp] theorem State.msixSend_readData (s : State) (f v : Nat) : (s.msixSend f v).readData = s.readData := by unfold State.msixSend; (repeat' split) <;> first | rfl | simp
@[simp] theorem State.msixSend_ht (s : State) (f v : Nat) : (s.msixSend f v).ht = s.ht := by unfold State.msixSend; (repeat' split) <;> first | rfl | simp
@[simp] theorem State.msixSend_tt (s : State) (f v : Nat) : (s.msixSend f v).tt = s.tt := by unfold State.msixSend; (repeat' split) <;> first | rfl | simp
@[simp] theorem State.msixSend_fns (s : State) (f v : Nat) : (s.msixSend f v).fns = s.fns := by unfold State.msixSend; (repeat' split) <;> first | rfl | simp
@[simp] theorem State.msixSend_vfEnable (s : State) (f v : Nat) : (s.msixSend f v).vfEnable = s.vfEnable := by unfold State.msixSend; (repeat' split) <;> first | rfl | simp
@[simp] theorem State.msixSend_numVfs (s : State) (f v : Nat) : (s.msixSend f v).numVfs = s.numVfs := by unfold State.msixSend; (repeat' split) <;> first | rfl | simp
@[simp] theorem State.msixSend_linkUp (s : State) (f v : Nat) : (s.msixSend f v).linkUp = s.linkUp := by unfold State.msixSend; (repeat' split) <;> first | rfl | simp
@[simp] theorem State.msixSend_rings (s : State) (f v : Nat) : (s.msixSend f v).rings = s.rings := by unfold State.msixSend; (repeat' split) <;> first | rfl | simp
@[simp] theorem State.msixSend_lastGrant (s : State) (f v : Nat) : (s.msixSend f v).lastGrant = s.lastGrant := by unfold State.msixSend; (repeat' split) <;> first | rfl | simp
@[simp] theorem State.msixSend_txq (s : State) (f v : Nat) : (s.msixSend f v).txq = s.txq := by unfold State.msixSend; (repeat' split) <;> first | rfl | simp
@[simp] theorem State.msixSend_slots (s : State) (f v : Nat) : (s.msixSend f v).slots = s.slots := by unfold State.msixSend; (repeat' split) <;> first | rfl | simp
@[simp] theorem State.msixSend_cmds (s : State) (f v : Nat) : (s.msixSend f v).cmds = s.cmds := by unfold State.msixSend; (repeat' split) <;> first | rfl | simp
@[simp] theorem State.msixSend_binds (s : State) (f v : Nat) : (s.msixSend f v).binds = s.binds := by unfold State.msixSend; (repeat' split) <;> first | rfl | simp
@[simp] theorem State.msixSend_ports (s : State) (f v : Nat) : (s.msixSend f v).ports = s.ports := by unfold State.msixSend; (repeat' split) <;> first | rfl | simp
@[simp] theorem State.msixSend_images (s : State) (f v : Nat) : (s.msixSend f v).images = s.images := by unfold State.msixSend; (repeat' split) <;> first | rfl | simp
@[simp] theorem State.msixSend_progCmds (s : State) (f v : Nat) : (s.msixSend f v).progCmds = s.progCmds := by unfold State.msixSend; (repeat' split) <;> first | rfl | simp
@[simp] theorem State.msixSend_runs (s : State) (f v : Nat) : (s.msixSend f v).runs = s.runs := by unfold State.msixSend; (repeat' split) <;> first | rfl | simp
@[simp] theorem State.msixSend_commits (s : State) (f v : Nat) : (s.msixSend f v).commits = s.commits := by unfold State.msixSend; (repeat' split) <;> first | rfl | simp
@[simp] theorem State.msixSend_nextRun (s : State) (f v : Nat) : (s.msixSend f v).nextRun = s.nextRun := by unfold State.msixSend; (repeat' split) <;> first | rfl | simp
@[simp] theorem State.msixSend_cellTabs (s : State) (f v : Nat) : (s.msixSend f v).cellTabs = s.cellTabs := by unfold State.msixSend; (repeat' split) <;> first | rfl | simp
@[simp] theorem State.msixSend_felt (s : State) (f v : Nat) : (s.msixSend f v).felt = s.felt := by unfold State.msixSend; (repeat' split) <;> first | rfl | simp
@[simp] theorem State.msixSend_handles (s : State) (f v : Nat) : (s.msixSend f v).handles = s.handles := by unfold State.msixSend; (repeat' split) <;> first | rfl | simp
@[simp] theorem State.msixSend_pfx (s : State) (f v : Nat) : (s.msixSend f v).pfx = s.pfx := by unfold State.msixSend; (repeat' split) <;> first | rfl | simp
@[simp] theorem State.msixSend_couchTries (s : State) (f v : Nat) : (s.msixSend f v).couchTries = s.couchTries := by unfold State.msixSend; (repeat' split) <;> first | rfl | simp
@[simp] theorem State.msixSend_couchUp (s : State) (f v : Nat) : (s.msixSend f v).couchUp = s.couchUp := by unfold State.msixSend; (repeat' split) <;> first | rfl | simp
@[simp] theorem State.msixSend_gx (s : State) (f v : Nat) : (s.msixSend f v).gx = s.gx := by unfold State.msixSend; (repeat' split) <;> first | rfl | simp
@[simp] theorem State.msixSend_sol (s : State) (f v : Nat) : (s.msixSend f v).sol = s.sol := by unfold State.msixSend; (repeat' split) <;> first | rfl | simp
@[simp] theorem State.msixSend_bl (s : State) (f v : Nat) : (s.msixSend f v).bl = s.bl := by unfold State.msixSend; (repeat' split) <;> first | rfl | simp
@[simp] theorem State.msixSend_pwr (s : State) (f v : Nat) : (s.msixSend f v).pwr = s.pwr := by unfold State.msixSend; (repeat' split) <;> first | rfl | simp
@[simp] theorem State.msixSend_mem (s : State) (f v : Nat) : (s.msixSend f v).mem = s.mem := by unfold State.msixSend; (repeat' split) <;> first | rfl | simp
@[simp] theorem State.msixSend_led (s : State) (f v : Nat) : (s.msixSend f v).led = s.led := by unfold State.msixSend; (repeat' split) <;> first | rfl | simp
@[simp] theorem State.msixSend_iso (s : State) (f v : Nat) : (s.msixSend f v).iso = s.iso := by unfold State.msixSend; (repeat' split) <;> first | rfl | simp
@[simp] theorem State.msixSend_sb (s : State) (f v : Nat) : (s.msixSend f v).sb = s.sb := by unfold State.msixSend; (repeat' split) <;> first | rfl | simp
@[simp] theorem State.msixSend_pkg (s : State) (f v : Nat) : (s.msixSend f v).pkg = s.pkg := by unfold State.msixSend; (repeat' split) <;> first | rfl | simp
@[simp] theorem State.msixSend_sram (s : State) (f v : Nat) : (s.msixSend f v).sram = s.sram := by unfold State.msixSend; (repeat' split) <;> first | rfl | simp
@[simp] theorem State.msixSend_feltMem (s : State) (f v : Nat) : (s.msixSend f v).feltMem = s.feltMem := by unfold State.msixSend; (repeat' split) <;> first | rfl | simp
@[simp] theorem State.msixSend_dram (s : State) (f v : Nat) : (s.msixSend f v).dram = s.dram := by unfold State.msixSend; (repeat' split) <;> first | rfl | simp
@[simp] theorem State.msixSend_post (s : State) (f v : Nat) : (s.msixSend f v).post = s.post := by unfold State.msixSend; (repeat' split) <;> first | rfl | simp
@[simp] theorem State.msixSend_actor (s : State) (f v : Nat) : (s.msixSend f v).actor = s.actor := by unfold State.msixSend; (repeat' split) <;> first | rfl | simp
@[simp] theorem State.msixSend_draws (s : State) (f v : Nat) : (s.msixSend f v).draws = s.draws := by unfold State.msixSend; (repeat' split) <;> first | rfl | simp
@[simp] theorem State.msixSend_pending (s : State) (f v : Nat) : (s.msixSend f v).pending = s.pending := by unfold State.msixSend; (repeat' split) <;> first | rfl | simp

/-! ## State.raise -/

@[simp] theorem State.raise_cnt (s : State) (f : Fld) (i : Nat) : (s.raise f i).cnt = s.cnt := by unfold State.raise State.signalling; dsimp only; split <;> simp
@[simp] theorem State.raise_frac (s : State) (f : Fld) (i : Nat) : (s.raise f i).frac = s.frac := by unfold State.raise State.signalling; dsimp only; split <;> simp
@[simp] theorem State.raise_pend (s : State) (f : Fld) (i : Nat) : (s.raise f i).pend = s.pend := by unfold State.raise State.signalling; dsimp only; split <;> simp
@[simp] theorem State.raise_latches (s : State) (f : Fld) (i : Nat) : (s.raise f i).latches = s.latches := by unfold State.raise State.signalling; dsimp only; split <;> simp
@[simp] theorem State.raise_genAt (s : State) (f : Fld) (i : Nat) : (s.raise f i).genAt = s.genAt := by unfold State.raise State.signalling; dsimp only; split <;> simp
@[simp] theorem State.raise_readData (s : State) (f : Fld) (i : Nat) : (s.raise f i).readData = s.readData := by unfold State.raise State.signalling; dsimp only; split <;> simp
@[simp] theorem State.raise_ht (s : State) (f : Fld) (i : Nat) : (s.raise f i).ht = s.ht := by unfold State.raise State.signalling; dsimp only; split <;> simp
@[simp] theorem State.raise_tt (s : State) (f : Fld) (i : Nat) : (s.raise f i).tt = s.tt := by unfold State.raise State.signalling; dsimp only; split <;> simp
@[simp] theorem State.raise_fns (s : State) (f : Fld) (i : Nat) : (s.raise f i).fns = s.fns := by unfold State.raise State.signalling; dsimp only; split <;> simp
@[simp] theorem State.raise_vfEnable (s : State) (f : Fld) (i : Nat) : (s.raise f i).vfEnable = s.vfEnable := by unfold State.raise State.signalling; dsimp only; split <;> simp
@[simp] theorem State.raise_numVfs (s : State) (f : Fld) (i : Nat) : (s.raise f i).numVfs = s.numVfs := by unfold State.raise State.signalling; dsimp only; split <;> simp
@[simp] theorem State.raise_linkUp (s : State) (f : Fld) (i : Nat) : (s.raise f i).linkUp = s.linkUp := by unfold State.raise State.signalling; dsimp only; split <;> simp
@[simp] theorem State.raise_rings (s : State) (f : Fld) (i : Nat) : (s.raise f i).rings = s.rings := by unfold State.raise State.signalling; dsimp only; split <;> simp
@[simp] theorem State.raise_lastGrant (s : State) (f : Fld) (i : Nat) : (s.raise f i).lastGrant = s.lastGrant := by unfold State.raise State.signalling; dsimp only; split <;> simp
@[simp] theorem State.raise_txq (s : State) (f : Fld) (i : Nat) : (s.raise f i).txq = s.txq := by unfold State.raise State.signalling; dsimp only; split <;> simp
@[simp] theorem State.raise_slots (s : State) (f : Fld) (i : Nat) : (s.raise f i).slots = s.slots := by unfold State.raise State.signalling; dsimp only; split <;> simp
@[simp] theorem State.raise_cmds (s : State) (f : Fld) (i : Nat) : (s.raise f i).cmds = s.cmds := by unfold State.raise State.signalling; dsimp only; split <;> simp
@[simp] theorem State.raise_binds (s : State) (f : Fld) (i : Nat) : (s.raise f i).binds = s.binds := by unfold State.raise State.signalling; dsimp only; split <;> simp
@[simp] theorem State.raise_ports (s : State) (f : Fld) (i : Nat) : (s.raise f i).ports = s.ports := by unfold State.raise State.signalling; dsimp only; split <;> simp
@[simp] theorem State.raise_images (s : State) (f : Fld) (i : Nat) : (s.raise f i).images = s.images := by unfold State.raise State.signalling; dsimp only; split <;> simp
@[simp] theorem State.raise_progCmds (s : State) (f : Fld) (i : Nat) : (s.raise f i).progCmds = s.progCmds := by unfold State.raise State.signalling; dsimp only; split <;> simp
@[simp] theorem State.raise_runs (s : State) (f : Fld) (i : Nat) : (s.raise f i).runs = s.runs := by unfold State.raise State.signalling; dsimp only; split <;> simp
@[simp] theorem State.raise_commits (s : State) (f : Fld) (i : Nat) : (s.raise f i).commits = s.commits := by unfold State.raise State.signalling; dsimp only; split <;> simp
@[simp] theorem State.raise_nextRun (s : State) (f : Fld) (i : Nat) : (s.raise f i).nextRun = s.nextRun := by unfold State.raise State.signalling; dsimp only; split <;> simp
@[simp] theorem State.raise_cellTabs (s : State) (f : Fld) (i : Nat) : (s.raise f i).cellTabs = s.cellTabs := by unfold State.raise State.signalling; dsimp only; split <;> simp
@[simp] theorem State.raise_felt (s : State) (f : Fld) (i : Nat) : (s.raise f i).felt = s.felt := by unfold State.raise State.signalling; dsimp only; split <;> simp
@[simp] theorem State.raise_handles (s : State) (f : Fld) (i : Nat) : (s.raise f i).handles = s.handles := by unfold State.raise State.signalling; dsimp only; split <;> simp
@[simp] theorem State.raise_pfx (s : State) (f : Fld) (i : Nat) : (s.raise f i).pfx = s.pfx := by unfold State.raise State.signalling; dsimp only; split <;> simp
@[simp] theorem State.raise_couchTries (s : State) (f : Fld) (i : Nat) : (s.raise f i).couchTries = s.couchTries := by unfold State.raise State.signalling; dsimp only; split <;> simp
@[simp] theorem State.raise_couchUp (s : State) (f : Fld) (i : Nat) : (s.raise f i).couchUp = s.couchUp := by unfold State.raise State.signalling; dsimp only; split <;> simp
@[simp] theorem State.raise_gx (s : State) (f : Fld) (i : Nat) : (s.raise f i).gx = s.gx := by unfold State.raise State.signalling; dsimp only; split <;> simp
@[simp] theorem State.raise_sol (s : State) (f : Fld) (i : Nat) : (s.raise f i).sol = s.sol := by unfold State.raise State.signalling; dsimp only; split <;> simp
@[simp] theorem State.raise_bl (s : State) (f : Fld) (i : Nat) : (s.raise f i).bl = s.bl := by unfold State.raise State.signalling; dsimp only; split <;> simp
@[simp] theorem State.raise_pwr (s : State) (f : Fld) (i : Nat) : (s.raise f i).pwr = s.pwr := by unfold State.raise State.signalling; dsimp only; split <;> simp
@[simp] theorem State.raise_mem (s : State) (f : Fld) (i : Nat) : (s.raise f i).mem = s.mem := by unfold State.raise State.signalling; dsimp only; split <;> simp
@[simp] theorem State.raise_led (s : State) (f : Fld) (i : Nat) : (s.raise f i).led = s.led := by unfold State.raise State.signalling; dsimp only; split <;> simp
@[simp] theorem State.raise_iso (s : State) (f : Fld) (i : Nat) : (s.raise f i).iso = s.iso := by unfold State.raise State.signalling; dsimp only; split <;> simp
@[simp] theorem State.raise_sb (s : State) (f : Fld) (i : Nat) : (s.raise f i).sb = s.sb := by unfold State.raise State.signalling; dsimp only; split <;> simp
@[simp] theorem State.raise_pkg (s : State) (f : Fld) (i : Nat) : (s.raise f i).pkg = s.pkg := by unfold State.raise State.signalling; dsimp only; split <;> simp
@[simp] theorem State.raise_sram (s : State) (f : Fld) (i : Nat) : (s.raise f i).sram = s.sram := by unfold State.raise State.signalling; dsimp only; split <;> simp
@[simp] theorem State.raise_feltMem (s : State) (f : Fld) (i : Nat) : (s.raise f i).feltMem = s.feltMem := by unfold State.raise State.signalling; dsimp only; split <;> simp
@[simp] theorem State.raise_dram (s : State) (f : Fld) (i : Nat) : (s.raise f i).dram = s.dram := by unfold State.raise State.signalling; dsimp only; split <;> simp
@[simp] theorem State.raise_post (s : State) (f : Fld) (i : Nat) : (s.raise f i).post = s.post := by unfold State.raise State.signalling; dsimp only; split <;> simp
@[simp] theorem State.raise_actor (s : State) (f : Fld) (i : Nat) : (s.raise f i).actor = s.actor := by unfold State.raise State.signalling; dsimp only; split <;> simp
@[simp] theorem State.raise_draws (s : State) (f : Fld) (i : Nat) : (s.raise f i).draws = s.draws := by unfold State.raise State.signalling; dsimp only; split <;> simp
@[simp] theorem State.raise_pending (s : State) (f : Fld) (i : Nat) : (s.raise f i).pending = s.pending := by unfold State.raise State.signalling; dsimp only; split <;> simp

/-! ## State.denyFn -/

@[simp] theorem State.denyFn_cnt (s : State) (n : Nat) : (s.denyFn n).cnt = s.cnt := by simp [State.denyFn]
@[simp] theorem State.denyFn_frac (s : State) (n : Nat) : (s.denyFn n).frac = s.frac := by simp [State.denyFn]
@[simp] theorem State.denyFn_pend (s : State) (n : Nat) : (s.denyFn n).pend = s.pend := by simp [State.denyFn]
@[simp] theorem State.denyFn_latches (s : State) (n : Nat) : (s.denyFn n).latches = s.latches := by simp [State.denyFn]
@[simp] theorem State.denyFn_genAt (s : State) (n : Nat) : (s.denyFn n).genAt = s.genAt := by simp [State.denyFn]
@[simp] theorem State.denyFn_readData (s : State) (n : Nat) : (s.denyFn n).readData = s.readData := by simp [State.denyFn]
@[simp] theorem State.denyFn_ht (s : State) (n : Nat) : (s.denyFn n).ht = s.ht := by simp [State.denyFn]
@[simp] theorem State.denyFn_tt (s : State) (n : Nat) : (s.denyFn n).tt = s.tt := by simp [State.denyFn]
@[simp] theorem State.denyFn_fns (s : State) (n : Nat) : (s.denyFn n).fns = s.fns := by simp [State.denyFn]
@[simp] theorem State.denyFn_vfEnable (s : State) (n : Nat) : (s.denyFn n).vfEnable = s.vfEnable := by simp [State.denyFn]
@[simp] theorem State.denyFn_numVfs (s : State) (n : Nat) : (s.denyFn n).numVfs = s.numVfs := by simp [State.denyFn]
@[simp] theorem State.denyFn_linkUp (s : State) (n : Nat) : (s.denyFn n).linkUp = s.linkUp := by simp [State.denyFn]
@[simp] theorem State.denyFn_rings (s : State) (n : Nat) : (s.denyFn n).rings = s.rings := by simp [State.denyFn]
@[simp] theorem State.denyFn_lastGrant (s : State) (n : Nat) : (s.denyFn n).lastGrant = s.lastGrant := by simp [State.denyFn]
@[simp] theorem State.denyFn_txq (s : State) (n : Nat) : (s.denyFn n).txq = s.txq := by simp [State.denyFn]
@[simp] theorem State.denyFn_slots (s : State) (n : Nat) : (s.denyFn n).slots = s.slots := by simp [State.denyFn]
@[simp] theorem State.denyFn_cmds (s : State) (n : Nat) : (s.denyFn n).cmds = s.cmds := by simp [State.denyFn]
@[simp] theorem State.denyFn_binds (s : State) (n : Nat) : (s.denyFn n).binds = s.binds := by simp [State.denyFn]
@[simp] theorem State.denyFn_ports (s : State) (n : Nat) : (s.denyFn n).ports = s.ports := by simp [State.denyFn]
@[simp] theorem State.denyFn_images (s : State) (n : Nat) : (s.denyFn n).images = s.images := by simp [State.denyFn]
@[simp] theorem State.denyFn_progCmds (s : State) (n : Nat) : (s.denyFn n).progCmds = s.progCmds := by simp [State.denyFn]
@[simp] theorem State.denyFn_runs (s : State) (n : Nat) : (s.denyFn n).runs = s.runs := by simp [State.denyFn]
@[simp] theorem State.denyFn_commits (s : State) (n : Nat) : (s.denyFn n).commits = s.commits := by simp [State.denyFn]
@[simp] theorem State.denyFn_nextRun (s : State) (n : Nat) : (s.denyFn n).nextRun = s.nextRun := by simp [State.denyFn]
@[simp] theorem State.denyFn_cellTabs (s : State) (n : Nat) : (s.denyFn n).cellTabs = s.cellTabs := by simp [State.denyFn]
@[simp] theorem State.denyFn_felt (s : State) (n : Nat) : (s.denyFn n).felt = s.felt := by simp [State.denyFn]
@[simp] theorem State.denyFn_handles (s : State) (n : Nat) : (s.denyFn n).handles = s.handles := by simp [State.denyFn]
@[simp] theorem State.denyFn_pfx (s : State) (n : Nat) : (s.denyFn n).pfx = s.pfx := by simp [State.denyFn]
@[simp] theorem State.denyFn_couchTries (s : State) (n : Nat) : (s.denyFn n).couchTries = s.couchTries := by simp [State.denyFn]
@[simp] theorem State.denyFn_couchUp (s : State) (n : Nat) : (s.denyFn n).couchUp = s.couchUp := by simp [State.denyFn]
@[simp] theorem State.denyFn_gx (s : State) (n : Nat) : (s.denyFn n).gx = s.gx := by simp [State.denyFn]
@[simp] theorem State.denyFn_sol (s : State) (n : Nat) : (s.denyFn n).sol = s.sol := by simp [State.denyFn]
@[simp] theorem State.denyFn_bl (s : State) (n : Nat) : (s.denyFn n).bl = s.bl := by simp [State.denyFn]
@[simp] theorem State.denyFn_pwr (s : State) (n : Nat) : (s.denyFn n).pwr = s.pwr := by simp [State.denyFn]
@[simp] theorem State.denyFn_mem (s : State) (n : Nat) : (s.denyFn n).mem = s.mem := by simp [State.denyFn]
@[simp] theorem State.denyFn_led (s : State) (n : Nat) : (s.denyFn n).led = s.led := by simp [State.denyFn]
@[simp] theorem State.denyFn_iso (s : State) (n : Nat) : (s.denyFn n).iso = s.iso := by simp [State.denyFn]
@[simp] theorem State.denyFn_sb (s : State) (n : Nat) : (s.denyFn n).sb = s.sb := by simp [State.denyFn]
@[simp] theorem State.denyFn_pkg (s : State) (n : Nat) : (s.denyFn n).pkg = s.pkg := by simp [State.denyFn]
@[simp] theorem State.denyFn_sram (s : State) (n : Nat) : (s.denyFn n).sram = s.sram := by simp [State.denyFn]
@[simp] theorem State.denyFn_feltMem (s : State) (n : Nat) : (s.denyFn n).feltMem = s.feltMem := by simp [State.denyFn]
@[simp] theorem State.denyFn_dram (s : State) (n : Nat) : (s.denyFn n).dram = s.dram := by simp [State.denyFn]
@[simp] theorem State.denyFn_post (s : State) (n : Nat) : (s.denyFn n).post = s.post := by simp [State.denyFn]
@[simp] theorem State.denyFn_actor (s : State) (n : Nat) : (s.denyFn n).actor = s.actor := by simp [State.denyFn]
@[simp] theorem State.denyFn_draws (s : State) (n : Nat) : (s.denyFn n).draws = s.draws := by simp [State.denyFn]
@[simp] theorem State.denyFn_pending (s : State) (n : Nat) : (s.denyFn n).pending = s.pending := by simp [State.denyFn]

/-! ## State.deny -/

@[simp] theorem State.deny_cnt (s : State) (p : Party) : (s.deny p).cnt = s.cnt := by cases p <;> simp [State.deny]
@[simp] theorem State.deny_frac (s : State) (p : Party) : (s.deny p).frac = s.frac := by cases p <;> simp [State.deny]
@[simp] theorem State.deny_pend (s : State) (p : Party) : (s.deny p).pend = s.pend := by cases p <;> simp [State.deny]
@[simp] theorem State.deny_latches (s : State) (p : Party) : (s.deny p).latches = s.latches := by cases p <;> simp [State.deny]
@[simp] theorem State.deny_genAt (s : State) (p : Party) : (s.deny p).genAt = s.genAt := by cases p <;> simp [State.deny]
@[simp] theorem State.deny_readData (s : State) (p : Party) : (s.deny p).readData = s.readData := by cases p <;> simp [State.deny]
@[simp] theorem State.deny_ht (s : State) (p : Party) : (s.deny p).ht = s.ht := by cases p <;> simp [State.deny]
@[simp] theorem State.deny_tt (s : State) (p : Party) : (s.deny p).tt = s.tt := by cases p <;> simp [State.deny]
@[simp] theorem State.deny_fns (s : State) (p : Party) : (s.deny p).fns = s.fns := by cases p <;> simp [State.deny]
@[simp] theorem State.deny_vfEnable (s : State) (p : Party) : (s.deny p).vfEnable = s.vfEnable := by cases p <;> simp [State.deny]
@[simp] theorem State.deny_numVfs (s : State) (p : Party) : (s.deny p).numVfs = s.numVfs := by cases p <;> simp [State.deny]
@[simp] theorem State.deny_linkUp (s : State) (p : Party) : (s.deny p).linkUp = s.linkUp := by cases p <;> simp [State.deny]
@[simp] theorem State.deny_rings (s : State) (p : Party) : (s.deny p).rings = s.rings := by cases p <;> simp [State.deny]
@[simp] theorem State.deny_lastGrant (s : State) (p : Party) : (s.deny p).lastGrant = s.lastGrant := by cases p <;> simp [State.deny]
@[simp] theorem State.deny_txq (s : State) (p : Party) : (s.deny p).txq = s.txq := by cases p <;> simp [State.deny]
@[simp] theorem State.deny_slots (s : State) (p : Party) : (s.deny p).slots = s.slots := by cases p <;> simp [State.deny]
@[simp] theorem State.deny_cmds (s : State) (p : Party) : (s.deny p).cmds = s.cmds := by cases p <;> simp [State.deny]
@[simp] theorem State.deny_binds (s : State) (p : Party) : (s.deny p).binds = s.binds := by cases p <;> simp [State.deny]
@[simp] theorem State.deny_ports (s : State) (p : Party) : (s.deny p).ports = s.ports := by cases p <;> simp [State.deny]
@[simp] theorem State.deny_images (s : State) (p : Party) : (s.deny p).images = s.images := by cases p <;> simp [State.deny]
@[simp] theorem State.deny_progCmds (s : State) (p : Party) : (s.deny p).progCmds = s.progCmds := by cases p <;> simp [State.deny]
@[simp] theorem State.deny_runs (s : State) (p : Party) : (s.deny p).runs = s.runs := by cases p <;> simp [State.deny]
@[simp] theorem State.deny_commits (s : State) (p : Party) : (s.deny p).commits = s.commits := by cases p <;> simp [State.deny]
@[simp] theorem State.deny_nextRun (s : State) (p : Party) : (s.deny p).nextRun = s.nextRun := by cases p <;> simp [State.deny]
@[simp] theorem State.deny_cellTabs (s : State) (p : Party) : (s.deny p).cellTabs = s.cellTabs := by cases p <;> simp [State.deny]
@[simp] theorem State.deny_felt (s : State) (p : Party) : (s.deny p).felt = s.felt := by cases p <;> simp [State.deny]
@[simp] theorem State.deny_handles (s : State) (p : Party) : (s.deny p).handles = s.handles := by cases p <;> simp [State.deny]
@[simp] theorem State.deny_pfx (s : State) (p : Party) : (s.deny p).pfx = s.pfx := by cases p <;> simp [State.deny]
@[simp] theorem State.deny_couchTries (s : State) (p : Party) : (s.deny p).couchTries = s.couchTries := by cases p <;> simp [State.deny]
@[simp] theorem State.deny_couchUp (s : State) (p : Party) : (s.deny p).couchUp = s.couchUp := by cases p <;> simp [State.deny]
@[simp] theorem State.deny_gx (s : State) (p : Party) : (s.deny p).gx = s.gx := by cases p <;> simp [State.deny]
@[simp] theorem State.deny_sol (s : State) (p : Party) : (s.deny p).sol = s.sol := by cases p <;> simp [State.deny]
@[simp] theorem State.deny_bl (s : State) (p : Party) : (s.deny p).bl = s.bl := by cases p <;> simp [State.deny]
@[simp] theorem State.deny_pwr (s : State) (p : Party) : (s.deny p).pwr = s.pwr := by cases p <;> simp [State.deny]
@[simp] theorem State.deny_mem (s : State) (p : Party) : (s.deny p).mem = s.mem := by cases p <;> simp [State.deny]
@[simp] theorem State.deny_led (s : State) (p : Party) : (s.deny p).led = s.led := by cases p <;> simp [State.deny]
@[simp] theorem State.deny_iso (s : State) (p : Party) : (s.deny p).iso = s.iso := by cases p <;> simp [State.deny]
@[simp] theorem State.deny_sb (s : State) (p : Party) : (s.deny p).sb = s.sb := by cases p <;> simp [State.deny]
@[simp] theorem State.deny_pkg (s : State) (p : Party) : (s.deny p).pkg = s.pkg := by cases p <;> simp [State.deny]
@[simp] theorem State.deny_sram (s : State) (p : Party) : (s.deny p).sram = s.sram := by cases p <;> simp [State.deny]
@[simp] theorem State.deny_feltMem (s : State) (p : Party) : (s.deny p).feltMem = s.feltMem := by cases p <;> simp [State.deny]
@[simp] theorem State.deny_dram (s : State) (p : Party) : (s.deny p).dram = s.dram := by cases p <;> simp [State.deny]
@[simp] theorem State.deny_post (s : State) (p : Party) : (s.deny p).post = s.post := by cases p <;> simp [State.deny]
@[simp] theorem State.deny_actor (s : State) (p : Party) : (s.deny p).actor = s.actor := by cases p <;> simp [State.deny]
@[simp] theorem State.deny_draws (s : State) (p : Party) : (s.deny p).draws = s.draws := by cases p <;> simp [State.deny]
@[simp] theorem State.deny_pending (s : State) (p : Party) : (s.deny p).pending = s.pending := by cases p <;> simp [State.deny]

/-! ## State.send -/

@[simp] theorem State.send_cnt (s : State) (b : List Byte) : (s.send b).cnt = s.cnt := rfl
@[simp] theorem State.send_frac (s : State) (b : List Byte) : (s.send b).frac = s.frac := rfl
@[simp] theorem State.send_regs (s : State) (b : List Byte) : (s.send b).regs = s.regs := rfl
@[simp] theorem State.send_pend (s : State) (b : List Byte) : (s.send b).pend = s.pend := rfl
@[simp] theorem State.send_latches (s : State) (b : List Byte) : (s.send b).latches = s.latches := rfl
@[simp] theorem State.send_genAt (s : State) (b : List Byte) : (s.send b).genAt = s.genAt := rfl
@[simp] theorem State.send_readData (s : State) (b : List Byte) : (s.send b).readData = s.readData := rfl
@[simp] theorem State.send_msix (s : State) (b : List Byte) : (s.send b).msix = s.msix := rfl
@[simp] theorem State.send_ht (s : State) (b : List Byte) : (s.send b).ht = s.ht := rfl
@[simp] theorem State.send_tt (s : State) (b : List Byte) : (s.send b).tt = s.tt := rfl
@[simp] theorem State.send_fns (s : State) (b : List Byte) : (s.send b).fns = s.fns := rfl
@[simp] theorem State.send_vfEnable (s : State) (b : List Byte) : (s.send b).vfEnable = s.vfEnable := rfl
@[simp] theorem State.send_numVfs (s : State) (b : List Byte) : (s.send b).numVfs = s.numVfs := rfl
@[simp] theorem State.send_linkUp (s : State) (b : List Byte) : (s.send b).linkUp = s.linkUp := rfl
@[simp] theorem State.send_rings (s : State) (b : List Byte) : (s.send b).rings = s.rings := rfl
@[simp] theorem State.send_stores (s : State) (b : List Byte) : (s.send b).stores = s.stores := rfl
@[simp] theorem State.send_lastGrant (s : State) (b : List Byte) : (s.send b).lastGrant = s.lastGrant := rfl
@[simp] theorem State.send_txq (s : State) (b : List Byte) : (s.send b).txq = s.txq := rfl
@[simp] theorem State.send_slots (s : State) (b : List Byte) : (s.send b).slots = s.slots := rfl
@[simp] theorem State.send_cmds (s : State) (b : List Byte) : (s.send b).cmds = s.cmds := rfl
@[simp] theorem State.send_binds (s : State) (b : List Byte) : (s.send b).binds = s.binds := rfl
@[simp] theorem State.send_ports (s : State) (b : List Byte) : (s.send b).ports = s.ports := rfl
@[simp] theorem State.send_images (s : State) (b : List Byte) : (s.send b).images = s.images := rfl
@[simp] theorem State.send_progCmds (s : State) (b : List Byte) : (s.send b).progCmds = s.progCmds := rfl
@[simp] theorem State.send_runs (s : State) (b : List Byte) : (s.send b).runs = s.runs := rfl
@[simp] theorem State.send_commits (s : State) (b : List Byte) : (s.send b).commits = s.commits := rfl
@[simp] theorem State.send_nextRun (s : State) (b : List Byte) : (s.send b).nextRun = s.nextRun := rfl
@[simp] theorem State.send_cellTabs (s : State) (b : List Byte) : (s.send b).cellTabs = s.cellTabs := rfl
@[simp] theorem State.send_felt (s : State) (b : List Byte) : (s.send b).felt = s.felt := rfl
@[simp] theorem State.send_handles (s : State) (b : List Byte) : (s.send b).handles = s.handles := rfl
@[simp] theorem State.send_pfx (s : State) (b : List Byte) : (s.send b).pfx = s.pfx := rfl
@[simp] theorem State.send_couchTries (s : State) (b : List Byte) : (s.send b).couchTries = s.couchTries := rfl
@[simp] theorem State.send_couchUp (s : State) (b : List Byte) : (s.send b).couchUp = s.couchUp := rfl
@[simp] theorem State.send_gx (s : State) (b : List Byte) : (s.send b).gx = s.gx := rfl
@[simp] theorem State.send_sol (s : State) (b : List Byte) : (s.send b).sol = s.sol := rfl
@[simp] theorem State.send_bl (s : State) (b : List Byte) : (s.send b).bl = s.bl := rfl
@[simp] theorem State.send_pwr (s : State) (b : List Byte) : (s.send b).pwr = s.pwr := rfl
@[simp] theorem State.send_mem (s : State) (b : List Byte) : (s.send b).mem = s.mem := rfl
@[simp] theorem State.send_led (s : State) (b : List Byte) : (s.send b).led = s.led := rfl
@[simp] theorem State.send_iso (s : State) (b : List Byte) : (s.send b).iso = s.iso := rfl
@[simp] theorem State.send_pkg (s : State) (b : List Byte) : (s.send b).pkg = s.pkg := rfl
@[simp] theorem State.send_sram (s : State) (b : List Byte) : (s.send b).sram = s.sram := rfl
@[simp] theorem State.send_feltMem (s : State) (b : List Byte) : (s.send b).feltMem = s.feltMem := rfl
@[simp] theorem State.send_dram (s : State) (b : List Byte) : (s.send b).dram = s.dram := rfl
@[simp] theorem State.send_post (s : State) (b : List Byte) : (s.send b).post = s.post := rfl
@[simp] theorem State.send_actor (s : State) (b : List Byte) : (s.send b).actor = s.actor := rfl
@[simp] theorem State.send_draws (s : State) (b : List Byte) : (s.send b).draws = s.draws := rfl
@[simp] theorem State.send_pending (s : State) (b : List Byte) : (s.send b).pending = s.pending := rfl

/-! ## State.notify -/

@[simp] theorem State.notify_cnt (s : State) (n : Nat) (b : List Byte) : (s.notify n b).cnt = s.cnt := by unfold State.notify; split <;> rfl
@[simp] theorem State.notify_frac (s : State) (n : Nat) (b : List Byte) : (s.notify n b).frac = s.frac := by unfold State.notify; split <;> rfl
@[simp] theorem State.notify_regs (s : State) (n : Nat) (b : List Byte) : (s.notify n b).regs = s.regs := by unfold State.notify; split <;> rfl
@[simp] theorem State.notify_pend (s : State) (n : Nat) (b : List Byte) : (s.notify n b).pend = s.pend := by unfold State.notify; split <;> rfl
@[simp] theorem State.notify_latches (s : State) (n : Nat) (b : List Byte) : (s.notify n b).latches = s.latches := by unfold State.notify; split <;> rfl
@[simp] theorem State.notify_genAt (s : State) (n : Nat) (b : List Byte) : (s.notify n b).genAt = s.genAt := by unfold State.notify; split <;> rfl
@[simp] theorem State.notify_readData (s : State) (n : Nat) (b : List Byte) : (s.notify n b).readData = s.readData := by unfold State.notify; split <;> rfl
@[simp] theorem State.notify_msix (s : State) (n : Nat) (b : List Byte) : (s.notify n b).msix = s.msix := by unfold State.notify; split <;> rfl
@[simp] theorem State.notify_ht (s : State) (n : Nat) (b : List Byte) : (s.notify n b).ht = s.ht := by unfold State.notify; split <;> rfl
@[simp] theorem State.notify_tt (s : State) (n : Nat) (b : List Byte) : (s.notify n b).tt = s.tt := by unfold State.notify; split <;> rfl
@[simp] theorem State.notify_fns (s : State) (n : Nat) (b : List Byte) : (s.notify n b).fns = s.fns := by unfold State.notify; split <;> rfl
@[simp] theorem State.notify_vfEnable (s : State) (n : Nat) (b : List Byte) : (s.notify n b).vfEnable = s.vfEnable := by unfold State.notify; split <;> rfl
@[simp] theorem State.notify_numVfs (s : State) (n : Nat) (b : List Byte) : (s.notify n b).numVfs = s.numVfs := by unfold State.notify; split <;> rfl
@[simp] theorem State.notify_linkUp (s : State) (n : Nat) (b : List Byte) : (s.notify n b).linkUp = s.linkUp := by unfold State.notify; split <;> rfl
@[simp] theorem State.notify_rings (s : State) (n : Nat) (b : List Byte) : (s.notify n b).rings = s.rings := by unfold State.notify; split <;> rfl
@[simp] theorem State.notify_stores (s : State) (n : Nat) (b : List Byte) : (s.notify n b).stores = s.stores := by unfold State.notify; split <;> rfl
@[simp] theorem State.notify_lastGrant (s : State) (n : Nat) (b : List Byte) : (s.notify n b).lastGrant = s.lastGrant := by unfold State.notify; split <;> rfl
@[simp] theorem State.notify_txq (s : State) (n : Nat) (b : List Byte) : (s.notify n b).txq = s.txq := by unfold State.notify; split <;> rfl
@[simp] theorem State.notify_slots (s : State) (n : Nat) (b : List Byte) : (s.notify n b).slots = s.slots := by unfold State.notify; split <;> rfl
@[simp] theorem State.notify_cmds (s : State) (n : Nat) (b : List Byte) : (s.notify n b).cmds = s.cmds := by unfold State.notify; split <;> rfl
@[simp] theorem State.notify_binds (s : State) (n : Nat) (b : List Byte) : (s.notify n b).binds = s.binds := by unfold State.notify; split <;> rfl
@[simp] theorem State.notify_ports (s : State) (n : Nat) (b : List Byte) : (s.notify n b).ports = s.ports := by unfold State.notify; split <;> rfl
@[simp] theorem State.notify_images (s : State) (n : Nat) (b : List Byte) : (s.notify n b).images = s.images := by unfold State.notify; split <;> rfl
@[simp] theorem State.notify_progCmds (s : State) (n : Nat) (b : List Byte) : (s.notify n b).progCmds = s.progCmds := by unfold State.notify; split <;> rfl
@[simp] theorem State.notify_runs (s : State) (n : Nat) (b : List Byte) : (s.notify n b).runs = s.runs := by unfold State.notify; split <;> rfl
@[simp] theorem State.notify_commits (s : State) (n : Nat) (b : List Byte) : (s.notify n b).commits = s.commits := by unfold State.notify; split <;> rfl
@[simp] theorem State.notify_nextRun (s : State) (n : Nat) (b : List Byte) : (s.notify n b).nextRun = s.nextRun := by unfold State.notify; split <;> rfl
@[simp] theorem State.notify_cellTabs (s : State) (n : Nat) (b : List Byte) : (s.notify n b).cellTabs = s.cellTabs := by unfold State.notify; split <;> rfl
@[simp] theorem State.notify_felt (s : State) (n : Nat) (b : List Byte) : (s.notify n b).felt = s.felt := by unfold State.notify; split <;> rfl
@[simp] theorem State.notify_handles (s : State) (n : Nat) (b : List Byte) : (s.notify n b).handles = s.handles := by unfold State.notify; split <;> rfl
@[simp] theorem State.notify_pfx (s : State) (n : Nat) (b : List Byte) : (s.notify n b).pfx = s.pfx := by unfold State.notify; split <;> rfl
@[simp] theorem State.notify_couchTries (s : State) (n : Nat) (b : List Byte) : (s.notify n b).couchTries = s.couchTries := by unfold State.notify; split <;> rfl
@[simp] theorem State.notify_couchUp (s : State) (n : Nat) (b : List Byte) : (s.notify n b).couchUp = s.couchUp := by unfold State.notify; split <;> rfl
@[simp] theorem State.notify_gx (s : State) (n : Nat) (b : List Byte) : (s.notify n b).gx = s.gx := by unfold State.notify; split <;> rfl
@[simp] theorem State.notify_sol (s : State) (n : Nat) (b : List Byte) : (s.notify n b).sol = s.sol := by unfold State.notify; split <;> rfl
@[simp] theorem State.notify_bl (s : State) (n : Nat) (b : List Byte) : (s.notify n b).bl = s.bl := by unfold State.notify; split <;> rfl
@[simp] theorem State.notify_pwr (s : State) (n : Nat) (b : List Byte) : (s.notify n b).pwr = s.pwr := by unfold State.notify; split <;> rfl
@[simp] theorem State.notify_mem (s : State) (n : Nat) (b : List Byte) : (s.notify n b).mem = s.mem := by unfold State.notify; split <;> rfl
@[simp] theorem State.notify_led (s : State) (n : Nat) (b : List Byte) : (s.notify n b).led = s.led := by unfold State.notify; split <;> rfl
@[simp] theorem State.notify_iso (s : State) (n : Nat) (b : List Byte) : (s.notify n b).iso = s.iso := by unfold State.notify; split <;> rfl
@[simp] theorem State.notify_pkg (s : State) (n : Nat) (b : List Byte) : (s.notify n b).pkg = s.pkg := by unfold State.notify; split <;> rfl
@[simp] theorem State.notify_sram (s : State) (n : Nat) (b : List Byte) : (s.notify n b).sram = s.sram := by unfold State.notify; split <;> rfl
@[simp] theorem State.notify_feltMem (s : State) (n : Nat) (b : List Byte) : (s.notify n b).feltMem = s.feltMem := by unfold State.notify; split <;> rfl
@[simp] theorem State.notify_dram (s : State) (n : Nat) (b : List Byte) : (s.notify n b).dram = s.dram := by unfold State.notify; split <;> rfl
@[simp] theorem State.notify_post (s : State) (n : Nat) (b : List Byte) : (s.notify n b).post = s.post := by unfold State.notify; split <;> rfl
@[simp] theorem State.notify_actor (s : State) (n : Nat) (b : List Byte) : (s.notify n b).actor = s.actor := by unfold State.notify; split <;> rfl
@[simp] theorem State.notify_draws (s : State) (n : Nat) (b : List Byte) : (s.notify n b).draws = s.draws := by unfold State.notify; split <;> rfl
@[simp] theorem State.notify_pending (s : State) (n : Nat) (b : List Byte) : (s.notify n b).pending = s.pending := by unfold State.notify; split <;> rfl

/-! ## Register fields -/

/-- A field reads what was put in it. -/
@[simp] theorem State.get_set_same (s : State) (f : Fld) (v i j : Nat) : (s.set f v i j).get f i j = v % two f.w := by
  simp [State.get, State.set]

/-- A write of one field leaves every field with another key. -/
theorem State.get_set_other (s : State) (f g : Fld) (v i j k l : Nat) (h : g.key k l ≠ f.key i j) :
    (s.set f v i j).get g k l = s.get g k l := by
  simp only [State.get, State.set]
  rw [Map.find_put_other _ _ _ _ h]

/-- `set` changes one entry of the register file. -/
theorem State.find_set (s : State) (f : Fld) (v i j k : Nat) :
    Map.find (s.set f v i j).regs k = if k = f.key i j then some (v % two f.w) else Map.find s.regs k := by
  simp [State.set, Map.find_put]

@[simp] theorem State.get_elapse (s : State) (dt : Nat) (f : Fld) (i j : Nat) : (s.elapse dt).get f i j = s.get f i j := rfl
@[simp] theorem State.flag_elapse (s : State) (dt : Nat) (f : Fld) (i j : Nat) : (s.elapse dt).flag f i j = s.flag f i j := rfl
@[simp] theorem State.reachOf_elapse (s : State) (dt : Nat) (p : Party) (pg : Page) (i : Nat) :
    (s.elapse dt).reachOf p pg i = s.reachOf p pg i := rfl
@[simp] theorem State.rd_elapse (s : State) (dt : Nat) (sp : Space) (a : Nat) : (s.elapse dt).rd sp a = s.rd sp a := by
  cases sp <;> rfl

/-- Raising a bit sets it in the register file; what it may send leaves the register file alone. -/
@[simp] theorem State.raise_regs (s : State) (f : Fld) (i : Nat) : (s.raise f i).regs = (s.set f 1 i).regs := by
  unfold State.raise State.signalling; dsimp only; split <;> simp

theorem State.get_of_regs (s t : State) (h : t.regs = s.regs) (f : Fld) (i j : Nat) : t.get f i j = s.get f i j := by
  simp [State.get, h]

@[simp] theorem State.get_raise_same (s : State) (f : Fld) (i : Nat) : (s.raise f i).get f i 0 = 1 % two f.w := by
  rw [State.get_of_regs _ _ (State.raise_regs s f i)]; simp

theorem State.get_raise_other (s : State) (f g : Fld) (i k l : Nat) (h : g.key k l ≠ f.key i 0) :
    (s.raise f i).get g k l = s.get g k l := by
  rw [State.get_of_regs _ _ (State.raise_regs s f i), State.get_set_other _ _ _ _ _ _ _ _ h]

theorem State.get_bumpGen_other (s : State) (p : Page) (i : Nat) (g : Fld) (k l : Nat) (h : g.key k l ≠ (hdrGen p).key i 0) :
    (s.bumpGen p i).get g k l = s.get g k l := by
  unfold State.bumpGen
  dsimp only
  split
  · rfl
  · exact State.get_set_other _ _ _ _ _ _ _ _ h

theorem State.get_setGen_other (s : State) (f g : Fld) (v i k l : Nat) (h : g.key k l ≠ f.key i 0)
    (h' : g.key k l ≠ (hdrGen f.page).key i 0) : (s.setGen f v i).get g k l = s.get g k l := by
  unfold State.setGen
  split
  · rfl
  · rw [State.get_bumpGen_other _ _ _ _ _ _ h', State.get_set_other _ _ _ _ _ _ _ _ h]

/-- A field set through `setGen` reads what was put in it. -/
theorem State.get_setGen_same (s : State) (f : Fld) (v i : Nat) (hv : v < two f.w) (h : f.key i 0 ≠ (hdrGen f.page).key i 0) :
    (s.setGen f v i).get f i 0 = v := by
  unfold State.setGen
  split
  · assumption
  · rw [State.get_bumpGen_other _ _ _ _ _ _ h, State.get_set_same, Nat.mod_eq_of_lt hv]

@[simp] theorem State.get_bump_same (s : State) (f : Fld) (i j n : Nat) : (s.bump f i j n).get f i j = (s.get f i j + n) % two f.w := by
  simp [State.bump]

theorem State.get_bump_other (s : State) (f g : Fld) (i j n k l : Nat) (h : g.key k l ≠ f.key i j) :
    (s.bump f i j n).get g k l = s.get g k l := State.get_set_other _ _ _ _ _ _ _ _ h

/-! ## State.commit -/

/-- A command that stores nothing leaves every byte. -/
theorem State.commit_bytes (s t : State) (h : s.post = []) (ht : t.post = []) : s.SameBytes (s.commit t) := by
  intro sp a
  cases sp <;> simp [State.rd, State.commit, State.memory, applyPost, h, ht]

/-- A command that stores nothing leaves the memories, and answers its state. -/
theorem State.commit_clean (s t : State) (h2 : t.post = []) (h3 : t.actor = none) (h4 : t.pending = s.pending)
    (h5 : t.sram = s.sram) (h6 : t.feltMem = s.feltMem) (h7 : t.dram = s.dram) : s.commit t = t := by
  cases t
  simp_all [State.commit, applyPost]

/-- What a party may write without a qualifier, it writes. -/
theorem State.access_full (s : State) (p : Party) (pg : Page) (i : Nat) (g : State → State) (w : Option (Nat × Nat))
    (h : s.MayWrite p pg i) : s.access p pg i .page g w = g s := by
  simp [State.access, h.1, h.2]

/-- What a party may read, it reads. -/
theorem State.reading_reach (s : State) (p : Party) (pg : Page) (i : Nat) (g : State → State) (h : s.MayRead p pg i) :
    s.reading p pg i g = g s := by
  obtain ⟨h1, h2⟩ := h
  unfold State.reading
  simp only [h1, Bool.not_true, if_false, Bool.false_eq_true]
  split <;> simp_all

end Sys2Proof.Machine
end

