-- ==== Sys2Proof/Laws/Exec.lean ====
section
/-! SUPPORT. Laws/Exec.lean: what every command answers: a next state whose stores are in the memories, with the queue as it was. -/
namespace Sys2Proof.Machine

/-- Every command answers the state it leaves, committed: said once, so that no proof about all commands unfolds a meaning again. -/
theorem exec_commits (c : Instr) (s : State) : ∃ t, exec c s = .next (s.commit t) := by
  cases c
  case ppsEdge => exact ⟨_, rfl⟩
  case todArm => exact ⟨_, rfl⟩
  case ppsMissing => exact ⟨_, rfl⟩
  case holdoverSecond => exact ⟨_, rfl⟩
  case refLost => exact ⟨_, rfl⟩
  case refReturn => exact ⟨_, rfl⟩
  case tickBoundary => exact ⟨_, rfl⟩
  case slotStart => exact ⟨_, rfl⟩
  case placementEnd => exact ⟨_, rfl⟩
  case htCntLoRead => exact ⟨_, rfl⟩
  case ttTickLoRead => exact ⟨_, rfl⟩
  case htPpsCapLoRead => exact ⟨_, rfl⟩
  case ttPeriodWrite => exact ⟨_, rfl⟩
  case ttImgLoad => exact ⟨_, rfl⟩
  case ttImgAbandon => exact ⟨_, rfl⟩
  case ttImgValidated => exact ⟨_, rfl⟩
  case admitStream => exact ⟨_, rfl⟩
  case start => exact ⟨_, rfl⟩
  case stop => exact ⟨_, rfl⟩
  case promote => exact ⟨_, rfl⟩
  case demote => exact ⟨_, rfl⟩
  case exportStream => exact ⟨_, rfl⟩
  case importStream => exact ⟨_, rfl⟩
  case resume => exact ⟨_, rfl⟩
  case restart => exact ⟨_, rfl⟩
  case release => exact ⟨_, rfl⟩
  case exportImageWrite => exact ⟨_, rfl⟩
  case importLoaded => exact ⟨_, rfl⟩
  case strImgWindowWrite => exact ⟨_, rfl⟩
  case strViewStateRead => exact ⟨_, rfl⟩
  case doorbellWrite => exact ⟨_, rfl⟩
  case submitAudio => exact ⟨_, rfl⟩
  case submitNop => exact ⟨_, rfl⟩
  case descriptorFetchError => exact ⟨_, rfl⟩
  case thresholdHoldoff => exact ⟨_, rfl⟩
  case functionLevelReset => exact ⟨_, rfl⟩
  case hotReset => exact ⟨_, rfl⟩
  case busMasterEnableChange => exact ⟨_, rfl⟩
  case vfEnableChange => exact ⟨_, rfl⟩
  case upstreamStoreIssue => exact ⟨_, rfl⟩
  case sampleProduction => exact ⟨_, rfl⟩
  case beamBind => exact ⟨_, rfl⟩
  case beamBlockFetched => exact ⟨_, rfl⟩
  case reelAreaWrite => exact ⟨_, rfl⟩
  case feViewClkRead => exact ⟨_, rfl⟩
  case frameBuffer => exact ⟨_, rfl⟩
  case iecFrameReceive => exact ⟨_, rfl⟩
  case iecSignalLoss => exact ⟨_, rfl⟩
  case ixpCsqHostIdxWrite => exact ⟨_, rfl⟩
  case portStart => exact ⟨_, rfl⟩
  case portStop => exact ⟨_, rfl⟩
  case portFlush => exact ⟨_, rfl⟩
  case portCommandEffect => exact ⟨_, rfl⟩
  case zcTimeout => exact ⟨_, rfl⟩
  case outputFrame => exact ⟨_, rfl⟩
  case switched => exact ⟨_, rfl⟩
  case aptStampLoRead => exact ⟨_, rfl⟩
  case ixpStampLoRead => exact ⟨_, rfl⟩
  case ixpCsARead => exact ⟨_, rfl⟩
  case tileW4 => exact ⟨_, rfl⟩
  case tileW8 => exact ⟨_, rfl⟩
  case tileBf16 => exact ⟨_, rfl⟩
  case attn => exact ⟨_, rfl⟩
  case vecAdd => exact ⟨_, rfl⟩
  case vecMul => exact ⟨_, rfl⟩
  case vecFma => exact ⟨_, rfl⟩
  case vecDiv => exact ⟨_, rfl⟩
  case vecSqrt => exact ⟨_, rfl⟩
  case vecRcp => exact ⟨_, rfl⟩
  case vecRsqrt => exact ⟨_, rfl⟩
  case vecExp => exact ⟨_, rfl⟩
  case vecLn => exact ⟨_, rfl⟩
  case vecMax => exact ⟨_, rfl⟩
  case vecMin => exact ⟨_, rfl⟩
  case vecQuant => exact ⟨_, rfl⟩
  case vecCvt => exact ⟨_, rfl⟩
  case vecMove => exact ⟨_, rfl⟩
  case cellLstm => exact ⟨_, rfl⟩
  case cellGru => exact ⟨_, rfl⟩
  case cellTable => exact ⟨_, rfl⟩
  case appendKv => exact ⟨_, rfl⟩
  case gather => exact ⟨_, rfl⟩
  case update => exact ⟨_, rfl⟩
  case send => exact ⟨_, rfl⟩
  case waitMbx => exact ⟨_, rfl⟩
  case solve => exact ⟨_, rfl⟩
  case barrier => exact ⟨_, rfl⟩
  case endStream => exact ⟨_, rfl⟩
  case resultMessage => exact ⟨_, rfl⟩
  case commit => exact ⟨_, rfl⟩
  case featMessage => exact ⟨_, rfl⟩
  case feltRefUpdate => exact ⟨_, rfl⟩
  case couchFlitCrcError => exact ⟨_, rfl⟩
  case progLoad => exact ⟨_, rfl⟩
  case progUnload => exact ⟨_, rfl⟩
  case progReload => exact ⟨_, rfl⟩
  case progLoadDone => exact ⟨_, rfl⟩
  case progReloadQuiet => exact ⟨_, rfl⟩
  case coreFaultRead => exact ⟨_, rfl⟩
  case coreSided => exact ⟨_, rfl⟩
  case pfxCapture => exact ⟨_, rfl⟩
  case pfxAttach => exact ⟨_, rfl⟩
  case pfxDrop => exact ⟨_, rfl⟩
  case feltViewDecRead => exact ⟨_, rfl⟩
  case gxDefine => exact ⟨_, rfl⟩
  case gxDelete => exact ⟨_, rfl⟩
  case gxEnable => exact ⟨_, rfl⟩
  case gxDisable => exact ⟨_, rfl⟩
  case gxLoad => exact ⟨_, rfl⟩
  case gxSave => exact ⟨_, rfl⟩
  case gxCmdDone => exact ⟨_, rfl⟩
  case readReq => exact ⟨_, rfl⟩
  case readReply => exact ⟨_, rfl⟩
  case refuse => exact ⟨_, rfl⟩
  case gatherReadTimeout => exact ⟨_, rfl⟩
  case updatePacket => exact ⟨_, rfl⟩
  case fence => exact ⟨_, rfl⟩
  case applied => exact ⟨_, rfl⟩
  case updateCut => exact ⟨_, rfl⟩
  case intervalApply => exact ⟨_, rfl⟩
  case fenceLimitExpiry => exact ⟨_, rfl⟩
  case gxTagQuotaWrite => exact ⟨_, rfl⟩
  case gxPfQuotaWrite => exact ⟨_, rfl⟩
  case gxWinWrite => exact ⟨_, rfl⟩
  case solLoad => exact ⟨_, rfl⟩
  case solUnload => exact ⟨_, rfl⟩
  case solParam => exact ⟨_, rfl⟩
  case solLoadDone => exact ⟨_, rfl⟩
  case solParamChecked => exact ⟨_, rfl⟩
  case solSubmit => exact ⟨_, rfl⟩
  case solveRequestRead => exact ⟨_, rfl⟩
  case solveStart => exact ⟨_, rfl⟩
  case solveDeadlineExpiry => exact ⟨_, rfl⟩
  case solvePhaseEnd => exact ⟨_, rfl⟩
  case solStoreQuotaWrite => exact ⟨_, rfl⟩
  case flitReceive => exact ⟨_, rfl⟩
  case lossOfSignal => exact ⟨_, rfl⟩
  case portTrained => exact ⟨_, rfl⟩
  case hello => exact ⟨_, rfl⟩
  case sideReq => exact ⟨_, rfl⟩
  case sideAck => exact ⟨_, rfl⟩
  case width => exact ⟨_, rfl⟩
  case rate => exact ⟨_, rfl⟩
  case drained => exact ⟨_, rfl⟩
  case mapNotice => exact ⟨_, rfl⟩
  case drain => exact ⟨_, rfl⟩
  case drainReportTimer => exact ⟨_, rfl⟩
  case seqGapExpiry => exact ⟨_, rfl⟩
  case tensorData => exact ⟨_, rfl⟩
  case waitLimitExpiry => exact ⟨_, rfl⟩
  case xferStart => exact ⟨_, rfl⟩
  case xferData => exact ⟨_, rfl⟩
  case xferAck => exact ⟨_, rfl⟩
  case xferAckTimeout => exact ⟨_, rfl⟩
  case blNodeWrite => exact ⟨_, rfl⟩
  case blConsistIdWrite => exact ⟨_, rfl⟩
  case modeRequest => exact ⟨_, rfl⟩
  case standbyReady => exact ⟨_, rfl⟩
  case governorSolveEnd => exact ⟨_, rfl⟩
  case allowanceExhausted => exact ⟨_, rfl⟩
  case limiter => exact ⟨_, rfl⟩
  case voltageStepReturn => exact ⟨_, rfl⟩
  case ceWriteback => exact ⟨_, rfl⟩
  case patrolRead => exact ⟨_, rfl⟩
  case memLogRdWrite => exact ⟨_, rfl⟩
  case memLogViewRead => exact ⟨_, rfl⟩
  case memInjectArm => exact ⟨_, rfl⟩
  case ledgerAuditDone => exact ⟨_, rfl⟩
  case ledLastBookRead => exact ⟨_, rfl⟩
  case dbgChallenge => exact ⟨_, rfl⟩
  case dbgRespond => exact ⟨_, rfl⟩
  case dbgClose => exact ⟨_, rfl⟩
  case nonceExpiry => exact ⟨_, rfl⟩
  case dbgWinRead => exact ⟨_, rfl⟩
  case dbgWinWrite => exact ⟨_, rfl⟩
  case dbgHaltWrite => exact ⟨_, rfl⟩
  case dbgTraceViewRead => exact ⟨_, rfl⟩
  case isoResReserveWrite => exact ⟨_, rfl⟩
  case getUnit => exact ⟨_, rfl⟩
  case side => exact ⟨_, rfl⟩
  case returnUnit => exact ⟨_, rfl⟩
  case teardown => exact ⟨_, rfl⟩
  case setCap => exact ⟨_, rfl⟩
  case setMode => exact ⟨_, rfl⟩
  case setLock => exact ⟨_, rfl⟩
  case setPowerParam => exact ⟨_, rfl⟩
  case keyRevoke => exact ⟨_, rfl⟩
  case keyProgram => exact ⟨_, rfl⟩
  case getSnapshot => exact ⟨_, rfl⟩
  case getResult => exact ⟨_, rfl⟩
  case setEndpointId => exact ⟨_, rfl⟩
  case getVersion => exact ⟨_, rfl⟩
  case getCapabilities => exact ⟨_, rfl⟩
  case negotiateAlgorithms => exact ⟨_, rfl⟩
  case getDigests => exact ⟨_, rfl⟩
  case getCertificate => exact ⟨_, rfl⟩
  case challenge => exact ⟨_, rfl⟩
  case getMeasurements => exact ⟨_, rfl⟩
  case getPdr => exact ⟨_, rfl⟩
  case getSensorReading => exact ⟨_, rfl⟩
  case getStateSensorReadings => exact ⟨_, rfl⟩
  case requestUpdate => exact ⟨_, rfl⟩
  case passComponentTable => exact ⟨_, rfl⟩
  case updateComponent => exact ⟨_, rfl⟩
  case requestFirmwareData => exact ⟨_, rfl⟩
  case activateFirmware => exact ⟨_, rfl⟩
  case sbRestart => exact ⟨_, rfl⟩
  case sbEpochLoRead => exact ⟨_, rfl⟩
  case sbLastCmdRead => exact ⟨_, rfl⟩
  case powerOn => exact ⟨_, rfl⟩
  case pwrGoodFall => exact ⟨_, rfl⟩
  case sysReset => exact ⟨_, rfl⟩
  case perstAssert => exact ⟨_, rfl⟩
  case perstDeassert => exact ⟨_, rfl⟩
  case railUndervoltage => exact ⟨_, rfl⟩
  case thermalTrip => exact ⟨_, rfl⟩
  case bootRomDone => exact ⟨_, rfl⟩
  case sbFirmwareDone => exact ⟨_, rfl⟩
  case sdReady => exact ⟨_, rfl⟩
  case dramTrainingDone => exact ⟨_, rfl⟩
  case scrubDone => exact ⟨_, rfl⟩
  case cdReady => exact ⟨_, rfl⟩
  case registerWrite => exact ⟨_, rfl⟩
  case intStatClear => exact ⟨_, rfl⟩
  case intForce => exact ⟨_, rfl⟩
  case shadowHold => exact ⟨_, rfl⟩
  case shadowApply => exact ⟨_, rfl⟩
  case shadowAbandon => exact ⟨_, rfl⟩
  case xferSendComplete => exact ⟨_, rfl⟩
  case cdBringUpFailed => exact ⟨_, rfl⟩
  case dynamicAddressAssignment => exact ⟨_, rfl⟩
  case eventReceiverRegistration => exact ⟨_, rfl⟩

/-- What a next state of exec is. -/
theorem exec_next (c : Instr) (s t : State) (h : exec c s = .next t) : ∃ u, t = s.commit u := by
  obtain ⟨u, hu⟩ := exec_commits c s
  rw [hu] at h
  exact ⟨u, (Host.Outcome.next.inj h).symm⟩

end Sys2Proof.Machine
end

