-- ==== Sys2Proof/Laws/Frame.lean ====
section
/-! SUPPORT. Laws/Frame.lean: the frame of each shared operation, and how frames compose. -/
namespace Sys2Proof.Machine

theorem State.SameBut.refl (s : State) (l : List Part) : s.SameBut s l := by
  intro p _
  cases p <;> rfl

theorem State.SameBut.trans {s t u : State} {l : List Part} (h1 : s.SameBut t l) (h2 : t.SameBut u l) : s.SameBut u l := by
  intro p hp
  have a := h1 p hp
  have b := h2 p hp
  cases p <;> exact Eq.trans b a

theorem State.SameBut.mono {s t : State} {l m : List Part} (h : s.SameBut t l) (hl : ∀ p, p ∈ l → p ∈ m) : s.SameBut t m :=
  fun p hp => h p (fun q => hp (hl p q))

theorem State.set_frame (s : State) (f : Fld) (v i j : Nat) : s.SameBut (s.set f v i j) [.regs] := by
  intro p hp
  cases p <;> first | rfl | exact absurd (by decide) hp

theorem State.elapse_frame (s : State) (dt : Nat) : s.SameBut (s.elapse dt) [.cnt, .frac] := by
  intro p hp
  cases p <;> first | rfl | exact absurd (by decide) hp

theorem State.reach_frame (s : State) (n : Nat) : s.SameBut (s.reach n) [.cnt, .frac] := by
  intro p hp
  cases p <;> first | exact absurd (by decide) hp | simp [Part.Same]

theorem State.bumpGen_frame (s : State) (p : Page) (i : Nat) : s.SameBut (s.bumpGen p i) [.regs, .genAt] := by
  intro q hq
  cases q <;> first | exact absurd (by decide) hq | simp [Part.Same]

theorem State.setGen_frame (s : State) (f : Fld) (v i : Nat) : s.SameBut (s.setGen f v i) [.regs, .genAt] := by
  intro q hq
  cases q <;> first | exact absurd (by decide) hq | simp [Part.Same]

theorem State.store_frame (s : State) (st : Store) : s.SameBut (s.store st) [.stores] := by
  intro q hq
  cases q <;> first | exact absurd (by decide) hq | simp [Part.Same]

theorem State.raise_frame (s : State) (f : Fld) (i : Nat) : s.SameBut (s.raise f i) [.regs, .msix, .stores] := by
  intro q hq
  cases q <;> first | exact absurd (by decide) hq | simp [Part.Same]

theorem State.latch_frame (s : State) (p : Party) (f : Fld) (v i j : Nat) : s.SameBut (s.latch p f v i j) [.latches] := by
  intro q hq
  cases q <;> first | rfl | exact absurd (by decide) hq

/-- A command that stores nothing keeps what the state it leaves keeps. -/
theorem State.commit_frame {s t : State} {l : List Part} (h : s.SameBut t l) (hp : s.post = []) (ha : s.actor = none)
    (ht : t.post = []) : s.SameBut (s.commit t) l := by
  intro p hq
  have b := h p hq
  cases p <;> first | exact b | simp_all [Part.Same, State.commit, applyPost]

end Sys2Proof.Machine
end

