-- ==== Sys2Proof/WellFormed.lean ====
section
/-! DEFINITION. WellFormed.lean: the operands a command can carry, as the spec lays them out: field widths, lengths of byte blocks.
A command that breaks one is no command a sender can form; the meanings are total on it all the same. -/
namespace Sys2Proof

/-- The value fits in `w` bits. -/
def fits (w v : Nat) : Bool := decide (v < 2 ^ w)

/-- A block of exactly `n` bytes. -/
def bytesN (n : Nat) (b : List Byte) : Bool := b.length == n

/-- Optional data fetched from a partner: `none` is a read that ended in an error. -/
def optN (n : Nat) (b : Option (List Byte)) : Bool := b.all (bytesN n)

/-- Eight rail groups (R732). -/
def Sensors.ok (x : Sensors) : Bool := x.railMw.length == 8 && x.railMw.all (fits 32)

/-- Four data lines (R214), each sampled at every rising edge of the two slots (R215). -/
def PortFrame.ok (x : PortFrame) : Bool := x.lines.length == 4 && x.lines.all (fun l => x.edgesL + x.edgesR ≤ l.length)

/-- Two subframes of 24 bits (R233). -/
def IecFrame.ok (x : IecFrame) : Bool := fits 24 x.wordA && fits 24 x.wordB

/-- The fields of an instruction (R261). -/
def Ins.ok (i : Ins) : Bool :=
  fits 2 i.flags && fits 16 i.sub && fits 32 i.cycles && fits 32 i.a && fits 32 i.b && fits 32 i.c && fits 32 i.d && fits 32 i.e && fits 32 i.f

/-- A zero point of eight bits (R303, R311). -/
def TileX.ok (x : TileX) : Bool := fits 8 x.z

/-- Rows, queries, heads and parts of an attention instruction (R349 to R355). -/
def AttnX.ok (x : AttnX) : Bool := fits 11 x.row && fits 32 x.first && fits 16 x.head && fits 3 x.part && fits 32 x.kv && fits 1 x.fmt

/-- Detections carry a sample index, a keyword number and a score (R96, R148). -/
def RowEnd.ok (x : RowEnd) : Bool :=
  x.wake.all (fun w => fits 64 w.1 && fits 32 w.2.1 && decide (-(2 ^ 31 : Int) ≤ w.2.2) && decide (w.2.2 < (2 ^ 31 : Int)))

/-- The fields of a row read (R386). -/
def ReadReq.ok (q : ReadReq) : Bool := fits 64 q.key && fits 32 q.row && fits 64 q.view && fits 11 q.tag && fits 8 q.gen

/-- The fields of a fence (R396). -/
def FenceMsg.ok (f : FenceMsg) : Bool := fits 64 f.key && fits 64 f.interval && fits 32 f.reads && fits 32 f.updates

/-- The fields of a notice (R396). -/
def AppliedMsg.ok (f : AppliedMsg) : Bool := fits 64 f.key && fits 64 f.interval && fits 32 f.rows

/-- A packet's header fields and payload of at most 4,096 bytes (R465). -/
def Packet.ok (p : Packet) : Bool := fits 8 p.kind && fits 16 p.seq && fits 32 p.arg && decide (p.payload.length ≤ 4096)

/-- The fields of a HELLO (R472). -/
def HelloMsg.ok (h : HelloMsg) : Bool :=
  fits 32 h.consist && decide (h.dx ≤ 32) && decide (h.dy ≤ 32) && fits 32 h.period && fits 64 h.tick && fits 8 h.stepping

/-- A change names a port state of R477. -/
def MapChange.ok (c : MapChange) : Bool := [0, 3, 4].contains c.state

/-- A notice (R477). -/
def MapNotice.ok (n : MapNotice) : Bool := fits 32 n.serial && fits 64 n.tick && n.changes.all MapChange.ok

/-- A DRAIN report names at most four generations (R478, R479). -/
def DrainMsg.ok (d : DrainMsg) : Bool := decide (d.gens.length ≤ 4)

/-- A firmware image carries a SHA-384 digest (R610). -/
def FwImage.ok (f : FwImage) : Bool := fits 32 f.version && bytesN 48 f.digest

/-- The images of the three components and the boot ROM (R610, R611). -/
def FwImages.ok (f : FwImages) : Bool := bytesN 48 f.rom && f.sb.ok && f.sd.ok && f.cd.ok

/-- A write of BAR0 or BAR4: inside the window, at least one byte, byte enables and data of its length (R128, R693). -/
def BusWrite.ok (w : BusWrite) : Bool :=
  fits 27 w.addr && decide (1 ≤ w.len) && decide (w.len ≤ 64) && fits w.len w.be && fits (8 * w.len) w.value

/-- The operands of a command. -/
def Instr.wellFormed : Instr → Bool
  | .tickBoundary m => m.ok
  | .ttPeriodWrite _ _ v => fits 32 v
  | .ttImgValidated _ img => img.all (fun b => decide (b.length ≤ 2 ^ 20))
  | .admitStream _ _ d r => bytesN 64 d && optN 64 r
  | .start _ _ d | .stop _ _ d | .promote _ _ d | .demote _ _ d | .exportStream _ _ d | .importStream _ _ d | .resume _ _ d
  | .restart _ _ d | .release _ _ d => bytesN 64 d
  | .strImgWindowWrite _ _ _ off v => fits 12 off && fits 32 v
  | .doorbellWrite _ _ _ off a => decide (off % 4 = 0 ∧ off < 4096) && (match a with
    | .write v be => fits 32 v && fits 4 be
    | .read => true)
  | .submitAudio _ _ d _ => bytesN 64 d
  | .reelAreaWrite _ _ off v => fits 12 off && fits 32 v
  | .frameBuffer _ _ f => f.ok
  | .iecFrameReceive _ _ f => f.ok
  | .ixpCsqHostIdxWrite _ _ _ v => fits 32 v
  | .tileW4 _ i x | .tileW8 _ i x => i.ok && x.ok
  | .attn _ i x => i.ok && x.ok
  | .tileBf16 _ x => x.ins.ok
  | .vecAdd _ i | .vecMul _ i | .vecFma _ i | .vecDiv _ i | .vecSqrt _ i | .vecRcp _ i | .vecRsqrt _ i | .vecExp _ i
  | .vecLn _ i | .vecMax _ i | .vecMin _ i | .vecQuant _ i | .vecCvt _ i | .vecMove _ i | .cellLstm _ i | .cellGru _ i | .cellTable _ i
  | .appendKv _ i _ | .gather _ _ i | .update _ _ i | .send _ _ i | .waitMbx _ i | .solve _ _ i | .barrier _ i => i.ok
  | .endStream _ _ i rows => i.ok && rows.all RowEnd.ok
  | .readReq _ q => q.req.ok
  | .readReply _ _ _ arg d => fits 32 arg && decide (d.length ≤ 4096)
  | .refuse _ _ _ arg _ => fits 32 arg
  | .updatePacket _ _ _ d => decide (d.length ≤ 4096)
  | .fence _ _ f => f.ok
  | .applied _ _ f => f.ok
  | .gxTagQuotaWrite _ _ _ v | .gxPfQuotaWrite _ _ _ v | .solStoreQuotaWrite _ _ _ v | .isoResReserveWrite _ _ _ v => fits 32 v
  | .gxWinWrite _ _ _ off v => fits 12 off && fits 32 v
  | .flitReceive _ _ f => bytesN 256 f
  | .hello _ _ h => h.ok
  | .mapNotice _ _ n => n.ok
  | .drain _ _ d => d.ok
  | .tensorData _ p => p.ok
  | .xferData _ p _ => p.ok
  | .xferAck _ _ _ c => fits 8 c
  | .blNodeWrite _ _ v | .blConsistIdWrite _ _ v | .modeRequest _ _ v | .memLogRdWrite _ _ v | .dbgHaltWrite _ _ _ v => fits 32 v
  | .ceWriteback _ _ _ a => fits 48 a
  | .patrolRead _ r => fits 48 r.addr && fits 16 r.bit
  | .getUnit _ b | .side _ b | .returnUnit _ b | .teardown _ b | .setCap _ b | .setMode _ b | .setLock _ b | .setPowerParam _ b
  | .keyRevoke _ b | .getSnapshot _ b | .getResult _ b => bytesN 32 b
  | .keyProgram _ b k => bytesN 32 b && bytesN 96 k
  | .challenge _ n => bytesN 32 n
  | .getMeasurements _ i n => fits 8 i && bytesN 32 n
  | .negotiateAlgorithms _ a h => fits 32 a && fits 32 h
  | .getCertificate _ s o l => fits 8 s && fits 16 o && fits 16 l
  | .getPdr _ h => fits 32 h
  | .getSensorReading _ n | .getStateSensorReadings _ n => fits 16 n
  | .requestUpdate _ m c => fits 32 m && fits 16 c
  | .passComponentTable _ i v => fits 16 i && fits 32 v
  | .updateComponent _ i v n => fits 16 i && fits 32 v && fits 32 n
  | .requestFirmwareData _ off d => fits 32 off && decide (off + d.length < 2 ^ 32)
  | .powerOn _ f => f.ok
  | .registerWrite _ _ w => w.ok
  | .intStatClear _ _ a v | .intForce _ _ a v => fits 27 a && fits 32 v
  | .shadowHold _ _ a _ | .shadowApply _ _ a | .shadowAbandon _ _ a => fits 27 a
  | .ppsEdge _ _ _ | .todArm _ _ | .ppsMissing | .holdoverSecond | .refLost _ | .refReturn _ | .slotStart | .placementEnd
  | .htCntLoRead _ _ | .ttTickLoRead _ _ | .htPpsCapLoRead _ _ | .ttImgLoad _ _ | .ttImgAbandon _ _ | .exportImageWrite _ _
  | .importLoaded _ _ _ | .strViewStateRead _ _ _ | .submitNop _ _ | .descriptorFetchError _ _ | .thresholdHoldoff _
  | .functionLevelReset _ _ | .hotReset _ | .busMasterEnableChange _ _ _ | .vfEnableChange _ _ _ | .upstreamStoreIssue _
  | .sampleProduction _ | .beamBind _ _ _ | .beamBlockFetched _ _ _ | .feViewClkRead _ _ _ | .iecSignalLoss _ _ | .portStart _ _ _
  | .portStop _ _ _ | .portFlush _ _ _ | .portCommandEffect _ _ | .zcTimeout _ _ _ | .outputFrame _ _ _ | .switched _ _
  | .aptStampLoRead _ _ _ | .ixpStampLoRead _ _ _ | .ixpCsARead _ _ _ | .resultMessage _ _ | .commit _ _ | .featMessage _ _
  | .feltRefUpdate _ | .couchFlitCrcError _ | .progLoad _ _ _ | .progUnload _ _ _ | .progReload _ _ _ | .progLoadDone _ _ _
  | .progReloadQuiet _ _ | .coreFaultRead _ _ _ | .coreSided _ _ | .pfxCapture _ _ _ | .pfxAttach _ _ _ | .pfxDrop _ _ _
  | .feltViewDecRead _ _ _ | .gxDefine _ _ _ | .gxDelete _ _ _ | .gxEnable _ _ _ | .gxDisable _ _ _ | .gxLoad _ _ _ | .gxSave _ _ _
  | .gxCmdDone _ _ _ | .gatherReadTimeout _ | .updateCut | .intervalApply _ _ _ | .fenceLimitExpiry _ _ | .solLoad _ _ _
  | .solUnload _ _ _ | .solParam _ _ _ | .solLoadDone _ _ _ | .solParamChecked _ _ _ | .solSubmit _ _ _ | .solveRequestRead _ _ _
  | .solveStart _ _ | .solveDeadlineExpiry _ _ | .solvePhaseEnd | .lossOfSignal _ _ | .portTrained _ _ _ | .sideReq _ _ | .sideAck _ _
  | .width _ _ _ | .rate _ _ _ | .drained _ _ | .drainReportTimer | .seqGapExpiry _ _ | .waitLimitExpiry _ | .xferStart _ _ _
  | .xferAckTimeout _ | .standbyReady _ | .governorSolveEnd _ | .allowanceExhausted _ _ | .limiter _ | .voltageStepReturn _
  | .memLogViewRead _ _ | .memInjectArm _ _ | .ledgerAuditDone _ | .ledLastBookRead _ _ | .dbgChallenge _ _ | .dbgRespond _ _
  | .dbgClose _ _ | .nonceExpiry | .dbgWinRead _ _ | .dbgWinWrite _ _ | .dbgTraceViewRead _ _ | .setEndpointId _ _ | .getVersion _
  | .getCapabilities _ | .getDigests _ | .activateFirmware _ | .sbRestart _ | .sbEpochLoRead _ _ | .sbLastCmdRead _ _ | .pwrGoodFall _
  | .sysReset _ _ _ | .perstAssert _ | .perstDeassert _ | .railUndervoltage _ _ | .thermalTrip _ | .bootRomDone _ _ | .sbFirmwareDone _ _
  | .sdReady _ | .dramTrainingDone _ _ | .scrubDone _ | .cdReady _ | .xferSendComplete _ _ _ | .cdBringUpFailed _ _
  | .dynamicAddressAssignment _ _ | .eventReceiverRegistration _ _ => true

end Sys2Proof
end

