-- ==== Sys2Proof/Tests/Slice0.lean ====
section
/-! SUPPORT. Tests/Slice0.lean: the well-formedness smoke test, single commands on small states with results worked out from the spec, and for
every statement a state and operands that meet its hypotheses together. -/
namespace Sys2Proof.Tests
open Sys2Proof.Machine

/-! One theorem at a time: the kernel evaluates each of them, and many at once take the memory of many threads. -/
set_option Elab.async false

/-- Put values in force: (field, instance, value). -/
def puts (s : State) (l : List (Fld × Nat × Nat)) : State := l.foldl (fun u e => u.set e.1 e.2.2 e.2.1) s

/-- A booted part with its link up. -/
def up : State :=
  { State.reset with linkUp := true, pkg := { powered := true, sdUp := true, perst := false, released := true } }

/-- The state a command answers. -/
def after (c : Instr) (s : State) : State :=
  match exec c s with
  | .next t => t
  | .fault _ | .refused _ => s

/-- Every order has at least 60 GiB of LPDDR5X (R538). -/
theorem dram_least : 61440 ≤ Config.dramMib := by
  unfold Config.dramMib
  split <;> omega

/-! ## The block -/

theorem witness_StepKeepsInvariant : State.reset.Inv ∧ step State.reset = .next (State.reset.elapse 1) := ⟨by decide, rfl⟩
theorem witness_StepRunsFrontCommand : { up with pending := [.hotReset 5] }.pending = Instr.hotReset 5 :: [] := rfl
theorem witness_IdleStepCountsOneNanosecond :
    up.pending = [] ∧ up.pkg.powered = true ∧ State.reset.pending = [] ∧ State.reset.pkg.powered = false := by decide

/-! ## House time and the timetable -/

/-- LOCKED, with edges enabled. -/
def wLocked : State := puts up [(HT_CTL_PPS_EN, 0, 1), (HT_STAT_STATE, 0, htLOCKED), (HT_STAT_REF_OK, 0, 1)]

theorem witness_EdgesAndArmedSecondsSteerTheCounter :
    (wLocked.Inv ∧ wLocked.flag HT_CTL_PPS_EN = true ∧ wLocked.flag HT_CTL_PPS_FALL = false ∧ 20 ≤ 20 ∧
      (wLocked.get HT_STAT_STATE = htACQUIRE ∨ wLocked.get HT_STAT_STATE = htLOCKED) ∧ wLocked.ht.arm = none ∧ wLocked.ht.reload = false ∧
      wLocked.flag HT_STAT_EVER_LOCKED = false) ∧
    (∀ p ∈ [Party.fn 0, .sb], wLocked.MayWrite p .ht 0) ∧
    (puts wLocked [(HT_STAGE_SEC_LO, 0, 1266874888), (HT_STAGE_SEC_HI, 0, 4)]).get2 HT_STAGE_SEC_LO HT_STAGE_SEC_HI = 18446744072 := by
  decide

/-- HOLDOVER since 3 s, one second counted, whose next second is beyond HT_HOLD_MAX_NS. -/
def wHold : State :=
  { puts up [(HT_STAT_STATE, 0, htHOLDOVER), (HT_STAT_EVER_LOCKED, 0, 1), (HT_HOLD_SECONDS, 0, 1), (HT_HOLD_MAX_NS, 0, 19)] with
    cnt := 4000000000, ht := { holdFrom := some 3000000000 } }

/-- LOCKED, its last edge at 5 s. -/
def wEdge : State := { puts wLocked [(HT_STAT_EVER_LOCKED, 0, 1)] with cnt := 5000000100, ht := { lastEdge := some 5000000000, hist := [512, 256] } }

theorem witness_ReferenceLossIsBoundedByHoldover :
    (wEdge.Inv ∧ wEdge.ht.lastEdge = some 5000000000 ∧ wEdge.flag HT_STAT_EVER_LOCKED = true ∧ wEdge.get HT_STAT_STATE = htLOCKED) ∧
    (wHold.Inv ∧ wHold.ht.holdFrom = some 3000000000 ∧ wHold.get HT_STAT_STATE = htHOLDOVER ∧ wHold.get HT_HOLD_SECONDS + 1 < two 32) ∧
    wLocked.flag HT_STAT_REF_OK = true ∧ up.flag HT_STAT_REF_OK = false ∧ up.pkg.powered = true := by
  decide

theorem witness_TimeReadsLatchOneInstant :
    (∀ p ∈ [Party.fn 0, .sb], wEdge.MayRead p .ht 0 ∧ wEdge.MayRead p .tt 0) ∧ (wEdge.elapse 5).cnt < two 64 := by decide

/-- A running timetable of code 1 at tick 7, slot 5. -/
def wRun : State :=
  { puts up [(TT_STAT_RUNNING, 0, 1), (PKGB_STAT_CD_READY, 0, 1), (STR_RANGE_COUNT, 3, 4)] with
    cnt := 140000000, couchUp := true, tt := { tick := 7, nextSlot := 5 } }

/-- The header and run record of a timetable image: code 1, shared mode, L = 1, one run; its CRC is worked out by R15. -/
def ttImage : List Byte :=
  [84, 84, 73, 77, 1, 0, 1, 1, 1, 0, 1, 0, 0, 0, 0, 0, 224, 4, 0, 0, 135, 51, 52, 190] ++ zeros 1192 ++
  [7, 0, 0, 0, 0, 1, 1, 0, 1, 0, 0, 0, 0, 0, 0, 0, 0, 0, 0, 0, 0, 0, 1, 0, 0, 0, 0, 0, 0, 0, 0, 0]

/-- An image being fetched by function 0, which may send requests. -/
def wFetch : State := { up with fns := [(0, { bme := true })], tt := { pend := some { img := none, at_ := 0, len := 1248 } } }

theorem witness_TimetableIsSetByCheckedImages :
    (up.Inv ∧ up.MayWrite (.fn 0) .tt 0 ∧ 2 % 4 ≠ 3 ∧ 2 % 4 ≠ up.get TT_PERIOD ∧ up.running = false) ∧
    (wRun.MayWrite .sb .tt 0 ∧ 0 % 4 ≠ wRun.get TT_PERIOD ∧ wRun.running = true) ∧
    (up.get TT_IMG_ADDR_LO % 64 = 0 ∧ up.tt.pend = none) ∧
    (wFetch.Inv ∧ wFetch.tt.pend = some { img := none, at_ := 0, len := 1248 } ∧ wFetch.mayRequest 0 = true ∧ wFetch.MayWrite (.fn 0) .tt 0 ∧
      ({ wFetch with cnt := 139999990 }.elapse 9).cnt < { wFetch with cnt := 139999990 }.tickAt 7 ∧ ttCheck (zeros 4) 1248 (wFetch.get TT_PERIOD) ≠ 0) := by
  decide

/-- The image passes every check of R60. -/
theorem witness_ttImage : ttCheck ttImage 1248 (wFetch.get TT_PERIOD) = 0 ∧ (parseTt ttImage).runs.length = 1 := by decide +kernel

/-- The same with an image of period code 1 pending for tick 8, which is the next. -/
def wActivate : State := { wRun with tt := { wRun.tt with pend := some { img := some (parseTt ttImage), at_ := 8, len := 1248 } } }

theorem witness_BoundaryBeginsTheNextTick :
    (wRun.Inv ∧ wRun.pkg.powered = true ∧ wRun.pkg.sdUp = true ∧ wRun.tt.pend = none) ∧
    (wActivate.Inv ∧ wActivate.pkg.sdUp = true ∧ wActivate.pkg.powered = true ∧ 8 ≤ wActivate.nextTick ∧
      (parseTt ttImage).period = wActivate.get TT_PERIOD) ∧
    ({ up with pkg := { powered := true } }.Inv ∧ { up with pkg := { powered := true } }.pkg.powered = true ∧
      { up with pkg := { powered := true } }.pkg.sdUp = false) := by
  decide +kernel

/-- One main-lane run record of tenancy 3 on core 4, placed at slot 5, and an image of one CODE section. -/
def wRcd : RunRec := { program := 7, tenancy := 3, slots := 2, lane := 0, coreMask := 16, budget := 100, cls := 0, maxRows := 1 }
def wTt : TtImage :=
  { period := 1, mode := 0, cycle := 1, id := 9, ownerMain := List.replicate 64 3, ownerListen := List.replicate 64 255,
    slotTable := (List.replicate 128 (0, 0)).set 5 (0, 1), runs := [wRcd] }
def wImg : Image :=
  { id := 7, lane := 0, cls := 0, stage := 0, stages := 1, ragged := 0, beams := 1, mask := 16, rstate := 0, kwstate := 0, encCache := 0,
    resultMax := 64, maxTokens := 600, deckleOff := 0, sections := [⟨4, 1, 0, 64, 64, 0⟩], usable := true }

/-- Two eligible chunks of tenancy 3, one in each of two slots. -/
def wChunk (k : Nat) : Chunk := { k := k, n := k, trans := true, stage := .eligible 0, deadline := 20 }
def wSlot (k : Nat) : Slot :=
  { state := .transcribe, full := true, next := k + 1, chunks := [wChunk k], par := { transcribe := true, transClass := 0 } }
def wStart : State :=
  { wRun with tt := { active := some wTt, tick := 7, nextSlot := 5 }, images := [(3, [wImg])], slots := [(0, wSlot 2), (1, wSlot 3)] }

/-- The run that wStart dispatches, after its placement. -/
def wOver : State := { after .slotStart wStart with tt := { active := some wTt, tick := 7, nextSlot := 7 } }

theorem witness_PlacementsStartAndSuspendRuns :
    (wStart.Inv ∧ wStart.pkg.sdUp = true ∧ wStart.mayDispatch = true ∧ wStart.tt.nextSlot < 64 ∧ wStart.tt.nextSlot ≠ wStart.get TT_INTAKE_SLOT ∧
      wStart.runs = [] ∧ wStart.tt.active = some wTt ∧ wTt.runsAt wStart.tt.tick 0 wStart.tt.nextSlot = [wRcd] ∧
      wTt.runsAt wStart.tt.tick 1 wStart.tt.nextSlot = [] ∧ wRcd.lane = 0 ∧ wStart.image wRcd.tenancy wRcd.program = some wImg ∧
      wImg.usable = true ∧ wImg.unloading = false ∧ wImg.reload < 2 ∧ wImg.lane = 0 ∧
      (maskList wRcd.coreMask 64).all wStart.inService = true ∧ wStart.stoppedT wRcd.tenancy = false ∧
      wStart.eligible wRcd.tenancy 0 wRcd.cls (some wImg.stage) ≠ [] ∧ 1 ≤ wRcd.maxRows ∧
      (∀ x ∈ wStart.eligible wRcd.tenancy 0 wRcd.cls (some wImg.stage), wStart.rowLen 0 wImg.stage x ≤ wImg.maxTokens)) ∧
    (∀ c, (wImg.on c).find? (fun x => x.kind == 3) = none) ∧
    (wOver.Inv ∧ (wOver.runs.find? wOver.placementOver).isSome = true ∧ wOver.runs.length = 1 ∧ ∀ r ∈ wOver.runs, r.stops = none) := by
  refine ⟨by decide +kernel, fun c => ?_, by decide +kernel⟩
  by_cases h : c = 4
  · subst h; rfl
  · simp [Image.on, wImg, Ne.symm h]

/-! ## Streams, rings, functions -/

/-- A descriptor of 64 bytes. -/
def desc (l : List (Nat × Nat)) : List Byte := fit 64 (record l)

/-- A tenancy in service: function 2 with a COMMAND, a SUBMIT, a COMPLETE and an EVENT ring (10 to 13), slots 0 to 3, a program of family 2 on
each lane, a timetable that serves classes 0 and 1, and a reel area, at tick 7. -/
def wServe : State :=
  { puts wRun ([(FE_REEL_SIZE, 0, 100), (STR_RANGE_COUNT, 2, 4), (STR_RANGE_COUNT, 3, 0), (FELT_QUOTA, 2, 8), (STR_RANGE_BASE, 3, 100)] ++
      [(10, ringCOMMAND), (11, ringSUBMIT), (12, ringCOMPLETE), (13, ringEVENT)].flatMap (fun r =>
        [(RING_STAT_STATE, r.1, 1), (RING_CFG_TYPE, r.1, r.2), (RING_CFG_LOG2_SIZE, r.1, 6), (hdrTenancy .ring, r.1, 2),
         (RING_HOST_IDX, r.1, if r.2 % 3 = 0 then 3 else 0)])) with
    vfEnable := true, numVfs := 3, fns := [(2, { bme := true })],
    tt := { tick := 7, nextSlot := 5, active := some { wTt with mode := 1, slotTable := List.replicate 128 (0, 0), runs :=
      [{ wRcd with tenancy := 2, cls := 1 }, { wRcd with tenancy := 2, lane := 1, coreMask := 1 }] } },
    images := [(2, [{ wImg with id := 0x201, cls := 1, rstate := 64, sections := [⟨4, 6, 4096, 8192, 0, 0⟩] },
                    { wImg with id := 0x202, lane := 1, kwstate := 64, sections := [⟨0, 6, 4096, 8192, 0, 0⟩] }])] }

/-- Slot 1 in a state, of ring 10 and epoch 5. -/
def q1 (st : SlotState) : Slot :=
  { state := st, cmdRing := 10, epoch := 5, next := 7, par := { submitRing := 11, completeRing := 12, eventRing := 13, transClass := 1 },
    audio := { blocks := 7, oldest := 2240 } }
def with1 (q : Slot) : State := { wServe with slots := [(1, q)] }

/-- The stream parameter record of an ADMIT (R86). -/
def wRecord : List Byte :=
  desc [(2, 1), (2, 4), (1, 1), (1, 2), (1, 1), (1, 1), (4, 16000), (2, 0), (2, 1), (8, 10), (2, 11), (2, 12), (2, 13)]

/-- A command descriptor for slot 1 at epoch 5 (R144). -/
def cmd (op : Nat) : List Byte := desc [(1, op), (1, 0), (2, 1), (4, 5), (8, 0), (8, 0x1000), (4, 4096)]

theorem witness_StreamCommandsAwaitTheirTick :
    (∀ e ∈ [(opSTART, SlotState.admitted, State.gridCheck),
            (opSTOP, .listen, fun _ _ => 0),
            (opPROMOTE, .listen, State.promoteCheck), (opDEMOTE, .transcribe, fun _ _ => 0), (opRESUME, .parked, State.gridCheck),
            (opRESTART, .faulted, fun _ _ => 0), (opRELEASE, .parked, fun _ _ => 0)],
      (with1 (q1 e.2.1)).Inv ∧ ((with1 (q1 e.2.1)).elapse 9).Accepts 10 e.1 (cmd e.1) e.2.2) := by
  decide +kernel

theorem witness_AdmitExportAndImportAreAccepted :
    ((with1 {}).Inv ∧ ((with1 {}).elapse 9).Accepts 10 opADMIT (cmd opADMIT) (fun t _ => t.admitCheck (t.owner .ring 10) (some wRecord))) ∧
    ((with1 (q1 .listen)).elapse 9).Accepts 10 opEXPORT (cmd opEXPORT) State.exportCheck ∧
    ((with1 {}).elapse 9).Accepts 10 opIMPORT (cmd opIMPORT)
      (fun t c => if (t.slot c.slot).passes ≤ 2 then 0 else cBAD_STATE) := by
  decide +kernel

/-- An EXPORT at tick 7 of a slot with nothing under way. -/
def wExp : Export :=
  { ring := 10, idx := 0, tick := 7, addr := 0x1000, len := 4096, dev := false, irq := false, epoch := 6, oldEpoch := 5, oldest := 2240 }

/-- An image of no section, of family 2, chunk 9, in LISTEN (R110); its CRC is worked out by R15. -/
def wImage : List Byte :=
  record [(4, 0x4D495453), (2, 1), (2, 0x100), (8, 256), (4, 1499696018), (4, 0), (4, 0), (4, 0), (4, 20000000), (4, 0x01010201), (4, 16000),
    (2, 0), (2, 1), (8, 9), (8, 2880), (8, 0), (8, 9), (4, 41), (4, 0x200), (8, 0xFFFFFFFFFFFFFFFF), (8, 0), (8, 0), (2, 500), (1, 4), (1, 2),
    (4, 0), (8, 0)] ++ (List.range 7).flatMap (fun j => record [(2, j + 1), (2, 0), (4, 0), (8, 0)]) ++ zeros 16

/-- An IMPORT of it, activated at tick 9. -/
def wImp : Import := { ring := 10, idx := 0, tick := 9, addr := 0x1000, len := 256, dev := false, irq := false }
def wImporting : State := with1 { q1 .parked with imp := some wImp, audio := {} }

theorem witness_StreamImagesLeaveAndEnter :
    (∀ x ∈ [wExp, { wExp with dev := true }],
     let s := puts (with1 { q1 .transcribe with exp := some x }) [(STR_IMG_SIZE, 2, 1)]
     let u := (s.elapse 9).ensure 1 (((s.slot 1).limit.getD 0) - 1)
     s.Inv ∧ (s.slot 1).exp = some x ∧ (∀ c ∈ (u.slot 1).chunks, c.status.isSome = true) ∧ u.bufferOk 1 x = true ∧ s.mem.damage = [] ∧
     s.flag MEM_INJECT_ARM = false) ∧
    (wImporting.Inv ∧ (wImporting.slot 1).imp = some wImp ∧ wImp.loaded = false ∧ wImp.dev = false ∧
      wImporting.mayRequest (wImporting.owner .ring wImp.ring) = true) ∧
    ((wImporting.elapse 9).importCheck 2 wImp wImage (wImporting.slot 1).par).1 = 0 ∧
    ((wImporting.elapse 9).importCheck 2 wImp wImage (wImporting.slot 1).par).2.1 = true := by
  decide +kernel

theorem witness_ImageWindowAndSlotView :
    ({ wServe with slots := [] }.Inv ∧ wServe.MayWrite (.fn 0) .str 0 ∧ wServe.sameWord .str 0 0x148 0x100 = false ∧ wServe.slots = [] ∧
      wServe.cmds = [] ∧ (wServe.set STR_IMG_SIZE (0x100 / two STR_IMG_SIZE.lo) 0).imgBase 0 +
        (wServe.set STR_IMG_SIZE (0x100 / two STR_IMG_SIZE.lo) 0).imgSize 0 ≤ 61440 * two 20) ∧
    ((with1 (q1 .listen)).MayRead (.fn 2) .str 2 ∧ (with1 (q1 .listen)).inRange 2 ((with1 (q1 .listen)).get STR_SEL 2) = true) := by
  decide

/-- Function 2 rings its COMMAND ring, its COMPLETE ring (whose one chunk under way waits for no credit) and its EVENT ring (no event lost). -/
theorem witness_DoorbellMovesTheHostIndex :
    (wServe.Inv ∧ wServe.pkg.sdUp = true ∧ wServe.owner .ring 10 = 2 ∧ wServe.owner .ring 10 ≠ 3 ∧ wServe.get RING_STAT_STATE 10 = 1) ∧
    (wServe.doorbellOk 10 64 = true ∧ wServe.get RING_CFG_TYPE 10 ≠ ringCOMPLETE ∧ wServe.get RING_CFG_TYPE 10 ≠ ringEVENT ∧
      wServe.get RING_CFG_TYPE 10 = ringCOMMAND ∧ wServe.get RING_HOST_IDX 10 ≠ 64) ∧
    (let s := with1 { q1 .transcribe with chunks := [{ k := 7, n := 7, status := none }] }
     s.owner .ring 12 = 2 ∧ s.get RING_STAT_STATE 12 = 1 ∧ s.get RING_CFG_TYPE 12 = ringCOMPLETE ∧ s.get RING_CFG_TYPE 12 ≠ ringEVENT) ∧
    (∀ e ∈ (with1 (q1 .transcribe)).slots, e.2.par.completeRing = 12 ∧ e.2.chunks = []) ∧
    (wServe.get RING_CFG_TYPE 13 = ringEVENT ∧ wServe.get RING_HELD 13 = 0 ∧ wServe.get RING_STAT_STATE 13 = 1 ∧ wServe.owner .ring 13 = 2) ∧
    wServe.doorbellOk 10 68 = false := by
  decide

/-- An AUDIO descriptor of two frames for slot 1, with the end of its chunk. -/
def wAudio : List Byte := desc [(1, 1), (1, 1), (2, 1), (4, 4), (8, 0), (8, 2240), (4, 2)]

theorem witness_SubmitRingsConsume :
    (wServe.Inv ∧ (wServe.elapse 9).canConsume 11 = true ∧ wServe.get RING_CFG_TYPE 11 = ringSUBMIT) ∧
    (let u := (with1 (q1 .listen)).elapse 9
     le wAudio 0 1 = 1 ∧ u.submitCheck 11 wAudio (some [1, 0, 2, 0]) = 0 ∧ u.submitKind2 wAudio = none ∧ u.submitCheck 11 wAudio none = subFETCH ∧
     le wAudio 0 1 ≠ 2 ∧ u.submitNames 11 9 = false) ∧
    (let s := with1 { q1 .listen with par := { (q1 .listen).par with anchor := 7 }, audio := { blocks := 7, oldest := 2240, begin_ := 2200, active := true } }
     let u := s.elapse 9
     let d := desc [(1, 1), (1, 0), (2, 1), (4, 4), (8, 0), (8, 2240), (4, 2)]
     s.Inv ∧ u.canConsume 11 = true ∧ u.submitCheck 11 d (some [1, 0, 2, 0]) = 0 ∧ u.submitKind2 d = none ∧ (s.slot 1).audio.anchors = [] ∧
     (s.slot 1).audio.begin_ ≤ le d 0x10 8 ∧ bit (le d 1 1) 0 = false ∧ u.chunkOf (s.slot 1) (le d 0x10 8) = some 0) := by
  decide

/-- A ring whose holdoff of 5 µs runs since 130 ms, and one store of function 2. -/
def wHoldoff : State := { wServe with rings := [(13, { holdFrom := some (130000000, 5), wbs := 2 })] }
def wStore : Store := { fn := 2, kind := .writeBack, addr := 0x2000, data := [1, 2, 3, 4] }

theorem witness_UpstreamStoresAndHoldoffsInTurn :
    (wHoldoff.Inv ∧ (wHoldoff.ring 13).holdFrom = some (130000000, 5) ∧ wHoldoff.ringActive 13 = true) ∧
    (wServe.fnEnabled 3 = true ∧ (wServe.fnState 3).flr = false ∧ wServe.msix = []) ∧
    (let s := { wServe with stores := [wStore] }
     s.Inv ∧ s.linkUp = true ∧ s.standby = false ∧ s.flag MEM_INJECT_ARM = false ∧ s.stores.filter (fun y => y.up) = [] ∧ s.nextFn = some 2 ∧
     takeStore (fun y => y.fn == 2 && !y.up) s.stores = some (wStore, []) ∧ wStore.note = .none) ∧
    (let s := { wServe with stores := [{ wStore with up := true }] }
     s.nextFn = none ∧ takeStore (fun y => y.up) s.stores = some ({ wStore with up := true }, [])) := by
  decide

theorem witness_FunctionAndHostResets :
    wServe.Inv ∧ (2 : Fin 64) ≠ 0 ∧ wServe.linkUp = true ∧ wServe.pkg.sdUp = true ∧ wServe.fnEnabled 2 = true ∧ wServe.fnEnabled 0 = true ∧
    2 ∈ (after (.functionLevelReset 9 2) (with1 (q1 .transcribe))).pkg.flrs := by
  decide +kernel

/-! ## The audio front end and the ports -/

/-- A port-fed stream at sample 2,300 (tick 7 begins at sample 2,240). -/
def wProd : State :=
  with1 { q1 .transcribe with
    par := { portFed := true, transcribe := true, submitRing := 11, completeRing := 12, eventRing := 13, transClass := 1 }
    audio := { active := true, next := 2300, horizon := 2299, blocks := 7, oldest := 2240, rho := 72057594037927936, lock := true } }

theorem witness_SamplesAreProducedInOrder :
    wProd.Inv ∧ (wProd.slot 1).par.portFed = true ∧ (wProd.slot 1).audio.active = true ∧ wProd.standby = false ∧
    (let v := (wProd.reach (2308 * 62500)).ensureAt 1 2300
     (wProd.slot 1).audio.next = 2300 ∧ zeroOf (v.liveChunk 1 2300) = none ∧ v.chunkEnd 1 2300 ≠ 2300) := by
  decide +kernel

/-- A weight block of one beam, one channel and one tap, weight 1 (R188, R189); its CRC is worked out by R15. -/
def wBeam (crc weight : Nat) : List Byte := record [(4, 0x4D494542), (2, 1), (1, 1), (1, 1), (1, 1), (3, 0), (4, crc), (4, weight)]

/-- It is bound to slot 1 by page 2 from tick 20. -/
def wBind : Bind := { slot := 1, addr := 0x4000, dev := false, tick := 20 }
def wBound (b : Bind) : State := { with1 (q1 .listen) with binds := [(2, b)] }
def wFe : State := puts (with1 (q1 .listen)) [(FE_BEAM_SLOT, 2, 1), (FE_BEAM_ADDR_LO, 2, 0x4000), (FE_BEAM_TICK_LO, 2, 20)]

theorem witness_BeamsAndReelsAreCheckedBeforeUse :
    (wFe.Inv ∧ wFe.mayRequest 2 = true ∧ wBind.ready = false ∧ wBind.dev = false ∧ wFe.mem.damage = [] ∧ wFe.flag MEM_INJECT_ARM = false ∧ wFe.MayWrite (.fn 2) .fe 2 ∧ Map.find wFe.binds 2 = none ∧ wFe.get FE_BEAM_ADDR_LO 2 % 64 = 0) ∧
    ((wBound wBind).Inv ∧ Map.sorted (wBound wBind).binds = true ∧ Map.find (wBound wBind).binds 2 = some wBind ∧
      ((wBound wBind).elapse 9).beamCheck 2 wBind (some (wBeam 1990644373 0x3F800000)) = 0 ∧
      ((wBound wBind).elapse 9).beamCheck 2 wBind (some (wBeam 1990644372 0x3F800000)) = beamBAD_FORMAT ∧
      ((wBound wBind).elapse 9).beamCheck 2 wBind (some (wBeam 8033029 0x7F800000)) = beamNOT_FINITE ∧
      ((wBound wBind).elapse 9).beamCheck 2 { wBind with tick := 7 } (some (wBeam 1990644373 0x3F800000)) = beamBAD_TICK ∧
      ((wBound wBind).elapse 9).beamCheck 2 { wBind with slot := 4 } (some (wBeam 1990644373 0x3F800000)) = beamSLOT ∧
      ((wBound wBind).elapse 9).beamCheck 2 wBind none = beamFETCH) ∧
    (wServe.MayWrite (.fn 0) .fe 0 ∧ wServe.sameWord .fe 0 0x208 0x200000 = false ∧ (with1 {}).sameWord .fe 0 0x208 0x200000 = false ∧
      (∀ e ∈ (with1 {}).slots, e.2.state = .free) ∧ (wServe.set FE_REEL_SIZE (0x200000 / two FE_REEL_SIZE.lo)).reelBlock (0x200000 / two FE_REEL_SIZE.lo) ≤ 61440 * two 20) ∧
    ((with1 (q1 .listen)).sameWord .fe 0 0x208 0x200000 = false ∧
      (with1 (q1 .listen)).MayWrite (.fn 0) .fe 0 ∧ ∃ e ∈ (with1 (q1 .listen)).slots, e.2.state ≠ .free) ∧
    (wFe.MayRead (.fn 2) .fe 2 ∧ wFe.inRange 2 (wFe.get FE_SEL 2) = true) := by
  decide +kernel

/-- Port 3 and the IEC receiver 1 (port 9) in a state. -/
def wPort (st : Nat) (q : Port) : State :=
  { puts wServe [(APT_STAT_STATE, 3, st), (IXP_STAT_STATE, 1, st), (APT_LINES_DIR0, 3, 1), (APT_LINES_DIR1, 3, 2), (APT_CFG_WIDTH, 3, 2),
      (APT_SLOTMASK, 3, 3), (IXP_SLOTMASK, 1, 3), (IXP_STAT_RX_LOCK, 1, 1), (IXP_CFG_TX_SRC, 1, 2)] with ports := [(3, q), (9, q)] }
def wPend (n : Nat) : List PortCmd := (List.range n).map (fun k => { isStart := true, stamp := 120000000 + k, seq := k })

theorem witness_PortCommandsWaitForTheirStamp :
    ((wPort ptSTOPPED { pend := wPend 3 }).Inv ∧ (wPort ptSTOPPED { pend := wPend 3 }).MayWrite (.fn 0) .apt 3 ∧
      (wPort ptSTOPPED { pend := wPend 3 }).MayWrite (.fn 0) .ixp 1 ∧ ((wPort ptSTOPPED { pend := wPend 3 }).port 3).pend.length < 4) ∧
    (let s := wPort ptSTOPPED { pend := wPend 1 }
     s.standby = false ∧ s.portState 3 = ptSTOPPED ∧ s.portState 9 = ptSTOPPED ∧ (s.port 9).pend = wPend 1 ∧
     ∀ c ∈ wPend 1, c.isStart = true ∧ c.stamp ≤ (s.elapse 9).cnt) ∧
    (let s := wPort ptSWITCHING { switch := some (ptRUNNING, true, 130000000) }
     s.Inv ∧ ptRUNNING < 8 ∧ (s.elapse 9).switchAt 3 (ptRUNNING, true, 130000000) ≤ (s.elapse 9).cnt) ∧
    (let s := wPort ptSTARTING { gates := [.opened, .opening 256] }
     s.Inv ∧ (s.port 3).gates.getD 1 .closed = .opening 256 ∧ (s.port 3).timeout ≤ 256) := by
  decide

/-- A received frame of a 24-bit port whose clock edges are right, and one with an edge missing. -/
def wFrame (edges : Nat) : PortFrame := { age := 20833, edgesL := edges, edgesR := 32, minPhase := 60, lines := List.replicate 4 (List.replicate 65 false) }

/-- A well-formed IEC frame with B and W preambles, its words even. -/
def wIec : IecFrame :=
  { age := 20833, preA := 0, preB := 2, violation := false, wordA := 3, wordB := 5, vA := false, uA := false, cA := false, pA := false,
    vB := false, uB := false, cB := true, pB := true }
def wPlay : State := wPort ptRUNNING { mask := 3, gates := List.replicate 8 .opened }

theorem witness_PortFramesEnterAndLeaveInOrder :
    (wPlay.Inv ∧ wPlay.portState 3 = ptRUNNING ∧ (wPlay.port 3).switch = none ∧
      (wPlay.elapse 9).follows 3 ((wPlay.elapse 9).frameStart 3 ((wPlay.elapse 9).cnt - 20833)) = true ∧ wPlay.portMask 3 = (wPlay.port 3).mask ∧
      wPlay.serialOk 3 (wFrame 32) = true ∧ wPlay.serialOk 3 (wFrame 31) = false ∧ wPlay.selected 3 (wPlay.port 3).mask ≠ [] ∧
      (wPlay.elapse 9).untaken 3 < 64) ∧
    (let s := wPort ptRUNNING { mask := 3, gates := List.replicate 8 .opened, rx := (List.range 64).map (fun k => { no := k, samples := [0, 0] }), takeAt := two 60 }
     s.Inv ∧ s.serialOk 3 (wFrame 32) = true ∧ s.selected 3 (s.port 3).mask ≠ [] ∧ 64 ≤ (s.elapse 9).untaken 3 ∧
     (s.elapse 9).follows 3 ((s.elapse 9).frameStart 3 ((s.elapse 9).cnt - 20833)) = true) ∧
    (let s := wPort ptSWITCHING { mask := 3, gates := List.replicate 8 .opened, switch := some (ptRUNNING, false, 130000000) }
     s.Inv ∧ s.portState 3 = ptSWITCHING ∧ s.portMask 3 = (s.port 3).mask ∧ s.serialOk 3 (wFrame 32) = true ∧
     s.selected 3 (s.port 3).mask ≠ [] ∧ (s.elapse 9).untaken 3 < 64 ∧ (s.port 3).since ≤ (s.elapse 9).cnt - 20833 ∧
     s.releaseAt 3 (ptRUNNING, false, 130000000) < (s.elapse 9).cnt - 20833) ∧
    (wPlay.portState 9 = ptRUNNING ∧ wPlay.flag IXP_STAT_RX_LOCK 1 = true ∧ iecOk wIec = true ∧ iecOk { wIec with preA := 1 } = true ∧
      (wPlay.port 9).since ≤ (wPlay.elapse 9).cnt - 20833 ∧ wPlay.portMask 9 = (wPlay.port 9).mask ∧
      wPlay.selected 9 (wPlay.port 9).mask ≠ [] ∧ (wPlay.elapse 9).untaken 9 < 64) ∧
    (wPlay.pkg.sdUp = true ∧ wPlay.lineDir 3 1 = 2 ∧ wPlay.csqN 1 < idxSub (wPlay.get IXP_CSQ_DEV_IDX 1) 5 ∧
      ¬ wPlay.csqN 1 < idxSub (wPlay.get IXP_CSQ_DEV_IDX 1) 0 ∧ wPlay.get IXP_CFG_TX_SRC 1 = 2 ∧ wPlay.MayWrite (.fn 0) .ixp 1) := by
  decide +kernel

theorem witness_PortReadsLatchOneBlock : wPlay.Inv ∧ wPlay.MayRead (.fn 0) .apt 3 ∧ wPlay.MayRead (.fn 0) .ixp 1 := by decide

/-! ## The compute die -/

/-- Bytes of core 4's memory. -/
def sramOf (l : List (Nat × List Byte)) : Map Byte :=
  l.flatMap (fun e => (List.range e.2.length).filterMap (fun j => (e.2[j]?).bind (fun b => if b = 0 then none else some (sramAt 4 (e.1 + j), b))))

/-- An instruction as it stands in a CODE section (R261). -/
def wWord (op : Nat) (i : Ins) : List Byte :=
  record [(1, op), (1, i.flags), (2, i.sub), (4, i.cycles), (4, i.a), (4, i.b), (4, i.c), (4, i.d), (4, i.e), (4, i.f)]
/-- It is the first of core 4's CODE section. -/
def coded (op : Nat) (i : Ins) (s : State) : State := { s with sram := sramOf [(0, wWord op i)] ++ s.sram }

/-- What State.Executes asks, in a form that `decide` evaluates. -/
abbrev Runs (s : State) (r : Run) (m : Image) (op : Nat) (i : Ins) : Prop :=
  s.runOn 4 = some r ∧ s.runBy r.id = some r ∧ s.runImage r = some m ∧ r.started = true ∧ r.opened = true ∧ r.stops = none ∧
  (s.nextWord r m 4).any (fun w => decide (insOf w.2 = (op, i))) = true ∧ ∀ d ∈ s.mem.damage, d.kind = 1

theorem executes_of_runs {s : State} {r : Run} {m : Image} {op : Nat} {i : Ins} (h : Runs s r m op i) : s.Executes 4 r m op i := by
  obtain ⟨a, b, c, d, e, f, g, k⟩ := h
  obtain ⟨w, hw, hi⟩ := (Option.any_eq_true _ _).mp g
  exact ⟨a, b, c, d, e, f, ⟨w.1, w.2, hw, of_decide_eq_true hi⟩, k⟩

/-- A main-lane program on core 4: CODE, the pools of row frames and encoder regions, and 64 KiB for everything else. -/
def wProg : Image :=
  { wImg with id := 0x201, cls := 1, rstate := 64,
              sections := [⟨4, 1, 0, 256, 256, 0⟩, ⟨4, 6, 4096, 8192, 0, 0⟩, ⟨4, 5, 0x4000, 4096, 0, 0⟩, ⟨4, 2, 0x10000, 0x10000, 0, 0⟩] }

/-- Its run 9 of one row: slot 1, chunk 7. -/
def wHome : Alloc := { core := 4, off := 4096, feat := 64, bank := 64, cacheOff := 0x4000, cacheLen := 1024 }
def wRow : Row := { slot := 1, epoch := 5, k := 7, cur := 0, len := 3, alloc := some wHome }
def wRunning : Run :=
  { id := 9, rcd := { wRcd with program := 0x201, tenancy := 2, cls := 1, budget := 1000 }, stage := 0, final := true, tick := 7, first := 0,
    until_ := none, rows := [wRow], started := true, opened := true }
def wCore (mem : List (Nat × List Byte)) (r : Run) (q : Slot) : State :=
  { wServe with
    images := [(2, [wProg])], runs := [r], sram := sramOf mem
    slots := [(1, { q with home := some wHome, chunks := [{ k := 7, n := 7, trans := true, stage := .running 0 9, featured := true }] })] }

/-- A tile of 16 × 32 on one row, in 2 cycles. -/
def wTile : Ins :=
  { flags := 0, sub := 0, cycles := 2, a := 0x10000, b := 0x12000, c := 0x14000, d := 0x13000, e := 16 + 32 * 65536, f := 1 }
def wTileX : TileX := { z := 1, scales := List.replicate 32 5 }

/-- Weights, activations and the first column's record: OUT int32. -/
def wTiles : State :=
  wCore [(0x10000, List.replicate 16 0x9C), (0x12000, [3, 0, 255, 7]), (0x13000, record [(4, 2), (4, 100), (4, 0), (1, 0), (1, 2), (1, 0)])]
    wRunning (q1 .transcribe)

theorem witness_TileInstructionsStoreTheirOutputs :
    (∀ op ∈ [1, 2, 3], (coded op wTile wTiles).Inv ∧ Runs (coded op wTile wTiles) wRunning wProg op wTile) ∧ tileOk wTile 32 4096 true = true ∧ tileOk wTile 32 2048 false = true ∧
    tileOk wTile 16 1024 false = true ∧ wProg.holds 4 wTile.a 1024 = true ∧ wProg.holds 4 wTile.b 32 = true ∧
    wProg.holds 4 wTile.d 512 = true ∧ wProg.holds 4 wTile.c 128 = true := by
  decide +kernel

/-- A vector instruction of two fp32 elements, on the sections or on every row. -/
def wVec (perRow : Bool) (sub : Nat) : Ins :=
  let d := if sub = 2 || sub = 11 then 0x13000 else 0
  if perRow then { flags := 2, sub := sub, cycles := 1, a := 64, b := 72, c := 128, d := d, e := 2, f := 0 }
  else { flags := 0, sub := sub, cycles := 1, a := 0x10000, b := 0x12000, c := 0x14000, d := d, e := 2, f := 0 }

/-- A CELL instruction of two elements. -/
def wCell (sub : Nat) : Ins := { wVec false sub with d := 0 }

theorem witness_VectorInstructionsStoreTheirElements :
    wTiles.flag MEM_INJECT_ARM = false ∧
    (∀ per ∈ [true, false], ∀ sub ∈ List.range 14, (coded 0x10 (wVec per sub) wTiles).Inv ∧
      Runs (coded 0x10 (wVec per sub) wTiles) wRunning wProg 0x10 (wVec per sub) ∧ vecOk (wVec per sub) sub = true ∧
      wProg.holds 4 (wVec per sub).d (vecThird (wVec per sub) sub) = true ∧ (wRunning.targets (wVec per sub)).length = 1 ∧
      (wRunning.rows.filter (wTiles.lacksFeatures wRunning (wVec per sub) 8 8) = []) ∧
      ∀ w ∈ wRunning.targets (wVec per sub), (wProg.operands 4 (wVec per sub) 8 8 8 w).isSome = true) := by
  decide +kernel

theorem witness_VectorAndCellInstructionsStoreTheirElements :
    (∀ sub ∈ List.range 3, (coded 0x11 (wCell sub) wTiles).Inv ∧ Runs (coded 0x11 (wCell sub) wTiles) wRunning wProg 0x11 (wCell sub) ∧ cellOk (wCell sub) sub = true ∧
      (wProg.operands 4 (wCell sub) (cellBytes (wCell sub) sub).1 (cellBytes (wCell sub) sub).2.1 (cellBytes (wCell sub) sub).2.2 none).isSome =
        true) := by
  decide +kernel

/-- A CACHE descriptor of one head of 8 elements, SCALE 1, 32 positions (R334). -/
def wDesc (source cache place split flags : Nat) : List Byte :=
  fit 64 (record [(1, source), (1, cache), (1, 0), (1, place), (1, split), (1, flags), (2, 1), (2, 8), (2, 0), (2, 0), (2, 2),
    (4, 0x3F800000), (4, 32), (4, 0), (4, 32), (4, 32)])

/-- ATTN of one query, block 0, over the row's own three tokens; `q` is the query's first element. -/
def wAttn (last : Bool) : Ins :=
  { flags := 0, sub := 0, cycles := 1, a := 0x10000, b := 0x12000, c := 0x14000, d := 0x13000, e := 0x13800, f := if last then 0x1000001 else 1 }
def wAttnX (part : Nat) : AttnX := { row := 0, first := 0, head := 0, part := part, kv := 0x16000, fmt := 0 }
def wAttns (d : List Byte) (q : Nat) (part : Map (List Nat)) : State :=
  wCore [(0x10000, d), (0x12000, toLe 2 q), (0x16000, [128, 63])] { wRunning with partials := part } (q1 .transcribe)

/-- The running state of the query after the block. -/
def wState (s : State) (z : AttnX) : Partial :=
  let d := s.descAt 4 0x10000
  (s.queryBlock 4 (wAttn true) z d wRow ((List.range 3).map (fun j => (j, s.keyVal 4 d z wRow wHome j))) true 0).1

def wPartial : Map (List Nat) := [(partialKey 0 0 0 1, 0 :: 0x3F800000 :: List.replicate 8 0)]

theorem witness_AttentionRunsItsBlocks :
    (∀ e ∈ [(wAttns (wDesc 1 0 0 1 0) 0 [], wAttnX 0), (wAttns (wDesc 1 0 1 2 0) 0 [], wAttnX 1), (wAttns (wDesc 1 0 1 2 0) 0 wPartial, wAttnX 0)],
      let r := { wRunning with partials := e.1.runs.flatMap (fun x => x.partials) }
      let d := e.1.descAt 4 0x10000
      (∀ last ∈ [true, false], (coded 4 (wAttn last) e.1).Inv ∧ Runs (coded 4 (wAttn last) e.1) r wProg 4 (wAttn last) ∧
        attnOk (wAttn last) = true) ∧
      e.1.attnWaits 4 (wAttn true) e.2 = false ∧ wProg.holds 4 0x10000 64 = true ∧ e.1.namedRow r 0 = some wRow ∧
      wRow.alloc = some wHome ∧ d.source = 1 ∧ e.2.head < d.heads ∧ e.2.part < max 1 d.split ∧
      (attnRanges (wAttn true) e.2 d (e.1.view d wRow)).all (fun y => wProg.holds 4 y.1 y.2) = true ∧ (wState e.1 e.2).kind = 0) ∧
    (wState (wAttns (wDesc 1 0 0 1 1) 0 []) (wAttnX 0)).kind = 1 ∧ (wState (wAttns (wDesc 1 0 0 1 0) 0x7FC0 []) (wAttnX 0)).kind = 2 ∧
    (wAttns (wDesc 1 0 0 1 0) 0 []).segment 4 (wAttn true) ((wAttns (wDesc 1 0 0 1 0) 0 []).descAt 4 0x10000) 0 ≠ 0xFFFF ∧
    ((wAttns (wDesc 1 0 0 1 0) 0 []).rowChunk wRunning wRow).any (fun c => c.emptyQ.isEmpty && c.nanQ.isEmpty) = true := by
  decide +kernel

/-- ATTN over the three positions of the row's decoder cache, on felt page 6 of the row's own tenancy. -/
def wFelt : State :=
  let s := wCore [(0x10000, wDesc 2 1 0 1 0)] wRunning
    { q1 .transcribe with bankA := { pages := [6], dlen := 3 }, bankB := { pages := [6], dlen := 3 } }
  { s with felt := [(6, { tenancy := 2 })] }

theorem witness_AttentionReadsFeltWithinReach :
    (wFelt.descAt 4 0x10000).source ≠ 1 ∧ (wFelt.view (wFelt.descAt 4 0x10000) wRow).len = 3 ∧
    ∀ j ∈ List.range 3, (wFelt.keyAt 4 (wFelt.descAt 4 0x10000) (wAttnX 0) wRow wHome j).1 = .felt ∧
      wFelt.mayReach 2 ((wFelt.keyAt 4 (wFelt.descAt 4 0x10000) (wAttnX 0) wRow wHome j).2 / feltPageBytes) = true := by
  decide +kernel

/-- APPEND_KV of two tokens. -/
def wAppend : Ins := { flags := 0, sub := 0, cycles := 0, a := 0x10000, b := 0x12000, c := 2, d := 0, e := 0, f := 0 }
def wAppends (cache quota : Nat) (A : Option Nat) : State :=
  puts (wCore [(0x10000, wDesc 0 cache 0 1 0), (0x12000, List.replicate 64 3)] wRunning { q1 .transcribe with decA := A, bankB := { pages := [6] } })
    [(FELT_QUOTA, 2, quota)]

theorem witness_AppendKvWritesEveryPosition :
    (∀ s ∈ [wAppends 0 8 none, wAppends 1 8 none, wAppends 1 0 none, wAppends 1 8 (some 3)],
      (coded 0x20 wAppend s).Inv ∧ Runs (coded 0x20 wAppend s) wRunning wProg 0x20 wAppend ∧ appendOk wAppend = true ∧ wProg.holds 4 wAppend.a 64 = true ∧ s.namedRow wRunning 0 = some wRow ∧
      wRow.alloc = some wHome ∧ wRow.fault = none ∧ wRunning.rcd.lane = 0 ∧
      wProg.holds 4 wAppend.b (2 * (s.descAt 4 0x10000).part) = true ∧
      ((s.slot 1).committed.pagesFrom (s.slot 1).committed.dlen (s.descAt 4 0x10000).ppp).all (s.mayReach 2) = true) ∧
    ((wAppends 0 8 none).descAt 4 0x10000).cap * ((wAppends 0 8 none).descAt 4 0x10000).entry ≤ wHome.cacheLen ∧
    ((wAppends 1 8 none).firstDecoder 9 2 1 3 ((wAppends 1 8 none).descAt 4 0x10000)).2.1 = true ∧
    ((wAppends 1 0 none).firstDecoder 9 2 1 3 ((wAppends 1 0 none).descAt 4 0x10000)).2.1 = false := by
  decide +kernel

/-- A prefix command pending on page 2, and two open reference changes. -/
def wPfx : State := { wServe with pfx := [(2, ⟨0, 1, 3, false, 139000000⟩)], led := { opens := [(2, 1), (2, -1)] } }

theorem witness_PrefixCommandsViewAndReferences :
    (wServe.Inv ∧ wServe.MayWrite (.fn 2) .felt 2 ∧ wServe.cdReady = true ∧ Map.find wServe.pfx 2 = none) ∧
    ((puts wServe [(PKGB_STAT_CD_READY, 0, 0)]).cdReady = false) ∧
    (wPfx.Inv ∧ wPfx.MayWrite (.fn 2) .felt 2 ∧ Map.find wPfx.pfx 2 ≠ none ∧ wPfx.led.opens = (2, 1) :: [(2, -1)]) ∧
    ((with1 (q1 .listen)).MayRead (.fn 2) .felt 2 ∧ (with1 (q1 .listen)).inRange 2 ((with1 (q1 .listen)).get FELT_SEL 2) = true) := by
  decide

def wPlain : Ins := { flags := 0, sub := 0, cycles := 0, a := 0, b := 0, c := 0, d := 0, e := 0, f := 0 }
def wPair (ended barrier : Nat) (final : Bool) : Run :=
  { wRunning with rcd := { wRunning.rcd with coreMask := 48 }, ended := ended, barrier := barrier, final := final }

theorem witness_BarriersAndStageEnds :
    barrierOk wPlain = true ∧
    (∀ r ∈ [wPair 0 0 true, wPair 0 32 true, wPair 32 0 true, wPair 32 0 false],
      (∀ op ∈ [0x30, 0x3F], (coded op wPlain (wCore [] r (q1 .transcribe))).Inv ∧
        Runs (coded op wPlain (wCore [] r (q1 .transcribe))) r wProg op wPlain ∧
        Runs ((coded op wPlain (wCore [] r (q1 .transcribe))).elapse 9) r wProg op wPlain) ∧
      (wCore [] r (q1 .transcribe)).outstanding 9 = false ∧ r.ends = none) ∧
    ((0 ||| two 4) &&& 48) ≠ 48 ∧ ((32 ||| two 4) &&& 48) = 48 ∧
    ((rowEnds (wPair 32 0 true).rows [{ result := [7], wake := [], eou := false }]).filter (fun y => y.1.fault.isNone)).length = 1 := by
  decide +kernel

/-- The results and the commit of chunk 7 on their way; `epoch` is the one it was dispatched under. -/
def wMsg (rest : List Byte) (epoch : Nat) : CommitMsg :=
  { slot := 1, k := 7, epoch := epoch, run := 9, tick := 7, lane := 0, rest := rest, truncated := false, eou := false }
def wCommit (m : CommitMsg) (held : Nat) : State :=
  { wCore [] wRunning (q1 .transcribe) with
    slots := [(1, { q1 .transcribe with home := some wHome, chunks := [{ k := 7, n := 7, trans := true, stage := .committing }] })]
    commits := [m], iso := { held := [(5, (3, held))] } }
/-- Chunk 7 has joined a tick's runs and has no features yet. -/
def wFeat : State :=
  wCore [] wRunning (q1 .transcribe) |> fun s =>
    { s with slots := [(1, { q1 .transcribe with home := some wHome, chunks := [{ k := 7, n := 7, trans := true, joined := some 7 }] })] }

theorem witness_ResultsCommitsAndFeaturesCrossTheLink :
    (let s := wCommit (wMsg [1, 2] 5) 0
     s.Inv ∧ s.couchUp = true ∧ s.commits.find? (fun y => y.slot == 1 && !y.rest.isEmpty) = some (wMsg [1, 2] 5) ∧
     s.resultRoom (s.tenancyOf 1) 2 = true ∧ (s.msgChunk (wMsg [1, 2] 5)).isSome = true) ∧
    ((wCommit (wMsg [1, 2] 5) 4194304).resultRoom 2 2 = false ∧ (wMsg [1, 2] 5).waited = false) ∧
    ((Map.get wFeat.couchTries 1 (0, 0)).1 ≠ 8 ∧ (1 : Nat) ≤ 4 ∧ Map.get { wFeat with couchTries := [(1, (8, 4))] }.couchTries 1 (0, 0) = (8, 4)) ∧
    (∀ e ∈ [(5, true), (3, false)],
      let s := wCommit (wMsg [] e.1) 0
      takeMsg (fun y => y.slot == 1 && y.rest.isEmpty) s.commits = some (wMsg [] e.1, []) ∧ s.stoppedT (s.tenancyOf 1) = false ∧
      (s.msgChunk (wMsg [] e.1)).isSome = true ∧ (s.slot 1).faultDue.any (fun f => f.2 == 7) = false ∧ (s.slot 1).accepts (wMsg [] e.1) = e.2 ∧ (s.slot 1).demoting = false) ∧
    (wFeat.Inv ∧ wFeat.cdReady = true ∧ ((wFeat.slot 1).chunks.find? (fun y => y.status.isNone)).any (fun c => c.joined.isSome && !c.featured) = true ∧
      (wFeat.slot 1).home = some wHome) := by
  decide +kernel

/-- A program image of one CODE section of 32 data bytes on core 20; its CRC is worked out by R15. -/
def progImage (lane : Nat) : List Byte :=
  record [(4, 0x4D495250), (2, 1), (2, 0x80), (8, 192), (4, 3290850768), (4, 0x203), (1, 2), (1, lane), (2, 7), (1, 0), (1, 1),
    (1, 0), (1, 1), (8, 1048576), (4, 64), (4, 0), (4, 0), (4, 64), (2, 600), (2, 1), (4, 0)] ++ zeros 64 ++
  record [(1, 20), (1, 1), (2, 0), (4, 8192), (4, 4096), (4, 32), (8, 160), (8, 0), (1, 0x3F)] ++ zeros 31

def wLoad (k : Nat) : State :=
  { puts wServe [(CORE_PROG_ID, 2, 0x201), (CORE_PROG_ADDR_LO, 2, 0x8000), (CORE_PROG_LEN, 2, 192)] with
    progCmds := if k = 0 then [] else [(2, { kind := k, addr := 0x8000, len := 192, id := 0x201, img := progImage 0 })]
    images := [(2, [{ wProg with reload := if k = 4 then 2 else 0 }])] }
def wUsed : State := { wLoad 0 with tt := { tick := 7, active := some { wTt with runs := [wRunning.rcd] } } }


theorem witness_ProgramCommandsLoadCheckedImages :
    ((wLoad 0).Inv ∧ (wLoad 0).MayWrite (.fn 2) .prog 2 ∧ (wLoad 0).progIdle 2 = true ∧ (wLoad 0).get CORE_PROG_ADDR_LO 2 % 64 = 0 ∧
      (wLoad 0).mayRequest 2 = true ∧ (wLoad 0).loaded 2 0x201 = some wProg ∧ (wLoad 0).imageUsed 2 wProg = false ∧ wUsed.imageUsed 2 wProg = true) ∧
    (wLoad 1).imageCheck 2 (progImage 0) 192 = 0 ∧ (wLoad 1).imageCheck 2 (progImage 1) 192 = pgBAD_FORMAT ∧
    ((wLoad 4).programRuns 2 0x201 = false ∧ ((wLoad 4).loaded 2 0x201).any (fun m => m.reload == 2) = true) := by
  decide +kernel

theorem witness_CoreFaultViewAndSiding :
    (wServe.Inv ∧ wServe.MayRead (.fn 0) .core 20) ∧
    ((puts (wCore [] wRunning {}) [(CORE_STAT_STATE, 20, csSIDING)]).named 20 = false) ∧
    ((puts (wCore [] wRunning {}) [(CORE_STAT_STATE, 4, csSIDING)]).named 4 = true) := by
  decide

/-! ## Tables and the gather engine -/

/-- A table of 100 rows of 32 FP16 values on nodes 0 (this chip) and 1: even rows are this chip's. -/
def wTable (state : Nat) : Table :=
  { state := state, n := 2, rows := 100, dim := 32, off := 0, bytes := 4096, nodes := [0, 1], map := [(0, 0)], key := 77, next := 7 }

/-- Two nodes in X, joined, with the tables of tenancy 2 and the bytes of core 4. -/
def wGx (state : Nat) (gx : Gx) (mem : List (Nat × List Byte)) : State :=
  { puts (wCore mem wRunning (q1 .transcribe)) ([(BL_NODE_DX, 0, 2), (BL_NODE_DY, 0, 1), (GX_WIN_SIZE, 2, 1), (GX_TAG_QUOTA, 2, 8)] ++
      if state = 0 then [] else [(GX_TBL_STATE, 2, 1)]) with
    bl := { map := [(0, 3), (2, 3), (8, 3), (10, 3)] }
    gx := { gx with interval := 7, tables := if state = 0 then [] else [(32, wTable state)] } }

/-- The descriptor of a table of this chip alone (R379). -/
def wDef : List Byte :=
  fit 128 (record [(4, 0x4D494254), (2, 1), (1, 0), (1, 1), (4, 100), (2, 32), (1, 0), (1, 1), (8, 4096), (8, 8192)])
def wGxCmd (kind : Nat) : State := wGx (if kind = 0 then 0 else 1) { cmds := [(2, ⟨kind, 0, 64, 64, 0x4000, 0⟩)] } []

theorem witness_TablesQuotasAndWindowsAreGuarded :
    (∀ st ∈ [tbUNDEFINED, tbDISABLED, tbENABLED], (wGx st {} []).Inv ∧ (wGx st {} []).MayWrite (.fn 2) .gx 2 ∧
      (wGx st {} []).cdReady = true ∧ Map.find (wGx st {} []).gx.cmds 2 = none ∧ ((wGx st {} []).table 2 0).state = st ∧
      (wGx st {} []).get GX_TBL_SEL 2 = 0) ∧
    (let s := puts (wGx tbDISABLED {} []) [(GX_XFER_ADDR_LO, 2, 0x4000), (GX_XFER_OFF_LO, 2, 64), (GX_XFER_LEN, 2, 64)]
     (s.get GX_XFER_ADDR_LO 2 + two 32 * s.get GX_XFER_ADDR_HI 2) % 64 = 0 ∧ s.get GX_XFER_OFF_LO 2 + s.get GX_XFER_LEN 2 ≤ (s.table 2 0).bytes) ∧
    ((wGxCmd 0).tableCheck 2 0 (fit 128 wDef) = 0 ∧
      ∀ k ∈ [0, 4, 5], Map.find (wGxCmd k).gx.cmds 2 = some ⟨k, 0, 64, 64, 0x4000, 0⟩ ∧ (wGxCmd k).mayRequest 2 = true ∧
        { wGxCmd k with fns := [] }.mayRequest 2 = false) ∧
    (∀ e ∈ [(GX_TAG_QUOTA, 2048), (GX_PF_QUOTA, 128)], ∀ v ∈ [5, 2047],
      let s := puts (wGx 1 {} []) [(GX_TAG_QUOTA, 0, 0), (GX_PF_QUOTA, 0, 0)]
      let sum := (((List.range 64).filter (fun u => u ≠ 1)).map (fun u => s.shown e.1 u)).foldl (· + ·) 0 + v % two e.1.w
      if v = 5 then sum ≤ e.2 else e.2 < sum) ∧
    (wServe.sameWord .gx 2 0x100 0x500000 = false ∧ wServe.sameWord .gx 2 0x104 1 = false ∧ wServe.sameWord .gx 2 0x108 5 = false ∧
      wServe.get GX_TBL_STATE 2 = 0 ∧ wServe.winBase 2 / two 20 + 5 ≤ 61440 ∧ (wGx 1 {} []).get GX_TBL_STATE 2 ≠ 0 ∧
      (wGx 1 {} []).sameWord .gx 2 0x108 5 = false) := by
  decide +kernel

/-- GATHER of one bag of the rows given, at 0x10000 (R382). -/
def wGather : Ins := { wPlain with a := 0x10000 }
def wList (rows : List Nat) : List (Nat × List Byte) :=
  [(0x10000, record [(1, 0), (1, 0), (2, 1), (4, rows.length), (4, 0x14000), (4, 0x11000), (4, 0), (4, 0x12000)]),
   (0x11000, rows.flatMap (toLe 4)), (0x12000, record [(4, 0), (4, rows.length)])]

/-- A list that waits for row 5 of node 1, whose read holds tag 0 with generation 3. -/
def wAwait : Gx :=
  { lists := [{ id := 8, tenancy := 2, table := 0, core := 4, run := 9, flags := 0, out := 0x14000, view := 7, bounds := [0, 1], rows := [5],
                weights := [], got := [.waiting] }],
    nextList := 9, tags := [(0, { tenancy := 2, list := 8, row := 5, gen := 3, at_ := 150000000, node := 1 })], gens := [(0, 3)] }

theorem witness_GatherListsRunToTheirEnd :
    (∀ e ∈ [(tbDISABLED, [4, 200]), (tbENABLED, [4, 6, 0xFFFFFFFF, 100]), (tbENABLED, [5])],
      let s := wGx e.1 {} (wList e.2)
      let h := s.rdBytes .sram (sramAt 4 0x10000) 32
      (coded 0x21 wGather s).Inv ∧ Runs ((coded 0x21 wGather s).elapse 9) wRunning wProg 0x21 wGather ∧ wRunning.ends = none ∧
      oneOperand wGather 64 = true ∧ wProg.holds 4 0x10000 32 = true ∧ gatherOk h = true ∧
      (gatherArrays h).all (fun x => wProg.holds 4 x.1 x.2) = true ∧ wProg.holds 4 (le h 8 4) (gatherOut h 32) = true ∧
      boundsOk (s.words 4 (le h 0x14 4) (le h 2 2 + 1)) (le h 4 4) = true ∧ s.gx.lists = [] ∧ s.gx.prefetch = [] ∧
      (s.table 2 0).next = s.viewNow ∧ s.tagsHeld 2 < s.get GX_TAG_QUOTA 2 ∧ s.freeTag = some 0 ∧ s.words 4 0x11000 e.2.length = e.2) ∧
    ((wTable 2).owner 4 = 0 ∧ (wTable 2).owner 6 = 0 ∧ indexOut true 100 6 = .waiting ∧ indexOut true 100 100 = .invalid ∧
      (wTable 2).owner 5 = 1 ∧ (wGx 2 {} []).reachable 1 = true ∧ (wGx 2 {} []).node = 0) ∧
    ((wGx 2 wAwait []).Inv ∧ (wGx 2 wAwait []).tagOf 1 (4 + 8 * 3) = (wGx 2 wAwait []).gx.tags.head? ∧
      (wGx 2 wAwait []).tagOf 1 (1 + 8 * 3) = (wGx 2 wAwait []).gx.tags.head? ∧ (wGx 2 wAwait []).tagOf 1 (4 + 8 * 2) = none ∧
      (∀ a ∈ ((wGx 2 wAwait []).member 2 0 1).applied, a.1 < 7) ∧ (wGx 2 wAwait []).runBy 9 = some wRunning ∧
      (∀ l ∈ wAwait.lists, l.todo = [] ∧ l.prefetch = false) ∧
      ∀ l ∈ wAwait.lists, IdxOut.waiting ∉ (l.fill 5 (.row [])).1) := by
  decide +kernel

/-- A read of row `row` in view `view` from node 1. -/
def wReq (key row view : Nat) : ReadReq := { src := 1, tenancy := 2, table := 0, key := key, row := row, view := view, tag := 4, gen := 9 }

theorem witness_ReadRequestsAreServedAfterTheirInterval :
    (wGx 2 {} []).Inv ∧ (wGx 2 {} []).standby = false ∧ ((wGx 2 {} []).table 2 0).state = tbENABLED ∧
    ((wGx 2 {} []).table 2 0).key = (wReq 77 98 7).key ∧ ((wGx 2 {} []).table 2 0).key ≠ (wReq 78 98 7).key ∧
    (wReq 77 98 7).view ≤ ((wGx 2 {} []).table 2 0).next ∧ ((wGx 2 {} []).table 2 0).next < (wReq 77 98 8).view ∧
    (wGx 2 {} []).gx.waiting = [] ∧ (∃ x ∈ (wGx 2 { waiting := [wReq 77 98 8] } []).gx.waiting, x.src = (wReq 77 98 7).src) ∧
    98 < ((wGx 2 {} []).table 2 0).rows ∧ ((wGx 2 {} []).table 2 0).owner 98 = (wGx 2 {} []).node ∧ (wGx 2 {} []).mem.damage = [] ∧
    (wGx 2 {} []).flag MEM_INJECT_ARM = false ∧ ((wGx 1 {} []).table 2 0).state ≠ tbENABLED := by
  decide +kernel

/-- UPDATE of one row with the rule ADD (R399), and an entry that waits for interval 7. -/
def wUpdate : List (Nat × List Byte) :=
  [(0x10000, record [(1, 0), (1, 0), (1, 0), (1, 0), (4, 1), (4, 0), (4, 0), (4, 0x11000), (4, 0x12000)]), (0x11000, toLe 4 4)]
def wEntry (rule : Nat) : UpdEntry :=
  { tenancy := 2, table := 0, interval := 7, node := 0, seq := 0, row := 4, rule := rule, flags := 0, eta := 0, decay := 0, parts := 1,
    got := [(0, List.replicate 32 0x3F800000)], key := 77 }
/-- Interval 7 is cut; node 1's fence for it is in, or not. -/
def wCut (fence : Bool) : State :=
  let s := wGx 2 { upds := [wEntry 2], limits := [(32, 150000000)], members := if fence then [(32 * 32 + 1, { fences := [(7, (0, 0))] })] else [] } []
  { s with gx := { s.gx with interval := 8 } }
/-- An UPDATE packet for row 4 from node 1 (R388). -/
def wPacket : List Byte := record [(4, 4), (4, 55), (4, 0), (4, 0), (4, 77), (1, 2), (1, 0), (1, 0), (1, 1), (1, 0)]
def wFence : FenceMsg := { tenancy := 2, table := 0, key := 77, interval := 7, reads := 3, updates := 1 }
def wApplied : AppliedMsg := { tenancy := 2, table := 0, key := 77, interval := 6, rows := 2 }

theorem witness_UpdatesAreHeldFencedAndApplied :
    (let s := wGx 2 {} wUpdate
     let h := s.rdBytes .sram (sramAt 4 0x10000) 32
     (coded 0x22 wGather s).Inv ∧ Runs ((coded 0x22 wGather s).elapse 9) wRunning wProg 0x22 wGather ∧ oneOperand wGather 64 = true ∧
     updateOk h = true ∧ wProg.holds 4 (le h 0x10 4) 4 = true ∧
     wProg.holds 4 (le h 0x14 4) 128 = true ∧ s.words 4 (le h 0x10 4) 1 = [4] ∧ (wTable 2).owner 4 = s.node ∧ s.gx.seq + 1 < two 32) ∧
    ((wGx 2 {} []).standby = false ∧ le wPacket 0x10 4 = 77 ∧ le wPacket 4 4 = 55 ∧ le wPacket 0x18 1 % 16 = 0) ∧
    ((wCut true).Inv ∧ (wCut true).cutTaken ((wCut true).table 2 0) = true ∧ (wCut true).fenced 2 0 ((wCut true).table 2 0) = true ∧
      (wCut false).fenced 2 0 ((wCut false).table 2 0) = false ∧ Map.find (wCut false).gx.limits (tabKey 2 0) = some 150000000 ∧
      (wEntry 2).values = some (List.replicate 32 0x3F800000) ∧
      (newRow 0 64 (zeros 64) false (List.replicate 32 0x3F800000) 0).isSome = true) ∧
    ((wGx 2 {} []).pkg.sdUp = true ∧ (wGx 2 {} []).gx.interval ≤ (wGx 2 {} []).tt.tick ∧ ((wGx 2 {} []).table 2 0).next ≤ wFence.interval) := by
  decide +kernel

/-! ## The solver -/

/-- A schedule of one variable and one parameter: fp64, no constraint, one TEMPLATE term (R425). -/
def wSched : List Byte :=
  record [(4, 0x4D495351), (2, 1), (2, 0x80), (8, 160), (4, 1346773593), (4, 0x55), (1, 0), (1, 8), (1, 2), (1, 30), (2, 1), (2, 0), (2, 0), (2, 1), (2, 0),
    (2, 0), (4, 1), (4, 65536), (4, 1000), (4, 300), (4, 50), (4, 1), (8, 0x3F800000), (8, 0x3F800000), (8, 0), (8, 0), (4, 0x80), (4, 16),
    (4, 0x90), (4, 16), (4, 0xA0), (4, 0), (4, 0xA0), (4, 0), (8, 0), (8, 0), (4, 0), (1, 1), (1, 0), (2, 0), (8, 0x3FF0000000000000)]
def wHandle (cur : Option Nat) : SolHandle := { img := wSched, base := 3, units := 1, cur := cur, bank0 := [0x4000000000000000] }

/-- A parameter block of that schedule; its CRC is worked out by R15. -/
def wParam (crc : Nat) : List Byte :=
  record [(4, 0x4D495350), (2, 1), (1, 0), (1, 0), (4, 1), (4, 0x55), (4, crc), (8, 0), (4, 0), (8, 0x4008000000000000)]

/-- Tenancy 2's handle 0 and a solver as given. -/
def wSol (x : Sol) (mem : List (Nat × List Byte)) : State :=
  { puts (wCore mem wRunning (q1 .transcribe)) [(SOL_STORE_QUOTA, 2, 4), (SOL_IMG_LEN, 2, 160), (SOL_PARAM_TICK_LO, 2, 20)] with
    cnt := 145000000, sol := x
    tt := { tick := 7, nextSlot := 5, active := some { wTt with mode := 1 } } }
def wHeld : Sol := { handles := [(8, wHandle (some 0))] }

/-- A request of handle 0 with 72 bytes for its result at 0x14000, due by 159 ms (R439). -/
def wRequest : List Byte :=
  record [(1, 0), (1, 0), (1, 0), (1, 0), (4, 77), (8, 159000000), (8, 0x12000), (8, 0x14000), (4, 72), (2, 0), (2, 0), (8, 0), (8, 0), (8, 0)]
def wReq0 (core : Option Nat) (full : Bool) : SolReq := { id := 6, tenancy := 2, core := core, run := 9, addr := 0x4000, arrived := 144000000, full := full }
def wReady : SolReq := (wReq0 none false).fill wRequest 144500000
def wSolving (pres phase : Nat) : Solving :=
  { req := (wReq0 (some 4) false).fill wRequest 144500000, start := 144600000, it := { x := [0x4000000000000000] }, phase := phase, endAt := 146000000,
    pres := pres }

theorem witness_SolverCommandsLoadAndCheck :
    ((wSol {} []).Inv ∧ (wSol {} []).MayWrite (.fn 2) .sol 2 ∧ (wSol {} []).scBusy 2 = false ∧ (wSol {} []).get SOL_HANDLE_SEL 2 = 0 ∧
      ((wSol {} []).solHandle 2 0).units = 0) ∧
    ((wSol wHeld []).mayRequest 2 = true ∧ { wSol wHeld [] with fns := [] }.mayRequest 2 = false ∧
      (wSol { cmds := [(2, ⟨0, 0, 64, 160, 0⟩)] } []).loadCode 2 ⟨0, 0, 64, 160, 0⟩ (zeros 160) ≠ 0) ∧
    (((wSol wHeld []).solHandle 2 0).units ≠ 0 ∧ (wSol wHeld []).solNamed 2 0 = false ∧
      (wSol { wHeld with reqs := [wReady] } []).solNamed 2 0 = true ∧ ((wSol wHeld []).solHandle 2 0).due = none) ∧
    (sdHeadBad wSched 160 = false ∧ sdLimits wSched = false ∧ paramBad wSched (wParam 492564406) = false ∧ paramBad wSched (wParam 0) = true ∧
      (20 = 0 ∨ ((wSol wHeld []).elapse 9).cnt < (wSol wHeld []).tickAt 20)) ∧
    (wServe.pkg.sdUp = true ∧ (∀ v ∈ [5, 255],
      let s := puts (wSol {} []) [(SOL_STORE_QUOTA, 0, 0)]
      let sum := (((List.range 64).filter (fun u => u ≠ 1)).map (fun u => s.shown SOL_STORE_QUOTA u)).foldl (· + ·) 0 + v
      if v = 5 then sum ≤ 240 else 240 < sum)) := by
  decide +kernel

/-- The schedule is taken where its FACTOR is one the engine accepts (R427). -/
theorem witness_scheduleTaken (h : Config.factorOk (fit 160 wSched) = true) :
    (wSol { cmds := [(2, ⟨0, 0, 64, 160, 0⟩)] } []).loadCode 2 ⟨0, 0, 64, 160, 0⟩ (fit 160 wSched) = 0 := by
  unfold State.loadCode sdBodyBad
  rw [h]
  decide +kernel

theorem witness_SolveRequestsRunToTheirEnd :
    ((wSol wHeld []).MayWrite (.fn 2) .sol 2 ∧
      (wSol wHeld []).get SOL_REQ_ADDR_LO 2 % 64 = 0) ∧
    (let s := wSol wHeld [(0x10000, wRequest)]
     let x := (wReq0 (some 4) false).fill wRequest 145000009
     (coded 0x25 wGather s).Inv ∧ Runs ((coded 0x25 wGather s).elapse 9) wRunning wProg 0x25 wGather ∧ s.rdBytes .sram (sramAt 4 0x10000) 64 = wRequest ∧ oneOperand wGather 1 = true ∧
     wProg.holds 4 0x10000 64 = true ∧ wProg.holds 4 x.resAddr x.resLen = true ∧
     wProg.holds 4 x.measAddr (8 * sdMeas (s.solHandle 2 x.handle).img) = true ∧ s.solHeld 2 < 8 ∧ 64 ≤ x.resLen ∧ s.reqBad x wRequest = false) ∧
    (let s := wSol { wHeld with reqs := [wReq0 none false] } []
     s.sol.reqs.find? (fun y => y.tenancy == 2 && !y.read && y.core.isNone) = some (wReq0 none false) ∧
     (wReq0 none false).dead = false ∧ s.mayRequest 2 = true ∧ 64 ≤ wReady.resLen ∧ s.reqBad wReady (fit 64 wRequest) = false ∧ s.reqBad { wReady with flags := 8 } (fit 64 wRequest) = true) ∧
    (let s := wSol { wHeld with reqs := [wReady] } []
     (s.elapse 9).nextSolve = some wReady ∧ (s.solHandle 2 0).cur ≠ none ∧ bit wReady.flags 1 = false ∧
     sdMeas (s.solHandle 2 0).img = 0 ∧ s.measOf wReady 0 none = some [] ∧ s.mem.damage = [] ∧
     s.sol.reqs.find? (fun y => y.tenancy == 2 && y.id == 6 && y.read && !y.full) = some wReady) ∧
    ((wSolving 0 3).req.dead = false ∧ (wSolving 0 3).req.tenancy < 64 ∧ (wSolving 0 3).req.handle < 4 ∧ (wSolving 0 3).it.bad = false ∧ sdFixed wSched = false ∧ (wSolving 0 3).converged wSched = true ∧
      (wSolving 0x3FF0000000000000 3).converged wSched = false ∧ (wSolving 0 3).endAt < (wSolving 0 3).req.deadline ∧
      (wSolving 0x3FF0000000000000 3).stalls + 1 < 3 ∧ 3 < sdIterMax wSched) := by
  decide +kernel

/-! ## Buarcon Link, the calender and mailboxes -/

/-- The program with a SCRATCH section. -/
def wSender : Image := { wProg with sections := wProg.sections ++ [⟨4, 7, 0x30000, 0x10000, 0, 0⟩] }

/-- Port 2 (−X, towards node 1) in a state, trained, and a SCRATCH section of tenancy 2 on core 4. -/
def wLink (st : Nat) (q : BlPort) (mem : List (Nat × List Byte)) : State :=
  { puts (wGx 0 {} mem) [(BL_PORT_STAT_STATE, 2, st), (BL_PORT_STAT_WIDTH, 2, if st = 0 then 0 else 4), (HT_STAT_EVER_LOCKED, 0, 1)] with
    bl := { ports := [(2, q)], map := [(0, 3), (2, 3), (8, 3), (10, 3)], noded := true }
    images := [(2, [wSender])] }

/-- A flit of zeros is good: FSEQ 0 and a CRC of 0 (R15). -/
def wFlit (crc : Nat) : List Byte := zeros 0xF8 ++ toLe 8 crc

theorem witness_FlitsAreCheckedAndSequenced :
    (∀ st ∈ [ptCHECK, ptIN_SERVICE, ptSIDING, ptRETURNING], (wLink st {} []).Inv ∧ (wLink st {} []).blState 2 = st ∧
      (wLink st {} []).get BL_PORT_STAT_WIDTH 2 ≠ 0 ∧ st ≠ ptDARK) ∧
    crc64 ((fit 256 (wFlit 0)).take 0xF8) = le (fit 256 (wFlit 0)) 0xF8 8 ∧ crc64 ((fit 256 (wFlit 1)).take 0xF8) ≠ le (fit 256 (wFlit 1)) 0xF8 8 ∧
    le (fit 256 (wFlit 0)) 0 2 = ((wLink ptCHECK {} []).blPort 2).expect ∧ le (fit 256 (wFlit 0)) 0 2 ≠ ((wLink ptCHECK { expect := 1 } []).blPort 2).expect ∧
    ((wLink ptCHECK { fails := 6 } []).blPort 2).fails < 7 ∧ 7 ≤ ((wLink ptCHECK { fails := 7 } []).blPort 2).fails ∧
    (wLink ptDARK {} []).blState 2 = ptDARK := by
  decide +kernel

/-- The HELLO of node 1's port 0 (R472), and one of another stepping. -/
def wHello (stepping : Nat) : HelloMsg :=
  { node := 1, consist := 0, dx := 2, dy := 1, port := 0, period := (wLink 0 {} []).get TT_PERIOD, tick := 8, everLocked := true, stepping := stepping }

theorem witness_PortsTrainSideAndReturn :
    (∀ st ∈ [ptRETURNING, ptDARK, ptTRAINING], (wLink st {} []).Inv ∧ (wLink st {} []).blState 2 = st ∧ (wLink st {} []).bl.noded = true ∧
      (wLink st {} []).lanesAllowed 2 15 ≠ 0 ∧ (wLink st {} []).flag MEMG_STAT_FATAL = false) ∧
    (let s := puts (wLink ptIN_SERVICE {} []) [(BL_PORT_STAT_LANES_OK, 2, 3)]
     s.Inv ∧ s.portRuns 2 = true ∧ s.lanesAllowed 2 (s.get BL_PORT_STAT_LANES_OK 2 ||| 12) ≠ 0 ∧
     s.lanesAllowed 2 (s.get BL_PORT_STAT_LANES_OK 2 ||| 12) ≠ s.get BL_PORT_STAT_LANES_OK 2) ∧
    ((wLink ptCHECK {} []).helloCause 2 (wHello ((wLink 0 {} []).get PKG_STEPPING_DIGIT + 16 * (wLink 0 {} []).get PKG_STEPPING_LETTER)) = 0 ∧
      (wLink ptCHECK {} []).helloCause 2 (wHello 255) = 6 ∧ ((wLink ptCHECK {} []).blPort 2).ready = false) ∧
    (((wLink ptSIDING { reqSent := true, drainedSent := true } []).blPort 2).reqSent = true ∧
      ((wLink ptSIDING { reqSent := true, drainedSent := true } []).blPort 2).back = false ∧
      (wLink ptSIDING {} []).portRuns 2 = true ∧ (wLink ptIN_SERVICE {} []).portRuns 2 = true) := by
  decide +kernel

def wNotice : MapNotice := { origin := 1, serial := 3, tick := 9, changes := [{ node := 1, port := 0, state := 4 }] }
def wPkt (seq : Nat) : Packet :=
  { dst := 0, src := 1, route := 0, gen := 0, counted := true, kind := 0x10, tenancy := 2, seq := seq, arg := 0, payload := [] }
def wHole : State := { wLink ptIN_SERVICE {} [] with bl := { reorder := [wPkt 1], live := [3], seen := [(1, 3)] } }

theorem witness_MapsDrainsAndTopology :
    ((wLink 0 {} []).Inv ∧ (wNotice.origin.val, wNotice.serial) ∉ (wLink 0 {} []).bl.seen ∧ (wNotice.origin.val, wNotice.serial) ∈ wHole.bl.seen) ∧
    (wHole.Inv ∧ wHole.bl.live ≠ [] ∧ (wLink 0 {} []).bl.live = [] ∧ wHole.mem.damage = [] ∧ vcOf (wPkt 1).kind = some 1 ∧
      (wPkt 1).seq = (Map.get wHole.bl.seqIn 5 0 + 1) % 65536) ∧
    ((wLink 0 {} []).MayWrite (.fn 0) .blg 0 ∧ (wLink 0 {} []).portsQuiet = true ∧ formOk (bits 0x10200 8 6) (bits 0x10200 16 3) = true ∧
      (wLink ptCHECK {} []).portsQuiet = false ∧ (wLink ptCHECK {} []).sameWord .blg 0 0x100 0x10400 = false ∧
      (wLink ptCHECK {} []).sameWord .blg 0 0x104 5 = false) := by
  decide +kernel

/-- A SEND descriptor of four bf16 elements to core 4 of a node, and its elements (R480). -/
def wSend (node : Nat) : List (Nat × List Byte) :=
  [(0x10000, record [(1, node), (1, 4), (1, 6), (1, 1), (4, 4), (4, 0x12000), (4, 0x30000), (1, 9)]), (0x12000, (List.replicate 4 0x3F80).flatMap (toLe 2))]
def wWait (target : Nat) : Ins := { wPlain with a := 9, b := target, c := 1200 }
def wRunL : Run := { wRunning with waits := [(4, { mailbox := 9, target := 2, limit := 1200, since := 140000000 })] }
/-- A TENSOR_DATA packet of one block of two elements. -/
def wTensor : Packet := { wPkt 0 with kind := 0x30, arg := 0x80000002, payload := record [(1, 0), (1, 0), (1, 9), (1, 4), (4, 0x30000), (8, 0)] ++ zeros 24 }

theorem witness_TensorsMailboxesAndWaits :
    (∀ node ∈ [0, 1, 9],
      let s := wLink ptIN_SERVICE {} (wSend node)
      let h := s.rdBytes .sram (sramAt 4 0x10000) 32
      (coded 0x23 wGather s).Inv ∧ Runs ((coded 0x23 wGather s).elapse 9) wRunning wSender 0x23 wGather ∧ wSender.holds 4 0x10000 32 = true ∧
      wSender.holds 4 0x12000 8 = true ∧ oneOperand wGather 1 = true ∧ sendOk h = true ∧ (parseSend h).node = node ∧ s.scratchHolds 2 4 0x30000 16 = true ∧ s.standby = false) ∧
    ((wLink ptIN_SERVICE {} []).reachable 1 = true ∧ (wLink ptIN_SERVICE {} []).reachable 9 = false) ∧
    (∀ n ∈ [0, 1], Runs (coded 0x24 (wWait n) (wLink ptIN_SERVICE {} [])) wRunning wSender 0x24 (wWait n) ∧ waitOk (wWait n) = true) ∧
    (waitOk (wWait 1) = true ∧ reached ((wLink ptIN_SERVICE {} []).mailbox 2 4 9) 0 = true ∧
      reached ((wLink ptIN_SERVICE {} []).mailbox 2 4 9) 1 = false) ∧
    (let s := wLink ptIN_SERVICE {} []
     s.scratchHolds 2 (byteAt wTensor.payload 3 % 64) (le wTensor.payload 4 4) (wTensor.arg % 8192 * 4) = true) ∧
    (let s := { wLink ptIN_SERVICE {} [] with runs := [wRunL] }
     s.Inv ∧ s.runs.find? (fun y => (Map.find y.waits 4).isSome) = some wRunL ∧ s.runBy 9 = some wRunL ∧
     (Map.find wRunL.waits 4).isSome = true ∧ wRunL.rcd.tenancy < 64) := by
  decide +kernel

def wXfer (st : Nat) : State :=
  let s := puts (wLink ptIN_SERVICE {} []) [(BL_XFER_LEN, 2, 4096), (BL_XFER_NODE, 2, 1), (BL_RXWIN_SIZE, 2, 4), (BL_RXWIN_LO, 2, 0x100000)]
  { s with bl := { s.bl with xfers := if st = 0 then [] else [(2, { src := 0, node := 1, off := 0, len := 4096, state := st, since := 120000000 })] } }
def wData (arg : Nat) : Packet := { wPkt 0 with arg := arg, payload := zeros 600 }

theorem witness_StateTransfersComplete :
    ((wXfer 0).Inv ∧ (wXfer 0).MayWrite (.fn 2) .blt 2 ∧ Map.find (wXfer 0).bl.xfers 2 = none ∧ (wXfer 0).get BL_XFER_LEN 2 % 64 = 0 ∧
      (wXfer 0).get BL_XFER_LEN 2 ≤ 16777216 ∧ (wXfer 0).reachable ((wXfer 0).get BL_XFER_NODE 2) = true) ∧
    ((wXfer 1).mayRequest 2 = true ∧ { wXfer 1 with fns := [] }.mayRequest 2 = false) ∧
    (∀ st ∈ [1, 2], Map.find (wXfer st).bl.xfers 2 = some { src := 0, node := 1, off := 0, len := 4096, state := st, since := 120000000 }) ∧
    ((wXfer 0).xferCode 2 0 600 false = 0 ∧ (wXfer 0).xferCode 2 16384 600 false = xfBOUNDS ∧ ((wXfer 0).fnState 2).flr = false) := by
  decide +kernel

/-! ## Power, memory integrity, the ledger, the debug gate -/

def wMode (r : Option ModeReq) : State := { wServe with pwr := { req := r } }
def wEnter (stores : List Store) : State := { puts wServe [(PWRG_STAT_MODE, 0, pmSTANDBY), (PWRG_STAT_ENTERING, 0, 1)] with stores := stores }

theorem witness_PowerModesAreRequested :
    (∀ p ∈ [Party.fn 0, .sb], wServe.MayWrite p .pwrg 0) ∧
    ((wMode (some { mode := 2, at_ := 0, sb := false, seen := 0 })).Inv ∧ wServe.flag PWRG_CTL_HOST_LOCK = false ∧ 2 ≠ wServe.get PWRG_STAT_MODE ∧
      pmOFF ≤ 4 ∧ wServe.get PWRG_STAT_MODE ≤ 4 ∧ pmOFF ≠ wServe.get PWRG_STAT_MODE) ∧
    ((wEnter []).Inv ∧ (wEnter []).standby = true ∧ (wEnter []).flag PWRG_STAT_ENTERING = true ∧ (wEnter []).runs = [] ∧
      (wEnter []).stores = [] ∧ (∀ e ∈ (wEnter []).slots, e.2.exp = none) ∧ (wEnter [wStore]).stores ≠ [] ∧
      ∃ e ∈ { wEnter [] with slots := [(1, { q1 .parked with exp := some wExp })] }.slots, e.2.exp ≠ none) := by
  decide

/-- The governor under a cap below its floor, and with a plan to make; core 4 has used its allowance. -/
def wGov (cap : Nat) (solved : Bool) : State :=
  { puts (wCore [] wRunning (q1 .transcribe)) [(PWR_CAP_MW, 0, cap), (PWR_TJ_MAX, 0, 100)] with
    pwr := { solved := solved, allow := [some 500], used := [(4, 600)], low := 16, lowNext := 16 } }

theorem witness_GovernorAllowancesAndTheLimiter :
    ((wGov 75000 false).Inv ∧ (wGov 75000 false).governs = true ∧ (wGov 75000 false).floorCap = false ∧ (wGov 75000 false).floorHot = false ∧
      (puts (wGov 75000 false) [(PWR_TEMP_SD, 0, 101 * 256)]).floorHot = true) ∧
    ((wGov 75000 true).pwr.solved = true ∧ bit (wGov 75000 true).pwr.stopped 4 = false ∧
      (wGov 75000 true).cyclesOf ((wGov 75000 true).pwr.allow.getD 0 none) ≤ Map.get (wGov 75000 true).pwr.used 4 0 ∧
      (wGov 75000 true).holderOf 4 = some wRunning ∧ (wGov 75000 true).runBy 9 = some wRunning ∧ wRunning.rcd.tenancy < 64 ∧
      (wGov 75000 true).standby = false ∧ wRunning.stops = none ∧ (wGov 75000 true).runs = [wRunning] ∧ wRunning.cores.head? = some 4 ∧
      (wGov 75000 true).pkg.sdUp = true ∧
      wRunning.rcd.lane = 0 ∧ bit (wGov 75000 true).pwr.low 4 = true ∧ bit (wGov 75000 true).pwr.lowNext 4 = true) := by
  decide +kernel

def wDamage : State :=
  { puts wServe [(MEM_LOG_WR, 0, 3), (MEM_LOG_RD, 0, 1), (MEMG_CTL_PATROL_EN, 0, 1)] with
    mem := { damage := [{ store := 1, unit := 4, addr := 1024, kind := 1, bit := 3 }], back := [(1, 4, 1024)], log := [(0, List.replicate 32 7)] } }
def wPatrol (store : Fin 16) (check : Fin 3) (link : LinkEcc := .good) : PatrolWord :=
  { store := store, unit := 4, addr := 2048, check := check, bit := 5, passEnd := false, link := link }

theorem witness_MemoryErrorsAreFoundAndLogged :
    (wDamage.Inv ∧ wDamage.mem.back.contains ((wordAt 1 4 1024).store, (wordAt 1 4 1024).unit, (wordAt 1 4 1024).addr) = true ∧
      wDamage.mem.back.contains ((wordAt 1 4 2048).store, (wordAt 1 4 2048).unit, (wordAt 1 4 2048).addr) = false) ∧
    (wDamage.pkg.sdUp = true ∧ wDamage.flag MEMG_CTL_PATROL_EN = true ∧
      (∀ e ∈ [wPatrol 1 0, wPatrol 1 2, wPatrol 9 2], patrolPlace e = true ∧
      ∀ d ∈ wDamage.mem.damage, d.same (wordAt e.store e.unit e.addr) = false)) ∧
    (wDamage.MayWrite (.fn 0) .memg 0 ∧ idxSub 3 (wDamage.get MEM_LOG_RD) ≤ idxSub (wDamage.get MEM_LOG_WR) (wDamage.get MEM_LOG_RD) ∧
      idxSub (wDamage.get MEM_LOG_WR) (wDamage.get MEM_LOG_RD) < idxSub 4 (wDamage.get MEM_LOG_RD) ∧ wDamage.MayRead (.fn 0) .memg 0) := by
  decide +kernel

/-- A block of LPDDR5X whose read the link corrects, or fails. -/
theorem witness_patrolOverTheLink :
    ∀ x ∈ [LinkEcc.corrected, LinkEcc.failed], patrolPlace (wPatrol 10 0 x) = true ∧
      ∀ d ∈ wDamage.mem.damage, d.same (wordAt 10 4 2048) = false := by
  intro x _
  refine ⟨?_, by decide⟩
  have h := dram_least
  have p : (2048 : Nat) < Config.dramMib * 1048576 := by omega
  simp [patrolPlace, wPatrol, p, show ((10 : Fin 16) : Nat) = 10 from rfl]

def wAudit (l : Option (List Imbalance)) : State := { wCore [] wRunning (q1 .transcribe) with led := { audit := l.map (fun x => (6, x)) } }
def wImbalance : Imbalance := { book := bkFELT_REF, inst := 2, tenancy := 2, expect := 5, found := 4 }

theorem witness_AuditsStopTheTenancyThatFails :
    (wAudit none).Inv ∧ (wAudit (some [])).led.audit = some (6, []) ∧ (wAudit (some [wImbalance])).led.audit = some (6, [wImbalance]) ∧
    wImbalance.tenancy < 64 ∧ wImbalance.book ≠ bkLINK ∧ wImbalance.book < 16 ∧ (wAudit (some [wImbalance])).stoppedT 2 = false ∧
    (wAudit none).MayRead (.fn 0) .ledg 0 := by
  decide

/-- The gate with groups open, a nonce of 50 ms, and a window on a store. -/
def wGate (groups store : Nat) : State :=
  { puts wServe [(DBGG_STAT_OPEN, 0, groups), (DBGG_STAT_NONCE, 0, 1), (DBG_WIN_TARGET_STORE, 0, store), (DBG_WIN_TARGET_UNIT, 0, 4),
      (DBG_WIN_ADDR_LO, 0, 128)] with
    iso := { nonce := some (50000000, challengeRecord 3 0 1 0 7), trace := [(0, List.replicate 16 9)] } }

theorem witness_TheDebugGateIsOpenedByKeyAlone :
    ((wGate 0 1).Inv ∧ (wGate 0 1).MayWrite (.fn 0) .dbgg 0 ∧ (wGate 0 1).flag DBGG_STAT_LOCKOUT = false ∧
      (puts (wGate 0 1) [(DBGG_STAT_LOCKOUT, 0, 1)]).flag DBGG_STAT_LOCKOUT = true ∧ (wGate 2 1).get DBGG_STAT_OPEN ≠ 0 ∧
      (wGate 0 1).flag DBGG_STAT_NONCE = true) ∧
    ((wGate 2 1).MayWrite (.fn 0) .dbgw 0 ∧ (wGate 2 1).window = some (.sram, 16777216 * 4 + 128) ∧ (wGate 2 1).groupOpen 4 = false ∧
      (wGate 18 1).groupOpen 4 = true ∧ (wGate 32 1).groupOpen 5 = true ∧ (wGate 2 1).groupOpen 5 = false ∧ (wGate 4 1).window = none ∧
      (wGate 1 1).groupOpen 0 = true ∧ (wGate 4 2).window = some (.felt, 128) ∧ (wGate 4 2).MayRead (.fn 0) .dbgw 0) ∧
    wServe.pkg.sdUp = true := by
  decide

theorem witness_reservations :
    ∀ v ∈ [5, 300],
      let sum := (((List.range 64).filter (fun u => u ≠ 1)).map (fun u => wServe.shown ISO_RES_RESERVE u)).foldl (· + ·) 0 + v % 512
      if v = 5 then sum ≤ 256 else 256 < sum := by
  decide +kernel

/-! ## The management plane, resets, register pages -/

/-- The signal box runs, at stage 4. -/
def wBox : State := puts wServe [(SB_STAT_STAGE, 0, 4)]
/-- A command body (R637): TAG, KIND, UNIT, FLAGS, GEN, ARG, EPOCH, CMD_ID. -/
def wBody (kind unit flags gen arg epoch id : Nat) : List Byte :=
  record [(2, 0x4D49), (1, 0), (1, kind), (2, unit), (2, flags), (4, gen), (4, arg), (8, epoch), (4, id), (4, 0)]
/-- The RESULT of a command at receipt, in a state. -/
def wCheck (s : State) (op : Nat) (body key : List Byte) : Nat :=
  (s.elapse 9).mgmtCheck (parseMgmt op body (if bit (le body 6 2) 0 = true then le body 0x10 8 else (s.elapse 9).carrier) key) body

theorem witness_ManagementCommandsAreJudgedAtReceipt :
    wBox.Inv ∧ wServe.sbUp = false ∧ wBox.sbUp = true ∧
    (∀ e ∈ [(mgSIDE, 1, 3, 2, 0), (mgRETURN, 2, 7, 0, 0), (mgTEARDOWN, 4, 1, 0, 0), (mgSET_CAP, 5, 0, 0, 75000), (mgSET_MODE, 5, 0, 0, 4),
            (mgSET_LOCK, 5, 0, 0, 1), (mgSET_POWER_PARAM, 5, 4, 0, 9), (mgKEY_REVOKE, 6, 0, 0, 3)],
      wCheck wBox e.1 (wBody e.2.1 e.2.2.1 e.2.2.2.1 0 e.2.2.2.2 0 5) [] = 0) ∧
    wCheck wBox mgKEY_PROGRAM (wBody 6 0 0 0 2 0 5) (zeros 96) = 0 ∧
    bodyOk (wBody 5 0 4 0 0 0 5) = false ∧ wCheck wBox mgSIDE (wBody 1 3 0 0 0 0 5) [] = mrLISTEN_CORE ∧
    wCheck (puts wBox [(MEMG_STAT_FATAL, 0, 1)]) mgSET_CAP (wBody 5 0 0 0 75000 0 5) [] = mrFATAL ∧
    wCheck { wBox with sb := { queue := List.replicate 32 (parseMgmt mgSET_CAP (wBody 5 0 0 0 75000 0 5) 1 []) } } mgSET_CAP
      (wBody 5 0 0 0 75000 0 5) [] = mrBUSY := by
  decide +kernel

/-- A command of epoch 1, which starts at the boundary of tick 50. -/
def wMg (op kind unit arg gen : Nat) : Mgmt := parseMgmt op (wBody kind unit 0 gen arg 0 5) 1 (zeros 96)
def wDue (l : List Mgmt) : State := { wBox with sb := { queue := l }, slots := [(1, q1 .transcribe)] }

theorem witness_ManagementCommandsApplyAtTheirEpoch :
    (wDue []).tickIndex 51 = 1 ∧ 1 ≤ (wDue []).tickAt 51 / 1000000000 ∧
    (∀ c ∈ [wMg mgSIDE 1 5 0 0, wMg mgTEARDOWN 4 1 0 5, wMg mgSET_CAP 5 0 75000 0, wMg mgSET_MODE 5 0 2 0, wMg mgSET_LOCK 5 0 1 0,
            wMg mgSET_POWER_PARAM 5 0 9 0, wMg mgKEY_REVOKE 6 0 3 0, wMg mgKEY_PROGRAM 6 0 2 0],
      (wDue [c]).sb.queue = [c] ∧ c.epoch ≤ 1 ∧ (wDue [c]).unitGen c.kind c.unit = c.gen ∧ (wDue [c]).notApplicable c = false) ∧
    (let s := puts (wDue [wMg mgRETURN 1 5 0 0]) [(CORE_STAT_REQ_SB, 5, 1)]
     s.notApplicable (wMg mgRETURN 1 5 0 0) = false) ∧
    (let s := puts (wDue [wMg mgKEY_PROGRAM 6 0 2 0]) [(DBG_KEY_STAT_SLOTS, 0, 16)]
     s.unitGen 6 0 = (wMg mgKEY_PROGRAM 6 0 2 0).gen ∧ s.keyState 2 ≠ 0 ∧ (wDue []).keyState 2 = 0) ∧
    (wDue []).unitGen 5 0 ≠ (wMg mgSET_CAP 5 0 75000 1).gen ∧ (wMg mgSET_CAP 5 0 60000 0).samePlace (wMg mgSET_CAP 5 0 75000 0) = true := by
  decide +kernel

def wSnap : State := { wBox with sb := { snaps := [(0, 0, zeros 640)] }, cnt := 1300000000 }
def wKept (q : List Mgmt) (r : List MgmtResult) : State := { wBox with sb := { queue := q, results := r } }

theorem witness_ManagementQueriesAreAnswered :
    (wSnap.Inv ∧ wSnap.sbUp = true ∧ bodyOk (wBody 0 0 0 0 0 0 5) = true ∧ le (wBody 0 0 0 0 0 0 5) 0xC 4 = 0 ∧
      wSnap.sb.snaps.find? (fun x => x.1 == le (wBody 0 0 0 0 0 0 5) 0x10 8 && x.2.1 + 200000000 ≤ (wSnap.elapse 9).cnt) =
        some (0, 0, zeros 640)) ∧
    (wBox.sb.snaps = [] ∧ bodyOk [] = false) ∧
    ((wKept [wMg mgSET_CAP 5 0 75000 0] []).sb.queue = [wMg mgSET_CAP 5 0 75000 0] ∧
      (wMg mgSET_CAP 5 0 75000 0).cmdId = le (wBody 0 0 0 0 0 0 5) 0x18 4 ∧
      (wKept [] [{ cmd := wMg mgSET_CAP 5 0 75000 0, result := 2, genFound := 0, time := 9 }]).sb.queue = []) ∧
    (wBox.MayRead (.fn 0) .sb 0 ∧ wBox.MayRead .sb .sb 0) := by
  decide +kernel

def wSpdm (n : Nat) : State := { puts wBox [(SB_STAT_TRANSPORT, 0, 1)] with sb := { spdm := n } }

theorem witness_AddressesAndMeasurementsAreAnswered :
    (wSpdm 0).Inv ∧ (wSpdm 0).endpointUp = true ∧ (9 : Byte) ≠ 0 ∧ (9 : Byte) ≠ 255 ∧ (wSpdm 0).get SB_STAT_TRANSPORT = 1 ∧
    wBox.get SB_STAT_TRANSPORT ≠ 1 ∧ (wSpdm 0).sb.spdm < 1 ∧ (wSpdm 2).sb.spdm < 3 ∧ 3 ≤ (wSpdm 3).sb.spdm := by
  decide

/-- A firmware update at a state of its own, with images staged. -/
def wFw (n : Nat) (staged : Map Staged) : State :=
  { wBox with sb := { update := n, table := [(1, 7)], comp := 1, staged := staged } }
def wStagedFw (v active : Bool) : Staged := { version := 7, size := 2, data := [(0, 5)], verified := v, active := active }

theorem witness_FirmwareUpdateMovesThroughItsStates :
    (wFw 0 []).Inv ∧ (wFw 0 []).endpointUp = true ∧ fwComponent 1 = true ∧ (wFw 2 []).sb.table.any (fun e => e.1 == 1) = true ∧
    (Map.find (wFw 3 [(1, wStagedFw false false)]).sb.staged 1 = some (wStagedFw false false) ∧ 2 < 2 + [(6 : Byte)].length ∧
      1 + [(6 : Byte)].length ≤ 2 ∧ (putBytes (wStagedFw false false).data 1 [6]).length = 2 ∧
      (putBytes (wStagedFw false false).data 0 [6]).length ≠ 2) ∧
    ((wFw 2 []).sb.staged.filter (fun e => e.2.verified && !e.2.active)).map (fun e => e.1) = [] ∧
    ((wFw 2 [(1, wStagedFw true false)]).sb.staged.filter (fun e => e.2.verified && !e.2.active)).map (fun e => e.1) = [1] ∧
    ((wFw 2 [(3, wStagedFw true false)]).sb.staged.filter (fun e => e.2.verified && !e.2.active)).map (fun e => e.1) = [3] ∧
    (puts (wFw 0 [(1, wStagedFw true true)]) [(SB_STAT_RESTARTING, 0, 1)]).flag SB_STAT_RESTARTING = true ∧
    (wFw 0 []).flag SB_STAT_RESTARTING = false := by
  decide +kernel

/-- The images in flash, and a part at a stage of its boot. -/
def wFlash : FwImages :=
  { rom := zeros 48, sb := ⟨7, false, zeros 48⟩, sd := ⟨8, false, zeros 48⟩, cd := ⟨9, false, zeros 48⟩ }
def wStage (n : Nat) (released trained : Bool) : State :=
  { puts State.reset [(SB_STAT_STAGE, 0, n)] with
    linkUp := released, pkg := { powered := true, perst := !released, released := released, trained := trained, fw := some wFlash } }

theorem witness_PowerAndResetsBeginAgain :
    (∀ e ∈ (wFw 2 [(1, wStagedFw true false)]).sb.staged, fwComponent e.1 = true) ∧ (wFw 2 [(1, wStagedFw true false)]).Inv ∧
    (wFw 2 [(1, wStagedFw true false)]).pkg.powered = true ∧ (wFw 2 [(1, wStagedFw true false)]).pkg.perst = false ∧
    (State.reset.pkg.powered = false ∧ State.reset.pkg.perst = true ∧ State.reset.Inv ∧
      ∀ e ∈ State.reset.sb.staged, fwComponent e.1 = true) := by
  decide

theorem witness_BootStagesFollowInOrder :
    (wStage 0 false false).Inv ∧ (wStage 0 false false).pkg.fw = some wFlash ∧ (wStage 0 false false).pkg.powered = true ∧
    (wStage 0 false false).get SB_STAT_STAGE = 0 ∧ (wStage 0 false false).get SB_ANTIROLLBACK_SB ≤ wFlash.sb.version ∧
    (wStage 0 false false).get PKG_STRAPS_RECOVERY = 0 ∧ (wStage 0 false false).get PKG_STRAPS_TEST = 0 ∧
    (puts (wStage 0 false false) [(PKG_STRAPS_SB_BUS, 0, 1)]).get PKG_STRAPS_SB_BUS ≠ 0 ∧
    (wStage 1 false false).get SB_STAT_STAGE = 1 ∧ (wStage 1 false false).pkg.released = false ∧
    (wStage 1 true false).get PKG_BOOT_ERR_CODE = 0 ∧ (wStage 2 true false).get SB_STAT_STAGE = 2 ∧
    (wStage 2 true true).pkg.trained = true ∧ (wStage 3 true true).get SB_STAT_STAGE = 3 := by
  decide

theorem witness_RegisterWritesFollowTheirAccess :
    (wBox.Inv ∧ 0x1000 % 8 = 0 ∧ (wBox.pkg.sdUp = true ∧ pageAt 0xFFFFF = none) ∧ (wStage 1 true false).pkg.sdUp = false ∧
      wBox.MayWrite (.fn 2) .str 2) ∧
    (∀ v ∈ [1], v % 2 ≠ wBox.shown CORE_CTL_SIDE 3 ∧ v % 2 ≠ wBox.get CORE_CTL_SIDE 3) ∧
    (wBox.MayWrite (.fn 2) .str 2 ∧ 2 < Page.str.count ∧ 0x14 < 0x1000 ∧ wBox.MayWrite (.fn 0) .pkgb 0 ∧ wBox.MayWrite .sb .sb 0) ∧
    (wBox.pkg.sdUp = true ∧ wBox.fnEnabled 2 = true ∧ 5 < 260 ∧ 5 % 4 ≠ 3) ∧
    (wBox.MayRead (.fn 2) .str 2 ∧ wBox.MayRead (.fn 0) .ht 0 ∧ wBox.MayRead .sb .ht 0) := by
  decide

def wPending (hold apply : Nat) (at_ : Nat := 139999999) : State :=
  { puts wBox [(hdrHold .pwrg, 0, hold), (hdrApply .pwrg, 0, apply)] with pend := [⟨PWR_CAP_MW, 0, 0, 60000, 0, at_⟩] }

theorem witness_ShadowControlGathersPendingValues :
    ((wPending 1 0).Inv ∧ (wPending 1 0).MayWrite (.fn 0) .pwrg 0 ∧ (wPending 1 0).owner .pwrg 0 = 0 ∧ (wPending 1 0).hasShadow .pwrg 0 = true ∧
      (wPending 1 0).MayWrite (.fn 0) .pkgb 0 ∧ (wPending 1 0).hasShadow .pkgb 0 = false) ∧
    (PWR_CAP_MW ≠ TT_CTL_ENABLE ∧ 60000 < two PWR_CAP_MW.w ∧ PWR_CAP_MW.lo < 32 ∧ PWR_CAP_MW.off < 0x1000 ∧ PWR_CAP_MW.off ≠ 0x1C ∧
      PWR_CAP_MW.off ≠ 0x20 ∧ (wPending 1 0).flag (hdrHold .pwrg) 0 = true ∧ (wPending 1 0).flag (hdrApply .pwrg) 0 = false ∧
      (wPending 1 1).flag (hdrApply .pwrg) 0 = true ∧ (wPending 0 0).flag (hdrHold .pwrg) 0 = false ∧
      (wPending 0 0).owner .pwrg 0 = 0 ∧ 139999999 < (wPending 0 0).tickAt (wPending 0 0).tt.tick ∧
      (wPending 0 0 140000000).tickAt (wPending 0 0 140000000).tt.tick ≤ 140000000) := by
  decide

theorem witness_RefusedAccessesChangeOnlyTheirCount :
    wBox.Inv ∧ wBox.pkg.sdUp = true ∧ 3 < Page.str.count ∧ wBox.reachOf (.fn 2) .str 3 = .none ∧ wBox.reachOf (.fn 2) .sb 0 = .none ∧
    wBox.reachOf (.fn 2) .ledg 0 = .none ∧ wBox.reachOf (.fn 2) .memg 0 = .none := by
  decide

/-! ## Well-formedness: each check refuses a term that breaks it -/

def wIns : Ins := { flags := 0, sub := 0, cycles := 0, a := 0, b := 0, c := 0, d := 0, e := 0, f := 0 }
def wAX : AttnX := { row := 0, first := 0, head := 0, part := 0, kv := 0, fmt := 0 }
def wPF (l : List (List Bool)) : PortFrame := { age := 0, edgesL := 16, edgesR := 16, minPhase := 9, lines := l }
def wHm : HelloMsg := { node := 0, consist := 0, dx := 8, dy := 4, port := 0, period := 1, tick := 0, everLocked := true, stepping := 0 }
def wRq : ReadReq := { src := 0, tenancy := 2, table := 0, key := 0, row := 0, view := 0, tag := 0, gen := 0 }

/-- One refused term for each check of a command's own operands. -/
theorem smoke_wellFormed :
    ([.tickBoundary ⟨[1, 2], 0, 0⟩, .tickBoundary ⟨List.replicate 8 (two 32), 0, 0⟩, .ttPeriodWrite 0 .sb (two 32),
      .admitStream 0 0 (zeros 63) none, .admitStream 0 0 (zeros 64) (some (zeros 1)), .start 0 0 [], .stop 0 0 [], .promote 0 0 [], .demote 0 0 [],
      .exportStream 0 0 [], .importStream 0 0 [], .resume 0 0 [], .restart 0 0 [], .release 0 0 [], .strImgWindowWrite 0 .sb 0 4096 0,
      .strImgWindowWrite 0 .sb 0 0 (two 32), .doorbellWrite 0 0 0 0 (.write (two 32) 15), .doorbellWrite 0 0 0 0 (.write 0 16), .doorbellWrite 0 0 0 4096 .read, .submitAudio 0 0 [] none,
      .reelAreaWrite 0 .sb 4096 0, .reelAreaWrite 0 .sb 0 (two 32), .frameBuffer 0 0 (wPF []),
      .frameBuffer 0 0 (wPF (List.replicate 3 (List.replicate 32 true))), .frameBuffer 0 0 (wPF (List.replicate 4 (List.replicate 31 true))),
      .iecFrameReceive 0 0 ⟨0, 0, 2, false, two 24, 0, false, false, false, false, false, false, false, false⟩,
      .iecFrameReceive 0 0 ⟨0, 0, 2, false, 0, two 24, false, false, false, false, false, false, false, false⟩,
      .ixpCsqHostIdxWrite 0 .sb 0 (two 32), .readReply 0 0 0 (two 32) [], .refuse 0 0 0 (two 32) false, .gxTagQuotaWrite 0 .sb 0 (two 32),
      .gxPfQuotaWrite 0 .sb 0 (two 32), .solStoreQuotaWrite 0 .sb 0 (two 32), .isoResReserveWrite 0 .sb 0 (two 32), .gxWinWrite 0 .sb 0 4096 0,
      .gxWinWrite 0 .sb 0 0 (two 32), .flitReceive 0 0 (zeros 255), .xferAck 0 0 0 256, .blNodeWrite 0 .sb (two 32),
      .blConsistIdWrite 0 .sb (two 32), .modeRequest 0 .sb (two 32), .memLogRdWrite 0 .sb (two 32), .dbgHaltWrite 0 .sb false (two 32),
      .ceWriteback 0 1 0 (two 48), .patrolRead 0 ⟨1, 0, two 48, 0, 0, false, .good⟩, .patrolRead 0 ⟨1, 0, 0, 0, 65536, false, .good⟩, .getUnit 0 [], .side 0 [],
      .returnUnit 0 [], .teardown 0 [], .setCap 0 [], .setMode 0 [], .setLock 0 [], .setPowerParam 0 [], .keyRevoke 0 [], .getSnapshot 0 [],
      .getResult 0 [], .keyProgram 0 [] (zeros 96), .keyProgram 0 (zeros 32) [], .challenge 0 [], .getMeasurements 0 256 (zeros 32),
      .getMeasurements 0 1 [], .negotiateAlgorithms 0 (two 32) 0, .negotiateAlgorithms 0 0 (two 32), .getCertificate 0 256 0 0,
      .getCertificate 0 0 65536 0, .getCertificate 0 0 0 65536, .getPdr 0 (two 32), .getSensorReading 0 65536, .getStateSensorReadings 0 65536,
      .requestUpdate 0 (two 32) 0, .requestUpdate 0 0 65536, .passComponentTable 0 65536 0, .passComponentTable 0 0 (two 32),
      .updateComponent 0 65536 0 0, .updateComponent 0 0 (two 32) 0, .updateComponent 0 0 0 (two 32), .requestFirmwareData 0 (two 32) [],
      .requestFirmwareData 0 (two 32 - 1) [0], .registerWrite 0 .sb ⟨false, two 27, 4, 15, 0, false⟩,
      .registerWrite 0 .sb ⟨false, 0, 0, 0, 0, false⟩, .registerWrite 0 .sb ⟨false, 0, 65, 0, 0, false⟩, .registerWrite 0 .sb ⟨false, 0, 4, 16, 0, false⟩,
      .registerWrite 0 .sb ⟨false, 0, 4, 15, two 32, false⟩,
      .intStatClear 0 .sb (two 27) 0, .intForce 0 .sb 0 (two 32), .shadowHold 0 .sb (two 27) true, .shadowApply 0 .sb (two 27),
      .shadowAbandon 0 .sb (two 27)] : List Instr).all (fun c => !c.wellFormed) = true := by
  decide +kernel

/-- The fields of the structures that commands carry. -/
theorem smoke_fields :
    ([{ wIns with flags := 4 }, { wIns with sub := 65536 }, { wIns with cycles := two 32 }, { wIns with a := two 32 }, { wIns with b := two 32 },
      { wIns with c := two 32 }, { wIns with d := two 32 }, { wIns with e := two 32 }, { wIns with f := two 32 }] : List Ins).all (fun i =>
        !i.ok && !(Instr.tileW4 0 i ⟨0, [], 0⟩).wellFormed && !(Instr.attn 0 i wAX).wellFormed && !(Instr.vecAdd 0 i).wellFormed &&
        !(Instr.endStream 0 0 i []).wellFormed) = true ∧
    ([{ wAX with row := 2048 }, { wAX with first := two 32 }, { wAX with head := 65536 }, { wAX with part := 8 }, { wAX with kv := two 32 },
      { wAX with fmt := 2 }] : List AttnX).all (fun x => !x.ok && !(Instr.attn 0 wIns x).wellFormed) = true ∧
    (Instr.tileW8 0 wIns ⟨256, [], 0⟩).wellFormed = false ∧
    ([⟨[], [(two 64, 0, 0)], false⟩, ⟨[], [(0, two 32, 0)], false⟩, ⟨[], [(0, 0, (two 31 : Int))], false⟩,
      ⟨[], [(0, 0, -(two 31 : Int) - 1)], false⟩] : List RowEnd).all (fun x => !x.ok && !(Instr.endStream 0 0 wIns [x]).wellFormed) = true ∧
    ([{ wRq with key := two 64 }, { wRq with row := two 32 }, { wRq with view := two 64 }, { wRq with tag := 2048 },
      { wRq with gen := 256 }] : List ReadReq).all (fun q => !(Instr.readReq 0 ⟨q, .good, 0⟩).wellFormed) = true ∧
    ([⟨0, 0, two 64, 0, 0, 0⟩, ⟨0, 0, 0, two 64, 0, 0⟩, ⟨0, 0, 0, 0, two 32, 0⟩, ⟨0, 0, 0, 0, 0, two 32⟩] : List FenceMsg).all
      (fun f => !(Instr.fence 0 0 f).wellFormed) = true ∧
    ([⟨0, 0, two 64, 0, 0⟩, ⟨0, 0, 0, two 64, 0⟩, ⟨0, 0, 0, 0, two 32⟩] : List AppliedMsg).all (fun f => !(Instr.applied 0 0 f).wellFormed) = true ∧
    ([⟨0, 0, 0, 0, false, 256, 0, 0, 0, []⟩, ⟨0, 0, 0, 0, false, 0, 0, 65536, 0, []⟩, ⟨0, 0, 0, 0, false, 0, 0, 0, two 32, []⟩] : List Packet).all
      (fun p => !(Instr.tensorData 0 p).wellFormed && !(Instr.xferData 0 p false).wellFormed) = true ∧
    ([{ wHm with consist := two 32 }, { wHm with dx := 33 }, { wHm with dy := 33 }, { wHm with period := two 32 }, { wHm with tick := two 64 },
      { wHm with stepping := 256 }] : List HelloMsg).all (fun h => !(Instr.hello 0 0 h).wellFormed) = true ∧
    ([⟨0, two 32, 0, []⟩, ⟨0, 0, two 64, []⟩, ⟨0, 0, 0, [⟨0, 0, 1⟩]⟩] : List MapNotice).all (fun n => !(Instr.mapNotice 0 0 n).wellFormed) = true ∧
    (Instr.drain 0 0 ⟨0, List.replicate 5 ⟨0, 0, false, 0⟩⟩).wellFormed = false ∧
    ([⟨[], ⟨0, false, zeros 48⟩, ⟨0, false, zeros 48⟩, ⟨0, false, zeros 48⟩⟩, ⟨zeros 48, ⟨two 32, false, zeros 48⟩, ⟨0, false, zeros 48⟩, ⟨0, false, zeros 48⟩⟩,
      ⟨zeros 48, ⟨0, false, zeros 48⟩, ⟨0, false, []⟩, ⟨0, false, zeros 48⟩⟩] : List FwImages).all
      (fun f => !(Instr.powerOn ⟨false, 0, false, 0⟩ f).wellFormed) = true := by
  decide +kernel

/-- Payloads longer than 4,096 bytes; a timetable image longer than 1 MiB. -/
theorem smoke_lengths (b : List Byte) (h : 4096 < b.length) :
    (Instr.readReply 0 0 0 0 b).wellFormed = false ∧ (Instr.updatePacket 0 0 0 b).wellFormed = false ∧
    (Packet.mk 0 0 0 0 false 0 0 0 0 b).ok = false := by
  have n : ¬ b.length ≤ 4096 := by omega
  simp [Instr.wellFormed, Packet.ok, n]

theorem smoke_imageLength (b : List Byte) (h : 2 ^ 20 < b.length) : (Instr.ttImgValidated 0 (some b)).wellFormed = false := by
  have n : ¬ b.length ≤ 1048576 := by omega
  simp [Instr.wellFormed, n]

/-- Commands of each shape that the checks let through. -/
theorem smoke_accepted :
    ([.tickBoundary ⟨List.replicate 8 1, 30, 30⟩, .ttImgValidated 0 none, .admitStream 0 0 (zeros 64) (some (zeros 64)), .doorbellWrite 0 0 0 0 (.write 3 15), .doorbellWrite 0 0 0 8 .read,
      .frameBuffer 0 0 (wPF (List.replicate 4 (List.replicate 33 true))), .tileW4 0 wIns ⟨128, [9], 0⟩, .attn 0 wIns wAX, .endStream 0 0 wIns [⟨[], [(5, 1, -3)], true⟩],
      .readReq 0 ⟨wRq, .good, 0⟩, .hello 0 0 wHm, .flitReceive 0 0 (zeros 256), .setCap 0 (zeros 32), .keyProgram 0 (zeros 32) (zeros 96), .ppsMissing,
      .registerWrite 0 .sb ⟨false, 0x1000, 8, 255, 5, false⟩, .registerWrite 0 .sb ⟨false, 0x1000, 1, 0, 0, true⟩, .powerOn ⟨false, 0, false, 0⟩ wFlash] : List Instr).all Instr.wellFormed = true := by
  decide +kernel

/-! ## Worked examples of the spec -/

/-- The check values of the two CRCs over "123456789" (00_scope.md, R15). -/
theorem test_crc :
    (let l : List Byte := [0x31, 0x32, 0x33, 0x34, 0x35, 0x36, 0x37, 0x38, 0x39]
     crc32 l = 0xCBF43926 ∧ crc64 l = 0x6C40DF5F0B497347) := by
  decide +kernel

/-- Ties of rshift (07_numeric_formats.md, R313's table). -/
theorem test_rshift : rshift 6 2 = 2 ∧ rshift 10 2 = 2 ∧ rshift 7 2 = 2 ∧ rshift (-6) 2 = -2 ∧ rshift (-10) 2 = -2 := by decide

/-- fp32 to bf16 at ties (07_numeric_formats.md, R314). -/
theorem test_bf16 :
    fp32.convert bf16 0x3F808000 = 0x3F80 ∧ fp32.convert bf16 0x3F818000 = 0x3F82 ∧ fp32.convert bf16 0x3F808001 = 0x3F81 := by decide +kernel

/-- QUANT of −3.7 with INV 16 and z 128 (R311). -/
theorem test_quant : quantElem 0xC06CCCCD 0x41800000 128 = (69, [0, 0, 0, 0, 0, 0, 0, 0]) := by decide +kernel

/-- µ-law 0x2A expands to −5,372 (04_audio_front_end.md). -/
theorem test_ulaw : ulaw 0x2A = -5372 := by decide

/-- The sigmoid lookup of 2,089 with f = 41 between T[544] and T[545] (R253). -/
theorem test_sigmoid : lookup ((List.replicate 544 0 ++ [10198, 10258]) : List Int) 0 2089 = (10236, false) := by decide +kernel

/-- The holdover bound at one, two and three hours with D = 10 ppb an hour, and where it passes 100,000 ns (01_timetable.md). -/
theorem test_holdover :
    holdBound 10 3600 = 25200 ∧ holdBound 10 7200 = 86400 ∧ holdBound 10 10800 = 183600 ∧ holdExceeds 10 100000 7200 = false ∧
    holdExceeds 10 100000 10800 = true := by decide

/-- The encoder ring after a chunk of four entries (R336). -/
theorem test_encoder : encoderAfter { head := 258048, fill := 245760 } (some 4) (some (2048, 128, 120)) = (4096, 245760) := by decide

/-- Strides, offsets and storage of shard 2 of a table of three widths (R377, R378). -/
theorem test_table :
    (let m := [(0, 0), (10000, 1), (200000, 2)]
     let b : Table := { rows := 1000000, dim := 64, n := 4, map := m }
     b.place 250006 = (2, 0x56ABC0) ∧ b.place 12002 = (1, 368000) ∧ shardNeeds m 1000000 64 2 4 = 17680000 ∧ stride 1 64 = 96 ∧
     stride 2 64 = 64) := by decide +kernel

/-- The route from node 5 to node 26 of an 8 × 4 torus: −X three times, then −Y across the wrap (R473). -/
theorem test_route : route 8 4 5 26 0 = [⟨5, 1, 0⟩, ⟨4, 1, 0⟩, ⟨3, 1, 0⟩, ⟨2, 3, 1⟩] := by decide

/-- The calender codes of 0.9, −0.3 and 0.05 under a ceiling of 8, and of 9.5, which saturates (R482). -/
theorem test_calender :
    (codeGroup 3 4 [0x3F666666, 0xBE99999A, 0x3D4CCCCD]).step = 3 ∧ ((codeGroup 3 4 [0x3F666666, 0xBE99999A, 0x3D4CCCCD]).codes.take 3) = [15, 4, 8] ∧
    (codeGroup 3 4 [0x41180000]).step = 0 ∧ ((codeGroup 3 4 [0x41180000]).codes.take 1) = [15] ∧ (codeGroup 3 4 [0x41180000]).sat = 1 := by
  decide +kernel

/-! ## Single commands -/

/-- A write of 1 to INT_STAT clears the bit (R22). -/
theorem test_intStat : (after (.intStatClear 5 (.fn 0) 0x3010 1) (puts up [(PKGB_INT_STAT_CD_READY, 0, 1)])).get PKGB_INT_STAT_CD_READY = 0 := by decide

/-- A SYS_RESET_N pulse of 1,000 ns restarts the part, one of 499 ns does not (R665). -/
theorem test_sysReset :
    (after (.sysReset 5 1000 ⟨false, 0, false, 0⟩) up).get PKG_RESET_CAUSE = 2 ∧ (after (.sysReset 5 499 ⟨false, 0, false, 0⟩) up).cnt = 5 := by
  decide

/-- The most significant bit of a 24-bit slot lies at the frame-start edge in left-justified framing, one BCLK period later in I2S (R215); of a
32-bit slot the first 24 bits are the sample (R216). -/
theorem test_slotSample :
    slotSample 24 1 0 ([true] ++ List.replicate 23 false) = -8388608 ∧ slotSample 24 0 0 ([false, true] ++ List.replicate 23 false) = -8388608 ∧
    slotSample 32 1 1 (List.replicate 55 false ++ [true] ++ List.replicate 8 true) = 1 := by
  decide +kernel

/-- A read of 8 bytes of HT_CNT_LO gives the whole counter (R64, R693). -/
theorem test_wholeCount :
    (after (.registerWrite 7 (.fn 0) ⟨false, HT_CNT_LO.addr 0 0, 8, 0, 0, true⟩) { up with cnt := two 32 + 5 }).readData = two 32 + 12 := by
  decide +kernel

/-- The time reads: HT_CNT_LO latches the high half of the same instant (R43). -/
theorem test_cntRead :
    (after (.htCntLoRead 7 (.fn 0)) { up with cnt := two 32 + 5 }).readData = two 32 + 12 ∧
    (after (.htCntLoRead 7 (.fn 0)) { up with cnt := two 32 + 5 }).latched (.fn 0) HT_CNT_HI = 1 := by
  decide

/-- The block's step on its queue's front (FIXED NAMES). -/
theorem test_step : step { up with pending := [.ppsMissing, .hotReset 1] } = exec .ppsMissing { up with pending := [.hotReset 1] } := rfl

/-- No row of the table gives bits, so no word spells a command. -/
theorem test_noWords : decodeTableWord 32 5 = none ∧ up.withFetchWord 32 5 = up := by decide

end Sys2Proof.Tests
end

section
/-! The block's queue: what a step runs (the queue is the model's form, assumption 2). -/
namespace Sys2Proof.Machine

/-- The rule for a step with work queued: the front command sees a queue it no longer stands in. -/
theorem step_of_pending_cons {s : State} {c : Instr} {q : List Instr} (hq : s.pending = c :: q) :
    step s = exec c { s with pending := q } := by
  rw [step, hq]

end Sys2Proof.Machine

open Sys2Proof.Machine

/-- Settles O1, by the rule for a step with work queued. -/
theorem stepRunsFrontCommand : Obligations.StepRunsFrontCommand :=
  fun _ _ _ hq => step_of_pending_cons hq

end

section
/-! Rules for the audio ports (05_audio_ports.md): fields of a page that stand apart, what a command leaves that stores no byte, latched views, and
the two port pages as one. -/
namespace Sys2Proof.Machine

/-! ## Fields apart -/

/-- Element `j` of `f` and element `k` of `g` are fields of one page kind at different bits. -/
abbrev Fld.Apart (f g : Fld) (j k : Nat := 0) : Prop :=
  f.page = g.page ∧ (f.off + 4 * j) * 32 + f.lo ≠ (g.off + 4 * k) * 32 + g.lo

theorem Fld.Apart.key_ne {f g : Fld} {j k : Nat} (h : f.Apart g j k) (i : Nat) : f.key i j ≠ g.key i k := by
  obtain ⟨hpage, hbit⟩ := h
  simp only [Fld.key, Fld.addr, hpage]
  omega

/-! ## What a command leaves that stores no byte -/

@[simp] theorem State.commit_get (s t : State) (f : Fld) (i j : Nat) : (s.commit t).get f i j = t.get f i j := rfl
@[simp] theorem State.commit_latched (s t : State) (p : Party) (f : Fld) (i j : Nat) :
    (s.commit t).latched p f i j = t.latched p f i j := rfl
@[simp] theorem State.elapse_port (s : State) (dt p : Nat) : (s.elapse dt).port p = s.port p := rfl
@[simp] theorem State.commit_readData (s t : State) : (s.commit t).readData = t.readData := rfl

/-- A command of `dt` ns that changes the parts `l` alone, the clock and the stores under way not among them, leaves every byte, takes its time,
and keeps every other part. -/
theorem State.commit_keeps {s t : State} {dt : Nat} {l : List Part} (hi : s.Inv) (h : (s.elapse dt).SameBut t l)
    (hl : ∀ p ∈ [Part.cnt, .frac, .post], p ∉ l := by decide) :
    s.SameBytes (s.commit t) ∧ s.Took dt (s.commit t) ∧ s.SameBut (s.commit t) (.cnt :: .frac :: l) := by
  obtain ⟨-, -, -, hpost, hactor⟩ := hi
  have hcnt : t.cnt = (s.elapse dt).cnt := h .cnt (hl .cnt (by decide))
  have hfrac : t.frac = (s.elapse dt).frac := h .frac (hl .frac (by decide))
  have htp : t.post = (s.elapse dt).post := h .post (hl .post (by decide))
  have hclean : t.post = [] := by rw [htp, State.elapse_post, hpost]
  have hall : s.SameBut t (.cnt :: .frac :: l) :=
    ((s.elapse_frame dt).mono (by simp)).trans (h.mono fun p hp => by simp [hp])
  exact ⟨State.commit_bytes s t hpost hclean, ⟨hcnt, hfrac⟩, State.commit_frame hall hpost hactor hclean⟩

/-! ## Latched views (R248, R696) -/

theorem State.returns_frame (s : State) (v : Nat) : s.SameBut (s.returns v) [.readData] := by
  intro q hq
  cases q <;> first | rfl | exact absurd (by decide) hq

@[simp] theorem State.returns_value (s : State) (v : Nat) : (s.returns v).readData = v := rfl
@[simp] theorem State.returns_latched (s : State) (v : Nat) (p : Party) (f : Fld) (i j : Nat) :
    (s.returns v).latched p f i j = s.latched p f i j := rfl

@[simp] theorem State.latched_latch_same (s : State) (p : Party) (f : Fld) (v i j : Nat) :
    (s.latch p f v i j).latched p f i j = v % two f.w := by
  simp [State.latched, State.latch, Map.get]

theorem State.latched_latch_other (s : State) (p : Party) {f g : Fld} (v i : Nat) {j k : Nat} (h : g.Apart f k j) :
    (s.latch p f v i j).latched p g i k = s.latched p g i k := by
  have hkey := h.key_ne i
  simp only [State.latched, State.latch, Map.get]
  rw [Map.find_put_other _ _ _ _ (by omega)]

/-- The first `n` elements of a register array, latched as they stand. -/
def State.latchRow (s : State) (p : Party) (f : Fld) (i n : Nat) : State :=
  (List.range n).foldl (fun u k => u.latch p f (u.get f i k) i k) s

theorem State.latchRow_succ (s : State) (p : Party) (f : Fld) (i n : Nat) :
    s.latchRow p f i (n + 1) = (s.latchRow p f i n).latch p f ((s.latchRow p f i n).get f i n) i n := by
  simp [State.latchRow, List.range_succ]

theorem State.latchRow_frame (s : State) (p : Party) (f : Fld) (i n : Nat) : s.SameBut (s.latchRow p f i n) [.latches] := by
  induction n with
  | zero => exact .refl s _
  | succ n ih =>
    rw [State.latchRow_succ]
    exact ih.trans (State.latch_frame _ p f _ i n)

@[simp] theorem State.latchRow_get (s : State) (p : Party) (f g : Fld) (i n k l : Nat) :
    (s.latchRow p f i n).get g k l = s.get g k l :=
  State.get_of_regs _ _ (s.latchRow_frame p f i n .regs (by decide)) g k l

theorem State.latched_latchRow_other (s : State) (p : Party) {f g : Fld} (i : Nat) {n k : Nat} (h : ∀ j < n, g.Apart f k j) :
    (s.latchRow p f i n).latched p g i k = s.latched p g i k := by
  induction n with
  | zero => rfl
  | succ n ih =>
    rw [State.latchRow_succ, State.latched_latch_other _ _ _ _ (h n (by omega)), ih fun j hj => h j (by omega)]

theorem State.latched_latchRow_same (s : State) (p : Party) (f : Fld) (i : Nat) {n k : Nat} (hk : k < n) :
    (s.latchRow p f i n).latched p f i k = s.get f i k % two f.w := by
  induction n with
  | zero => omega
  | succ n ih =>
    rw [State.latchRow_succ]
    by_cases hkn : k = n
    · subst hkn
      simp
    · rw [State.latched_latch_other _ _ _ _ ⟨rfl, by omega⟩, ih (by omega)]

/-- A read that latches and returns changes nothing else. -/
theorem State.returns_frame_of_latches {s t : State} (v : Nat) (h : s.SameBut t [.latches]) : s.SameBut (t.returns v) [.latches, .readData] :=
  (h.mono (by decide)).trans ((t.returns_frame v).mono (by decide))

theorem State.viewStamp_frame (s : State) (p : Party) (x : Nat) : s.SameBut (s.viewStamp p x) [.latches, .readData] :=
  State.returns_frame_of_latches _ (((s.latch_frame _ _ _ _ _).trans (State.latch_frame _ _ _ _ _ _)).trans (State.latch_frame _ _ _ _ _ _))

theorem State.viewIec_frame (s : State) (p : Party) (x : Nat) : s.SameBut (s.viewIec p x) [.latches, .readData] :=
  State.returns_frame_of_latches _ (((s.latch_frame _ _ _ _ _).trans (State.latch_frame _ _ _ _ _ _)).trans (State.latch_frame _ _ _ _ _ _))

/-- The channel-status view latches the rest of CS_A, then CS_B, and returns the first word of CS_A. -/
theorem State.viewCs_eq (s : State) (p : Party) (x : Nat) :
    s.viewCs p x = ((s.latchRow p IXP_CS_A_REST x 5).latchRow p IXP_CS_B x 6).returns (s.get IXP_CS_A x) := by
  rw [← State.latchRow_get s p IXP_CS_A_REST IXP_CS_A x 5 x 0,
    ← State.latchRow_get (s.latchRow p IXP_CS_A_REST x 5) p IXP_CS_B IXP_CS_A x 6 x 0]
  rfl

theorem State.viewCs_frame (s : State) (p : Party) (x : Nat) : s.SameBut (s.viewCs p x) [.latches, .readData] := by
  rw [State.viewCs_eq]
  exact State.returns_frame_of_latches _ ((s.latchRow_frame _ _ _ _).trans (State.latchRow_frame _ _ _ _ _))

theorem State.viewStamp_value (s : State) (p : Party) (x : Nat) : (s.viewStamp p x).readData = s.get APT_STAMP_LO x := rfl
theorem State.viewIec_value (s : State) (p : Party) (x : Nat) : (s.viewIec p x).readData = s.get IXP_STAMP_LO x := rfl
theorem State.viewCs_value (s : State) (p : Party) (x : Nat) : (s.viewCs p x).readData = s.get IXP_CS_A x := by
  rw [State.viewCs_eq, State.returns_value]

theorem State.viewStamp_latches (s : State) (p : Party) (x : Nat) :
    (s.viewStamp p x).latched p APT_STAMP_HI x = s.get APT_STAMP_HI x % two 32 ∧
    (s.viewStamp p x).latched p APT_BLOCK_LO x = (s.port x).blockNo % two 32 ∧
    (s.viewStamp p x).latched p APT_BLOCK_HI x = (s.port x).blockNo / two 32 % two 32 := by
  refine ⟨?_, ?_, ?_⟩ <;> simp only [State.viewStamp, State.returns_latched]
  · rw [State.latched_latch_other _ _ _ _ (by decide), State.latched_latch_other _ _ _ _ (by decide), State.latched_latch_same]
    rfl
  · rw [State.latched_latch_other _ _ _ _ (by decide), State.latched_latch_same]
    rfl
  · rw [State.latched_latch_same]
    rfl

theorem State.viewIec_latches (s : State) (p : Party) (x : Nat) :
    (s.viewIec p x).latched p IXP_STAMP_HI x = s.get IXP_STAMP_HI x % two 32 ∧
    (s.viewIec p x).latched p IXP_BLOCK_LO x = s.get IXP_BLOCK_LO x % two 32 ∧
    (s.viewIec p x).latched p IXP_BLOCK_HI x = s.get IXP_BLOCK_HI x % two 32 := by
  refine ⟨?_, ?_, ?_⟩ <;> simp only [State.viewIec, State.returns_latched]
  · rw [State.latched_latch_other _ _ _ _ (by decide), State.latched_latch_other _ _ _ _ (by decide), State.latched_latch_same]
    rfl
  · rw [State.latched_latch_other _ _ _ _ (by decide), State.latched_latch_same]
    rfl
  · rw [State.latched_latch_same]
    rfl

theorem State.viewCs_latches (s : State) (p : Party) (x : Nat) :
    (∀ k, k < 5 → (s.viewCs p x).latched p IXP_CS_A_REST x k = s.get IXP_CS_A_REST x k % two 32) ∧
    (∀ k, k < 6 → (s.viewCs p x).latched p IXP_CS_B x k = s.get IXP_CS_B x k % two 32) := by
  refine ⟨fun k hk => ?_, fun k hk => ?_⟩ <;> rw [State.viewCs_eq, State.returns_latched]
  · have hapart : ∀ j < 6, IXP_CS_A_REST.Apart IXP_CS_B k j := fun j _ => ⟨rfl, by simp only [IXP_CS_A_REST, IXP_CS_B]; omega⟩
    rw [State.latched_latchRow_other _ _ _ hapart, State.latched_latchRow_same _ _ _ _ hk]
    rfl
  · rw [State.latched_latchRow_same _ _ _ _ hk, State.latchRow_get]
    rfl

/-- A read within reach answers what its view leaves. -/
theorem State.done_reading {s : State} {p : Party} {pg : Page} {i : Nat} (dt : Nat) (g : State → State) (h : s.MayRead p pg i) :
    s.done ((s.elapse dt).reading p pg i g) = .next (s.commit (g (s.elapse dt))) := by
  rw [State.reading_reach (s.elapse dt) p pg i g h]
  rfl

theorem exec_aptStampLoRead {s : State} {p : Party} {x : Fin 8} (dt : Nat) (h : s.MayRead p .apt x) :
    exec (.aptStampLoRead dt p x) s = .next (s.commit ((s.elapse dt).viewStamp p x)) :=
  State.done_reading dt _ h

theorem exec_ixpStampLoRead {s : State} {p : Party} {x : Fin 2} (dt : Nat) (h : s.MayRead p .ixp x) :
    exec (.ixpStampLoRead dt p x) s = .next (s.commit ((s.elapse dt).viewIec p x)) :=
  State.done_reading dt _ h

theorem exec_ixpCsARead {s : State} {p : Party} {x : Fin 2} (dt : Nat) (h : s.MayRead p .ixp x) :
    exec (.ixpCsARead dt p x) s = .next (s.commit ((s.elapse dt).viewCs p x)) :=
  State.done_reading dt _ h

end Sys2Proof.Machine

open Sys2Proof.Machine

/-- Settles O25: each view is a row of latches and a return, read back by the rules of latches. -/
theorem portReadsLatchOneBlock : Obligations.PortReadsLatchOneBlock := by
  intro s dt p hi
  refine ⟨fun x hr => ⟨_, exec_aptStampLoRead dt hr, ?_⟩, fun x hr => ⟨_, exec_ixpStampLoRead dt hr, ?_⟩,
    fun x hr => ⟨_, exec_ixpCsARead dt hr, ?_⟩⟩
  · obtain ⟨hhi, hlo, hno⟩ := (s.elapse dt).viewStamp_latches p x
    refine ⟨?_, ?_, ?_, ?_, State.commit_keeps hi (State.viewStamp_frame _ p x)⟩
    · rw [State.commit_readData, State.viewStamp_value, State.get_elapse]
    · rw [State.commit_latched, hhi, State.get_elapse]
    · rw [State.commit_latched, hlo, State.elapse_port]
    · rw [State.commit_latched, hno, State.elapse_port]
  · obtain ⟨hhi, hlo, hno⟩ := (s.elapse dt).viewIec_latches p x
    refine ⟨?_, ?_, ?_, ?_, State.commit_keeps hi (State.viewIec_frame _ p x)⟩
    · rw [State.commit_readData, State.viewIec_value, State.get_elapse]
    · rw [State.commit_latched, hhi, State.get_elapse]
    · rw [State.commit_latched, hlo, State.get_elapse]
    · rw [State.commit_latched, hno, State.get_elapse]
  · obtain ⟨hrest, hb⟩ := (s.elapse dt).viewCs_latches p x
    refine ⟨?_, fun k hk => ?_, fun k hk => ?_, State.commit_keeps hi (State.viewCs_frame _ p x)⟩
    · rw [State.commit_readData, State.viewCs_value, State.get_elapse]
    · rw [State.commit_latched, hrest k hk, State.get_elapse]
    · rw [State.commit_latched, hb k hk, State.get_elapse]

end
section
/-! The two port pages as one, and the commands of a port: what each leaves of the port, of its page, and of everything else
(R228, R230, R240, R241). -/
namespace Sys2Proof.Machine

/-- The parts that a port's command, its page and its interrupt may change. -/
abbrev portParts : List Part := [.regs, .stores, .msix, .ports]

/-! ## A port and its page -/

@[simp] theorem State.commit_port (s t : State) (p : Nat) : (s.commit t).port p = t.port p := rfl
@[simp] theorem State.commit_pget (s t : State) (p : Nat) (a i : Fld) : (s.commit t).pget p a i = t.pget p a i := rfl
@[simp] theorem State.commit_portState (s t : State) (p : Nat) : (s.commit t).portState p = t.portState p := rfl
@[simp] theorem State.commit_gated (s t : State) (p : Nat) : (s.commit t).gated p = t.gated p := rfl
@[simp] theorem State.elapse_pget (s : State) (dt p : Nat) (a i : Fld) : (s.elapse dt).pget p a i = s.pget p a i := rfl
@[simp] theorem State.elapse_portState (s : State) (dt p : Nat) : (s.elapse dt).portState p = s.portState p := rfl
@[simp] theorem State.elapse_standby (s : State) (dt : Nat) : (s.elapse dt).standby = s.standby := rfl
@[simp] theorem State.elapse_switchAt (s : State) (dt p : Nat) (w : Nat × Bool × Nat) : (s.elapse dt).switchAt p w = s.switchAt p w := rfl

theorem State.port_of_ports {s t : State} (h : t.ports = s.ports) (p : Nat) : t.port p = s.port p := by
  simp [State.port, h]

theorem State.pget_of_regs {s t : State} (h : t.regs = s.regs) (p : Nat) (a i : Fld) : t.pget p a i = s.pget p a i := by
  simp [State.pget, State.get_of_regs s t h]

@[simp] theorem State.port_modPort (s : State) (p : Nat) (f : Port → Port) : (s.modPort p f).port p = f (s.port p) := by
  simp [State.port, State.modPort, Map.get]

@[simp] theorem State.pget_modPort (s : State) (p q : Nat) (f : Port → Port) (a i : Fld) : (s.modPort q f).pget p a i = s.pget p a i := rfl
@[simp] theorem State.cnt_modPort (s : State) (q : Nat) (f : Port → Port) : (s.modPort q f).cnt = s.cnt := rfl

theorem State.modPort_frame (s : State) (p : Nat) (f : Port → Port) : s.SameBut (s.modPort p f) [.ports] := by
  intro q hq
  cases q <;> first | rfl | exact absurd (by decide) hq

theorem State.pset_frame (s : State) (p : Nat) (a i : Fld) (v : Nat) : s.SameBut (s.pset p a i v) [.regs] := by
  unfold State.pset
  split
  · exact s.set_frame a v p 0
  · exact s.set_frame i v (p - 8) 0

theorem State.praise_frame (s : State) (p : Nat) (a i : Fld) : s.SameBut (s.praise p a i) [.regs, .msix, .stores] := by
  unfold State.praise
  split
  · exact s.raise_frame a p
  · exact s.raise_frame i (p - 8)

/-- A count on a port's page is a write of the sum. -/
theorem State.pbump_eq (s : State) (p : Nat) (a i : Fld) (n : Nat) : s.pbump p a i n = s.pset p a i (s.pget p a i + n) := by
  unfold State.pbump State.pset State.pget State.bump
  split <;> rfl

theorem State.praise_regs (s : State) (p : Nat) (a i : Fld) : (s.praise p a i).regs = (s.pset p a i 1).regs := by
  unfold State.praise State.pset
  split <;> exact State.raise_regs ..

@[simp] theorem State.port_pset (s : State) (p q : Nat) (a i : Fld) (v : Nat) : (s.pset q a i v).port p = s.port p :=
  State.port_of_ports (s.pset_frame q a i v .ports (by decide)) p

@[simp] theorem State.port_praise (s : State) (p q : Nat) (a i : Fld) : (s.praise q a i).port p = s.port p :=
  State.port_of_ports (s.praise_frame q a i .ports (by decide)) p

theorem State.pget_pset_same (s : State) (p : Nat) {a i : Fld} (v : Nat) (hw : a.w = i.w) : (s.pset p a i v).pget p a i = v % two a.w := by
  unfold State.pset State.pget
  split
  · exact State.get_set_same ..
  · rw [hw]
    exact State.get_set_same ..

theorem State.pget_pset_other (s : State) (p : Nat) {a i b j : Fld} (v : Nat) (ha : b.Apart a) (hi : j.Apart i) :
    (s.pset p a i v).pget p b j = s.pget p b j := by
  unfold State.pset State.pget
  split
  · exact State.get_set_other _ _ _ _ _ _ _ _ (ha.key_ne p)
  · exact State.get_set_other _ _ _ _ _ _ _ _ (hi.key_ne (p - 8))

theorem State.pget_praise_same (s : State) (p : Nat) {a i : Fld} (hw : a.w = i.w) : (s.praise p a i).pget p a i = 1 % two a.w := by
  rw [State.pget_of_regs (s.praise_regs p a i), State.pget_pset_same s p 1 hw]

theorem State.pget_praise_other (s : State) (p : Nat) {a i b j : Fld} (ha : b.Apart a) (hi : j.Apart i) :
    (s.praise p a i).pget p b j = s.pget p b j := by
  rw [State.pget_of_regs (s.praise_regs p a i), State.pget_pset_other s p 1 ha hi]

/-- A count of events and its interrupt: the port stays, the count grows, the bit is set. -/
theorem State.praise_pbump (s : State) (p n : Nat) {a i b j : Fld} (hw : a.w = i.w) (ha : a.Apart b) (hi : i.Apart j) :
    ((s.pbump p a i n).praise p b j).pget p a i = (s.pget p a i + n) % two a.w := by
  rw [State.pget_praise_other _ p ha hi, State.pbump_eq, State.pget_pset_same s p _ hw]

theorem State.praise_pbump_frame (s : State) (p n : Nat) (a i b j : Fld) :
    s.SameBut ((s.pbump p a i n).praise p b j) [.regs, .msix, .stores] := by
  rw [State.pbump_eq]
  exact ((s.pset_frame p a i _).mono (by decide)).trans (State.praise_frame _ p b j)

/-! ## The state of a port, and where it settles (R230) -/

theorem State.setPortState_frame (s : State) (p v : Nat) : s.SameBut (s.setPortState p v) [.regs] := s.pset_frame p _ _ v

@[simp] theorem State.port_setPortState (s : State) (p q v : Nat) : (s.setPortState q v).port p = s.port p := s.port_pset p q _ _ v

theorem State.portState_setPortState (s : State) (p : Nat) {v : Nat} (hv : v < 8) : (s.setPortState p v).portState p = v :=
  (s.pget_pset_same (a := APT_STAT_STATE) (i := IXP_STAT_STATE) p v rfl).trans (Nat.mod_eq_of_lt hv)

/-- The gated channels follow the lines and the mask, not the port's state. -/
@[simp] theorem State.gated_setPortState (s : State) (p v : Nat) : (s.setPortState p v).gated p = s.gated p := by
  by_cases hp : p < 8
  · have hline : ∀ d, (s.setPortState p v).lineDir p d = s.lineDir p d := by
      intro d
      simp only [State.lineDir, State.setPortState, State.pset, if_pos hp]
      refine State.get_set_other _ _ _ _ _ _ _ _ (Fld.Apart.key_ne ?_ p)
      by_cases h0 : d = 0
      · rw [if_pos h0]
        decide
      by_cases h1 : d = 1
      · rw [if_neg h0, if_pos h1]
        decide
      by_cases h2 : d = 2
      · rw [if_neg h0, if_neg h1, if_pos h2]
        decide
      · rw [if_neg h0, if_neg h1, if_neg h2]
        decide
    simp only [State.gated, if_pos hp, hline, State.port_setPortState]
  · simp only [State.gated, if_neg hp, State.port_setPortState]

/-- Where no frame ends, a port that settles stays as it is or takes another state. -/
theorem State.settlePort_between_frames (s : State) (p : Nat) :
    s.settlePort p false = s ∨ ∃ v, s.settlePort p false = s.setPortState p v := by
  unfold State.settlePort
  dsimp only
  split
  · exact .inr ⟨_, rfl⟩
  · exact .inl (by simp)

theorem State.settlePort_starting (s : State) (p : Nat) (ends : Bool) (h : s.portState p = ptSTARTING) :
    s.settlePort p ends = s.setPortState p (if s.allOpen p then ptRUNNING else ptSTARTING) := by
  simp [State.settlePort, h]

theorem State.settlePort_frame (s : State) (p : Nat) : s.SameBut (s.settlePort p false) [.regs] := by
  obtain h | ⟨v, h⟩ := s.settlePort_between_frames p <;> rw [h]
  · exact .refl s _
  · exact s.setPortState_frame p v

@[simp] theorem State.port_settlePort (s : State) (p q : Nat) : (s.settlePort q false).port p = s.port p :=
  State.port_of_ports (s.settlePort_frame q .ports (by decide)) p

theorem State.pget_settlePort (s : State) (p : Nat) {a i : Fld} (ha : a.Apart APT_STAT_STATE) (hi : i.Apart IXP_STAT_STATE) :
    (s.settlePort p false).pget p a i = s.pget p a i := by
  obtain h | ⟨v, h⟩ := s.settlePort_between_frames p <;> rw [h]
  exact s.pget_pset_other p v ha hi

/-- With no gate open, every gated channel is open only where none is gated. -/
theorem State.allOpen_of_shut (s : State) (p : Nat) (h : ∀ c, ((s.port p).gates.getD c .closed).isOpen = false) :
    s.allOpen p = (s.gated p).isEmpty := by
  simp only [State.allOpen, h]
  cases s.gated p <;> rfl

/-! ## PORT_START, PORT_STOP, PORT_FLUSH (R228) -/

theorem State.queuePort_frame (s : State) (p : Nat) (isStart : Bool) (h : (s.port p).pend.length < 4) :
    s.SameBut (s.queuePort p isStart) [.ports] := by
  rw [State.queuePort, if_neg (by omega)]
  exact s.modPort_frame p _

/-- With room in the queue a command waits for the later of CMD_AT and now. -/
theorem State.pend_queuePort (s : State) (p : Nat) (isStart : Bool) (h : (s.port p).pend.length < 4) :
    ((s.queuePort p isStart).port p).pend = (s.port p).pend ++
      [⟨isStart, max (s.pget p APT_CMD_AT_LO IXP_CMD_AT_LO + two 32 * s.pget p APT_CMD_AT_HI IXP_CMD_AT_HI) s.cnt, (s.port p).seq⟩] := by
  rw [State.queuePort, if_neg (by omega), State.port_modPort]

theorem State.superseded_frame (s : State) (p n : Nat) : s.SameBut (s.superseded p n) [.regs, .msix, .stores] := by
  unfold State.superseded
  split
  · exact .refl s _
  · exact s.praise_pbump_frame p n _ _ _ _

theorem State.pget_superseded (s : State) (p : Nat) {n : Nat} (hn : n ≠ 0) :
    (s.superseded p n).pget p APT_SUPERSEDED IXP_SUPERSEDED = (s.pget p APT_SUPERSEDED IXP_SUPERSEDED + n) % two 32 := by
  rw [State.superseded, if_neg hn]
  exact s.praise_pbump p n rfl (by decide) (by decide)

theorem State.flushPort_frame (s : State) (p : Nat) : s.SameBut (s.flushPort p) portParts :=
  ((s.superseded_frame p _).mono (by decide)).trans ((State.modPort_frame _ p _).mono (by decide))

@[simp] theorem State.pend_flushPort (s : State) (p : Nat) : ((s.flushPort p).port p).pend = [] := by
  rw [State.flushPort, State.port_modPort]

theorem State.pget_flushPort (s : State) (p : Nat) (h : (s.port p).pend ≠ []) :
    (s.flushPort p).pget p APT_SUPERSEDED IXP_SUPERSEDED =
      (s.pget p APT_SUPERSEDED IXP_SUPERSEDED + (s.port p).pend.length) % two 32 := by
  rw [State.flushPort, State.pget_modPort, State.pget_superseded s p (by simpa using h)]

/-- A party that may write a port's page has its command done. -/
theorem State.done_portAccess {s : State} {p : Party} {port : Nat} (dt : Nat) (g : State → State)
    (h : if port < 8 then s.MayWrite p .apt port else s.MayWrite p .ixp (port - 8)) :
    s.done ((s.elapse dt).portAccess p port g) = .next (s.commit (g (s.elapse dt))) := by
  unfold State.done State.portAccess
  by_cases hp : port < 8
  · rw [if_pos hp] at h ⊢
    rw [State.access_full (s.elapse dt) _ _ _ _ _ h]
  · rw [if_neg hp] at h ⊢
    rw [State.access_full (s.elapse dt) _ _ _ _ _ h]

/-! ## PORT_COMMAND_EFFECT of a START (R230, R241) -/

theorem State.mapGates_frame (s : State) (p : Nat) (f : Gate → Gate) : s.SameBut (s.mapGates p f) [.ports] := by
  unfold State.mapGates
  exact s.modPort_frame p _

/-- A START opens no gate of a port whose gates are all closed: its gated channels wait. -/
theorem State.mapGates_start_shut (s : State) (p c : Nat) (h : (s.port p).gates = List.replicate 8 .closed) :
    (((s.mapGates p Gate.start).port p).gates.getD c .closed).isOpen = false := by
  have hclosed : ∀ k : Nat, ((List.replicate 8 Gate.closed)[k]?).getD .closed = .closed := fun k => by
    rw [List.getElem?_replicate]
    split <;> rfl
  simp only [State.mapGates, State.port_modPort, h, List.getD_eq_getElem?_getD, List.getElem?_map, hclosed]
  cases (List.range 8)[c]? with
  | none => rfl
  | some k =>
    simp only [Option.map_some, Option.getD_some]
    split <;> rfl

/-- What a START leaves of a stopped port before it settles: STARTING from now on, every gate shut, its commands as they were, the bit set. -/
theorem State.startPort_eq (s : State) (p : Nat) :
    ∃ r : State, s.startPort p = r.settlePort p false ∧ r.portState p = ptSTARTING ∧ (r.port p).since = s.cnt ∧
      (r.port p).pend = (s.port p).pend ∧ (∀ c, ((r.port p).gates.getD c .closed).isOpen = false) ∧
      r.pget p APT_INT_STAT_STARTED IXP_INT_STAT_STARTED = 1 ∧ s.SameBut r portParts := by
  refine ⟨_, rfl, ?_, ?_, ?_, fun c => ?_, State.pget_praise_same _ p rfl, ?_⟩
  · rw [State.portState, State.pget_praise_other _ p (by decide) (by decide), State.pget_pset_other _ p _ (by decide) (by decide)]
    exact State.portState_setPortState _ p (by decide)
  · simp [State.mapGates]
  · simp [State.mapGates]
  · simp only [State.port_praise, State.port_pset, State.port_setPortState]
    exact State.mapGates_start_shut _ p c (by rw [State.port_modPort])
  · refine .trans ?_ ((State.praise_frame _ p _ _).mono (by decide))
    refine .trans ?_ ((State.pset_frame _ p _ _ _).mono (by decide))
    refine .trans ?_ ((State.setPortState_frame _ p _).mono (by decide))
    exact .mono ((s.modPort_frame p _).trans (State.mapGates_frame _ p _)) (by decide)

/-- A started port runs from now, STARTING until every gated channel is open. -/
theorem State.startPort_started (s : State) (p : Nat) :
    ((s.startPort p).port p).since = s.cnt ∧ ((s.startPort p).port p).pend = (s.port p).pend ∧
    (s.startPort p).portState p = (if ((s.startPort p).gated p).isEmpty then ptRUNNING else ptSTARTING) ∧
    (s.startPort p).pget p APT_INT_STAT_STARTED IXP_INT_STAT_STARTED = 1 ∧ s.SameBut (s.startPort p) portParts := by
  obtain ⟨r, hstart, hstate, hsince, hpend, hshut, hbit, hframe⟩ := s.startPort_eq p
  rw [hstart]
  refine ⟨by rw [State.port_settlePort, hsince], by rw [State.port_settlePort, hpend], ?_,
    by rw [State.pget_settlePort r p (by decide) (by decide), hbit], hframe.trans ((r.settlePort_frame p).mono (by decide))⟩
  rw [r.settlePort_starting p false hstate, State.gated_setPortState, r.allOpen_of_shut p hshut]
  exact State.portState_setPortState r p (by split <;> decide)

/-- A command alone whose stamp has come leaves the queue and acts. -/
theorem State.portEffect_single (s : State) (p : Nat) {c : PortCmd} (hp : (s.port p).pend = [c]) (hc : c.stamp ≤ s.cnt) :
    ∃ r : State, s.portEffect p = r.applyPort p c.isStart ∧ (r.port p).pend = [] ∧ r.portState p = s.portState p ∧ r.cnt = s.cnt ∧
      s.SameBut r [.ports] := by
  have hovr : [c].filter (superseding (s.portRate p) [c]) = [] := by simp [superseding]
  unfold State.portEffect
  simp only [hp, hovr, List.length_nil, State.superseded, if_true, State.port_modPort]
  simp only [List.filter_cons, List.filter_nil, List.contains_nil, Bool.not_false, if_true, List.foldl_cons, List.foldl_nil, insertCmd,
    List.head?_cons, State.cnt_modPort, if_neg (Nat.not_lt.mpr hc)]
  exact ⟨_, rfl, by simp [hp], rfl, rfl, (s.modPort_frame p _).trans (State.modPort_frame _ p _)⟩

theorem State.applyPort_start_of_stopped (s : State) (p : Nat) (h : s.portState p = ptSTOPPED) : s.applyPort p true = s.startPort p := by
  simp [State.applyPort, h]

/-! ## ZC_TIMEOUT (R230) -/

/-- A channel that has waited TIMEOUT frames to open begins its ramp. -/
theorem State.rampGate_of_waited (s : State) (p c : Nat) {w : Nat} (hg : (s.port p).gates.getD c .closed = .opening w)
    (hw : (s.port p).timeout ≤ w) :
    s.rampGate p c = ((s.modPort p (fun q => { q with gates := q.gates.set c (.rampUp 0) })).zcRamp p).settlePort p false := by
  simp only [State.rampGate, hg, if_pos hw]

theorem State.zcRamp_frame (s : State) (p : Nat) : s.SameBut (s.zcRamp p) [.regs, .msix, .stores] := s.praise_pbump_frame p 1 _ _ _ _

theorem State.pget_zcRamp (s : State) (p : Nat) :
    (s.zcRamp p).pget p APT_ZC_TIMEOUTS IXP_ZC_TIMEOUTS = (s.pget p APT_ZC_TIMEOUTS IXP_ZC_TIMEOUTS + 1) % two 32 ∧
    (s.zcRamp p).pget p APT_INT_STAT_ZC_TIMEOUT IXP_INT_STAT_ZC_TIMEOUT = 1 :=
  ⟨s.praise_pbump p 1 rfl (by decide) (by decide), State.pget_praise_same _ p rfl⟩

@[simp] theorem State.port_zcRamp (s : State) (p q : Nat) : (s.zcRamp q).port p = s.port p :=
  State.port_of_ports (s.zcRamp_frame q .ports (by decide)) p

theorem getD_set_of_getD_ne {α : Type} (l : List α) (c : Nat) (a d : α) (h : l.getD c d ≠ d) : (l.set c a).getD c d = a := by
  have hlen : c < l.length := Nat.lt_of_not_le fun hc => h (by rw [List.getD_eq_getElem?_getD, List.getElem?_eq_none hc, Option.getD_none])
  rw [List.getD_eq_getElem?_getD, List.getElem?_set_self hlen, Option.getD_some]

/-- It ramps, and the timeout is counted and signalled. -/
theorem State.rampGate_ramps (s : State) (p c : Nat) {w : Nat} (hg : (s.port p).gates.getD c .closed = .opening w)
    (hw : (s.port p).timeout ≤ w) :
    ((s.rampGate p c).port p).gates.getD c .closed = .rampUp 0 ∧
    (s.rampGate p c).pget p APT_ZC_TIMEOUTS IXP_ZC_TIMEOUTS = (s.pget p APT_ZC_TIMEOUTS IXP_ZC_TIMEOUTS + 1) % two 32 ∧
    (s.rampGate p c).pget p APT_INT_STAT_ZC_TIMEOUT IXP_INT_STAT_ZC_TIMEOUT = 1 ∧ s.SameBut (s.rampGate p c) portParts := by
  rw [s.rampGate_of_waited p c hg hw]
  obtain ⟨htimeouts, hbit⟩ := (s.modPort p (fun q => { q with gates := q.gates.set c (.rampUp 0) })).pget_zcRamp p
  refine ⟨?_, ?_, ?_, ?_⟩
  · rw [State.port_settlePort, State.port_zcRamp, State.port_modPort]
    exact getD_set_of_getD_ne _ _ _ _ (by rw [hg]; nofun)
  · rw [State.pget_settlePort _ p (by decide) (by decide), htimeouts, State.pget_modPort]
  · rw [State.pget_settlePort _ p (by decide) (by decide), hbit]
  · refine .trans ?_ ((State.settlePort_frame _ p).mono (by decide))
    exact .trans ((s.modPort_frame p _).mono (by decide)) ((State.zcRamp_frame _ p).mono (by decide))

/-! ## SWITCHED (R240) -/

theorem State.switched_frame (s : State) (p : Nat) (w : Nat × Bool × Nat) (at_ : Nat) : s.SameBut (s.switched p w at_) portParts := by
  unfold State.switched
  refine .trans ?_ ((State.modPort_frame _ p _).mono (by decide))
  exact ((s.setPortState_frame p w.1).mono (by decide)).trans ((State.raise_frame _ _ p).mono (by decide))

/-- An AP port that has switched is in the state it goes back to, in a new block from `at_` on. -/
theorem State.switched_back (s : State) {p : Nat} (hp : p < 8) {w : Nat × Bool × Nat} (hw : w.1 < 8) (at_ : Nat) :
    (s.switched p w at_).portState p = w.1 ∧ ((s.switched p w at_).port p).switch = none ∧
    ((s.switched p w at_).port p).newBlock = true ∧ ((s.switched p w at_).port p).since = at_ ∧
    (s.switched p w at_).get APT_INT_STAT_SWITCHED p = 1 := by
  have hport : (s.switched p w at_).port p =
      { ((s.setPortState p w.1).raise APT_INT_STAT_SWITCHED p).port p with
        switch := none, newBlock := true, since := at_, prev := List.replicate 8 none } := State.port_modPort ..
  refine ⟨?_, by rw [hport], by rw [hport], by rw [hport], State.get_raise_same _ APT_INT_STAT_SWITCHED p⟩
  have hstate := s.portState_setPortState p hw
  simp only [State.portState, State.pget, if_pos hp] at hstate ⊢
  exact (State.get_raise_other _ _ _ _ _ _ (Fld.Apart.key_ne (by decide) p)).trans hstate

/-! ## What the commands answer -/

theorem exec_portCommandEffect {s : State} (dt : Nat) {port : Fin 10} (hst : s.portState port ≠ ptSWITCHING) (hsb : s.standby = false) :
    exec (.portCommandEffect dt port) s = .next (s.commit ((s.elapse dt).portEffect port)) := by
  change execPortCommandEffect dt port s = _
  have hidle : ¬(((s.elapse dt).portState port = ptSWITCHING || (s.elapse dt).standby) = true) := by
    rw [State.elapse_portState, State.elapse_standby, hsb]
    simpa using hst
  unfold execPortCommandEffect
  dsimp only
  rw [if_neg hidle]
  rfl

theorem exec_switched {s : State} {dt : Nat} {port : Fin 8} {w : Nat × Bool × Nat} (hw : (s.port port).switch = some w)
    (hm : w.2.1 = true) (ht : (s.elapse dt).switchAt port w ≤ (s.elapse dt).cnt) :
    exec (.switched dt port) s = .next (s.commit ((s.elapse dt).switched port w (s.switchAt port w))) := by
  change execSwitched dt port s = _
  have hu : ((s.elapse dt).port port).switch = some w := hw
  unfold execSwitched
  dsimp only
  rw [hu]
  dsimp only
  rw [if_pos (by simp only [hm, ht, decide_true, Bool.and_self]), State.elapse_switchAt]
  rfl

end Sys2Proof.Machine

open Sys2Proof.Machine

/-- Settles O23: each command's own rule, read back through the commit. -/
theorem portCommandsWaitForTheirStamp : Obligations.PortCommandsWaitForTheirStamp := by
  refine ⟨fun s dt p port hi hacc => ?_, ⟨fun s dt port c hi hsb hst hpend hc hstamp => ?_, fun s dt port w hi hw hback hm ht => ?_⟩,
    fun s dt port ch w hi hg hw => ?_⟩
  · refine ⟨fun hroom => ?_, ⟨_, State.done_portAccess dt _ hacc, ?_⟩⟩
    · have hframe := fun isStart => (s.elapse dt).queuePort_frame port isStart hroom
      have hqueued := fun isStart => (s.elapse dt).pend_queuePort port isStart hroom
      refine ⟨⟨_, State.done_portAccess dt _ hacc, ?_, State.commit_keeps hi (hframe true)⟩,
        ⟨_, State.done_portAccess dt _ hacc, ?_, State.commit_keeps hi (hframe false)⟩⟩ <;>
        rw [State.commit_port, hqueued, State.elapse_port, State.elapse_pget, State.elapse_pget]
    · refine ⟨?_, fun hne => ?_, State.commit_keeps hi (State.flushPort_frame _ port)⟩
      · rw [State.commit_port, State.pend_flushPort]
      · rw [State.commit_pget, (s.elapse dt).pget_flushPort port hne, State.elapse_pget, State.elapse_port]
  · obtain ⟨r, heffect, hrpend, hrstate, hrcnt, hrframe⟩ := (s.elapse dt).portEffect_single port hpend hstamp
    rw [hc, r.applyPort_start_of_stopped port (hrstate.trans hst)] at heffect
    obtain ⟨hsince, hstarted, hstate, hbit, hframe⟩ := r.startPort_started port
    refine ⟨_, exec_portCommandEffect dt (by rw [hst]; decide) hsb, ?_⟩
    rw [heffect]
    refine ⟨?_, ?_, ?_, ?_, State.commit_keeps hi ((hrframe.mono (by decide)).trans hframe)⟩
    · rw [State.commit_port, hstarted, hrpend]
    · rw [State.commit_port, hsince, hrcnt]
    · rw [State.commit_portState, State.commit_gated, hstate]
    · rw [State.commit_pget, hbit]
  · obtain ⟨hstate, hswitch, hblock, hsince, hbit⟩ := (s.elapse dt).switched_back port.isLt hback (s.switchAt port w)
    refine ⟨_, exec_switched hw hm ht, ?_⟩
    refine ⟨?_, ?_, ?_, ?_, ?_, State.commit_keeps hi (State.switched_frame _ port w _)⟩
    · rw [State.commit_portState, hstate]
    · rw [State.commit_port, hswitch]
    · rw [State.commit_port, hblock]
    · rw [State.commit_port, hsince]
    · rw [State.commit_get, hbit]
  · obtain ⟨hgate, htimeouts, hbit, hframe⟩ := (s.elapse dt).rampGate_ramps port ch hg hw
    refine ⟨_, rfl, ?_, ?_, ?_, State.commit_keeps hi hframe⟩
    · rw [State.commit_port, hgate]
    · rw [State.commit_pget, htimeouts, State.elapse_pget]
    · rw [State.commit_pget, hbit]

end
